-- ==== Sys2Proof/Word.lean ====
section
/-! DEFINITION. The word types of the FK-1648 and their plainest arithmetic (R5, R16, R17). -/

namespace Sys2Proof

/-- One byte. -/
abbrev Byte := BitVec 8

/-- One 32-bit host register word (R9). -/
abbrev Word := BitVec 32

/-- Short time: nanoseconds modulo 2^48 (R16). -/
abbrev ShortTime := BitVec 48

/-- One 128-bit block or random word. -/
abbrev Block128 := BitVec 128

end Sys2Proof
end

