-- ==== Sys2Proof/Syntax.lean ====
section
/-! DEFINITION. The commands of the FK-1648: one constructor of `Instr` per row of spec/opcode_table.json, with the data
that reaches the part from outside when the step happens (a measurement, received bytes, a register word). -/

namespace Sys2Proof

/-- The two gPTP domains (R159). -/
inductive Dom where
  | pri
  | red
deriving DecidableEq, Repr

/-- What step 2 of R239 finds on the pins of a channel. -/
inductive PinTest where
  | clean
  | nearSupply
  | nearGnd
deriving DecidableEq, Repr

/-- The short classes of R241 and R254. -/
inductive ShortKind where
  | gnd
  | supply
  | coil
deriving DecidableEq, Repr

/-- The voltage induced in a channel while channel `ref` is driven, relative to that current, in µV (R242). -/
structure Coupling where
  ref : Fin 16
  re  : Int
  im  : Int
deriving DecidableEq, Repr

/-- What tuning measures on one mapped channel (R239, R241). -/
structure LfMeasure where
  ch        : Fin 16
  pins      : PinTest
  highTrip  : Bool
  lowTrip   : Bool
  driveMa   : Nat
  /-- real and imaginary part of Z at the carrier, µΩ -/
  zRe       : Int
  zIm       : Int
  /-- zero crossings counted in RING, and the ring frequency in Hz -/
  crossings : Nat
  fRes      : Nat
  /-- amplitudes I_0 and I_N of the RING part and N, the whole periods captured -/
  i0        : Nat
  iN        : Nat
  periods   : Nat
  couplings : List Coupling
deriving DecidableEq, Repr

/-- What the surroundings give a start-up: supply, self-test, noise source, PUF, flash link and coils (R97). -/
structure StartEnv where
  vbatMv     : Nat
  vholdMv    : Nat
  /-- self-test result of physical pairs 0 to 2 (R604) -/
  pairOk0    : Bool
  pairOk1    : Bool
  pairOk2    : Bool
  /-- health failures before the first seed; three in a row latch the generator (R468, R470) -/
  seedFails  : Nat
  /-- failed PUF attempts; four or more set `PUF_FAIL` (R107) -/
  pufFails   : Nat
  /-- the flash answers commands (R114, verdict missing) -/
  flashAnswers : Bool
  /-- section-table indices whose bytes read wrongly at both clocks (R98) -/
  badReads   : List Nat
  /-- oscillation of the 32.768 kHz crystal (R632) -/
  rtcRunning : Bool
  tj         : Int
  tuning     : List LfMeasure
  /-- TAMPER pins at their active level (R118) -/
  pinActive  : BitVec 4
deriving DecidableEq, Repr

/-- What a wake from Fallow finds (R142): PUF attempts that fail and the supply. -/
structure WakeEnv where
  pufFails : Nat
  vbatMv   : Nat
  tj       : Int
deriving DecidableEq, Repr

/-- One sync word found in a receive window, with the alternating bits before it, its bit errors, and the bytes that follow it
(R325): the length byte, then payload and CRC as received. -/
structure RxTelegram where
  /-- preamble bits received before the sync word -/
  preBits : Nat
  /-- bits of the sync word that differ from `SYNC` -/
  syncErrs : Nat
  lenByte : Byte
  rest    : List Byte
  /-- short time at the end of the sync word (R340) -/
  syncTime : ShortTime
  /-- 0.5 dBm and 100 Hz units -/
  rssi    : BitVec 16
  foff    : BitVec 16
deriving DecidableEq, Repr

/-- What the two ports measure in a ranging exchange (R365, R367). -/
structure RangingEnv where
  /-- payload with CRC of RA and PR as received at RFA and RFB; none when no sync word arrived there -/
  raA : Option (List Byte)
  raB : Option (List Byte)
  prA : Option (List Byte)
  prB : Option (List Byte)
  /-- end of the RA and PR sync words, ns from the due instant (R365, steps 5 and 9) -/
  raSync : Nat
  prSync : Nat
  /-- t_RS and t_RA on the 40 MHz count, ns -/
  tRs : Nat
  tRa : Nat
  /-- tone phases measured on port A and port B, units of 2^-16 turn, 72 each -/
  phaseA : List Int
  phaseB : List Int
  /-- tone levels on port A and port B, 0.5 dBm units, 72 each -/
  levelA : List Int
  levelB : List Int
deriving DecidableEq, Repr

/-- A certificate of R590 with the fields its DER encoding carries: signed bytes, signature, key and validity. -/
structure TesterCert where
  signed    : List Byte
  sig       : List Byte
  modulus   : Nat
  exponent  : Nat
  notBefore : Nat
  notAfter  : Nat
  /-- whole DER length in bytes -/
  derLen    : Nat
deriving DecidableEq, Repr

/-- An RSA-4096 private key in CRT form (R497). -/
structure CrtKey where
  p    : Nat
  q    : Nat
  dP   : Nat
  dQ   : Nat
  qInv : Nat
deriving DecidableEq, Repr

/-- The error conditions that ISO 11898-1 counts (R563): `tx` for the transmitter of the frame, `rx` for a receiver. -/
inductive CanFault where
  /-- an error flag is sent -/
  | tx
  /-- acknowledgement error of an error-passive transmitter that sees no dominant bit while it sends its passive error flag -/
  | txNoAck
  /-- stuff error during arbitration: a recessive stuff bit was seen dominant -/
  | txArbitration
  /-- bit error while an active error flag or an overload flag is sent -/
  | txFlag
  /-- each run of dominant bits beyond the tolerance after a flag -/
  | txDominant
  /-- an error is detected -/
  | rx
  /-- the first bit after the receiver's error flag is dominant -/
  | rxFirstDominant
  /-- bit error while an active error flag or an overload flag is sent -/
  | rxFlag
  /-- each run of dominant bits beyond the tolerance after a flag -/
  | rxDominant
deriving DecidableEq, Repr

/-- The memories whose SECDED words the scrub reads (R611, R620), in the order of `LAST_MEM`. -/
inductive EccMem where
  | ringArrays
  | readOnly
  | otherSystem
  | packet
  | pair
  | checkpoint
  | sec
  | aon
deriving DecidableEq, Repr

/-- The roles a takeover can concern (R603). -/
inductive ActiveRole where
  | a
  | b
deriving DecidableEq, Repr

/-- Fields of AON retention that an uncorrectable word can hold (R130, R611). -/
inductive KeptField where
  | supplyEvents | wakeSources | timeEvents | lastStep | timetableEvents | lfEvents | keyLinkEvents | uhfEvents
  | wrxCounts (wrx : Fin 6)
  | locationEvents | accessEvents | accessLast | accessSession | accessToken | cipherEvents | cipherFaults | hashEvents
  | randomEvents | randomCounts | keyStoreEvents | memoryEvents | memoryHealth | tamperEvents | switchEvents
  | canEvents (can : Fin 2)
  | diagEvents | faultEvents
  | scratch (n : Fin 8)
deriving DecidableEq, Repr

/-- What the scrub finds at a SECDED word (R611, R612): one bit, corrected, or an uncorrectable error with what the word holds. The
pairs' own memories and checkpoint memory have rows of their own. -/
inductive EccFind where
  /-- a single-bit error of a memory -/
  | corrected (mem : EccMem)
  /-- a word of a ring's arrays -/
  | ringArray (ring : Fin 32)
  /-- one copy of a word of a read-only region -/
  | copy
  /-- both copies, which the pair of a role reads -/
  | bothCopies (reader : ActiveRole)
  /-- a word of other system memory, and the operation reading it, if any -/
  | buffer (tag : Option (Fin 512))
  /-- the frame at the head of an egress queue -/
  | frame (port : Fin 9) (cls : Fin 8)
  /-- a volatile key slot, KS56 + n -/
  | slot (n : Fin 8)
  /-- a page's holding buffer -/
  | holding (page : Fin 8)
  /-- the hash context of an operation -/
  | context (tag : Fin 512)
  /-- a field in AON retention -/
  | kept (field : KeptField)
deriving DecidableEq, Repr

/-- Which health test failed (R468, R474). -/
inductive HealthTest where
  | repetition
  | proportion
  | startup
  | knownAnswer
deriving DecidableEq, Repr

/-- How an LF frame's coils and uplink behaved while it ran (R268, R246). `units` are the subcarrier magnitudes of the
unit grid from unit 0, in 0.01 µA; `sat`, `limited` are what the current loops report. -/
structure LfFrameEnv where
  units   : List Nat
  sat     : BitVec 16
  limited : Bool
deriving DecidableEq, Repr

/-- How a pattern ran: channels saturated (R232), converter at its limit (R88). -/
structure PatternEnv where
  sat     : BitVec 16
  limited : Bool
deriving DecidableEq, Repr

/-- A command of the FK-1648: an operation or event of spec/opcode_table.json. -/
inductive Instr where
  -- supply and temperature
  | vbatCrankHoldEntry (mv : Nat)
  | vbatCrankHoldExit (mv : Nat)
  | vioLowShed (mv : Nat)
  | rideThroughEntry (mv vholdMv : Nat)
  | rideThroughExit (mv : Nat)
  | tHoldExpiry
  | vholdBelowVHmin (vholdMv : Nat)
  | vbatPermitDeny (mv : Nat)
  | overvoltageEntry (mv : Nat)
  | overvoltageExit (mv : Nat)
  | thermWarn (tj : Int)
  | thermDerate (tj : Int)
  | thermOff (tj : Int)
  | thermReset (tj : Int)
  | thermResponseWithdraw (tj : Int)
  | spOutputReadback (spaHigh spbLow spaLimit spbLimit : Bool)
  | vdrvConverterStart
  | vdrvConverterStop
  | vdrvWindowTimeout (entry : Fin 256)
  -- resets and start-up
  | powerOnReset (vbatMv vholdMv : Nat)
  | nrstExternalLow (lowNs : Nat)
  | sysResetCmd (page : Fin 8) (word : Word)
  | startUp (env : StartEnv)
  | rngFirstSeed
  | vholdMeasurementComplete (chargeNs : Nat)
  | vholdMeasurementTimeout
  | retainedSettingsWrite (vholdMv : Nat)
  | noPairRetry
  -- power states
  | pwrRequestHeath (page : Fin 8) (key : BitVec 16)
  | pwrRequestFallow (page : Fin 8) (key : BitVec 16)
  | pwrRequestCancel (page : Fin 8) (key : BitVec 16)
  | idleToHeathExpiry
  | enterHeath
  | enterFallow
  | heathToFallowExpiry
  | wakePinEdge (pin : Fin 8) (rising : Bool) (env : WakeEnv)
  | wakeDebounceEnd (pin : Fin 8) (held : Bool)
  | fallowVbatWake (env : WakeEnv)
  -- time
  | syncReceive (dom : Dom) (originNs : Nat) (correction : Int)
  | announceReceive (dom : Dom) (gm : BitVec 64) (steps : BitVec 8) (path : List (BitVec 64))
  | pdelayExchangeComplete (port : Fin 6) (t2 t3 : Nat) (c2 c3 : Int)
  | pdelayRequestTransmit (port : Fin 6)
  | syncReceiptTimeout (dom : Dom)
  | suspectHoldExpiry (dom : Dom)
  | syncTransmit (dom : Dom)
  | holdoverBinLearn (tempC : Int)
  | rtcTrim (cycles ticks : Nat)
  | tpoArm (page : Fin 8) (n : Fin 4) (word : Word)
  | tpoFire (n : Fin 4)
  | timNowLoRead (page : Fin 8)
  -- timetable
  | entryPreparation (entry : Fin 256)
  | entryDue (entry : Fin 256)
  | entryWaitEnd (entry : Fin 256)
  | frameLaunch (entry : Fin 256)
  -- LF
  | lfFrameComplete (entry : Fin 256) (env : LfFrameEnv)
  | scanPatternStart (entry : Fin 256) (env : PatternEnv)
  | scanComplete (entry : Fin 256)
  | pingComplete (entry : Fin 256) (re im : Int)
  | lfChannelShort (ch : Fin 16) (kind : ShortKind)
  | lfChannelRetest (ch : Fin 16) (clean : Bool) (zMag : Nat)
  | roundEnd
  -- UHF
  | rxWindowComplete (entry : Fin 256) (telegrams : List RxTelegram) (peakRssi : BitVec 16)
  | txWindowComplete (entry : Fin 256)
  | rangingComplete (entry : Fin 256) (env : RangingEnv)
  | wrxMatch (n : Fin 6) (chips : BitVec 64)
  | wrxWindowEnd (n : Fin 6)
  | trxSleepTimeout (n : Fin 2)
  | calTemperatureRead (tempC : Int)
  | uhfCalStart (n : Fin 2) (band : Fin 4)
  | uhfCalComplete (n : Fin 2) (failed : BitVec 4)
  | trxLockTimeout (n : Fin 2) (relocked : Bool)
  | uhfCalCmd (page : Fin 8) (word : Word)
  -- access and permit
  | queuedTriggerStart
  | fusion (vholdMv : Nat)
  | wakeFrameRepeat
  | tokenSlot
  | tokenLoss
  | holdExpiry
  | resyncCandidateExpiry (cred : Fin 256)
  -- job engine
  | ringPiWrite (page : Fin 8) (ring : Fin 32) (pi : BitVec 16)
  | ringEnable (page : Fin 8) (ring : Fin 32) (cfg : Word)
  | ringDisable (page : Fin 8) (ring : Fin 32) (cfg : Word)
  | ringCqCiWrite (page : Fin 8) (ring : Fin 32) (ci : BitVec 16)
  | descriptorFetch (ring : Fin 32) (eccError : Bool)
  | operationComplete (tag : Fin 512) (eccError : Bool)
  -- cipher, hash, public key
  | aesBlockJob (tag : Fin 512) (blocks : Nat)
  | aesJobResume (tag : Fin 512) (blocks : Nat)
  | gateJob (tag : Fin 512)
  | cpgGateClear (page : Fin 8) (word : Word)
  | cipherParityError
  | hashJob (tag : Fin 512)
  | rsaVerify (tag : Fin 512)
  | rsaVerifyDigest (tag : Fin 512)
  | attest (tag : Fin 512)
  | certRead (tag : Fin 512)
  | randomFill (tag : Fin 512)
  -- record layer
  | nvmRecordRead (tag : Fin 512)
  | nvmRecordWrite (tag : Fin 512) (vholdMv : Nat) (verify1 verify2 : Bool)
  | ctrRead (tag : Fin 512)
  | ctrInc (tag : Fin 512) (vholdMv : Nat)
  | ctrAdvance (tag : Fin 512) (vholdMv : Nat)
  -- jobs that create timetable entries, and the solver
  | lfFrameJob (tag : Fin 512)
  | uhfExchangeJob (tag : Fin 512)
  | rangingJob (tag : Fin 512)
  | solverJob (tag : Fin 512)
  | frameSendJob (tag : Fin 512)
  -- random generator
  | rngHealthFailure (test : HealthTest)
  | rngRecoveryComplete
  | rngReinstantiationComplete
  | rngReseed
  | rngQueueRefill
  | rngData0Read (page : Fin 8)
  | rngDataHighRead (page : Fin 8) (n : Fin 3)
  -- tamper
  | tamperPinOnset (pin : Fin 4)
  | meshSample (pair : Fin 2) (differs : Bool)
  | supplyGlitch
  | clockMonitorFault
  | temperatureMonitorSample (tj : Int)
  | erasePendingRetry (vholdMv : Nat)
  -- NVM background
  | nvmPreclear (counter : Fin 128) (vholdMv : Nat)
  | nvmRefresh (vholdMv : Nat)
  | nvmRunFreeing (vholdMv : Nat)
  -- switch
  | frameReceive (port : Fin 9) (bytes : List Byte)
  | frameTransmit (port : Fin 9) (cls : Fin 8)
  | linkUp (port : Fin 8) (rate : Fin 5)
  | linkDown (port : Fin 8)
  | addressAgeOut (mac : BitVec 48) (vid : BitVec 12)
  | frerReset (fn : Fin 16)
  | plcaStatusLost (port : Fin 2)
  | plcaBeaconResume (port : Fin 2)
  | swFlowUnblock (page : Fin 8) (word : Word)
  -- CAN
  | canFrameReceive (ctl : Fin 2) (id : BitVec 29) (ext : Bool) (data : List Byte)
  | canTokenTransmit (ctl : Fin 2)
  | canBusOff (ctl : Fin 2)
  | canBusOffRecovery (ctl : Fin 2)
  -- IP
  | arpRequest (port : Fin 9) (senderMac : BitVec 48) (senderIp targetIp : BitVec 32)
  | icmpEchoRequest (srcMac : BitVec 48) (srcIp dstIp : BitVec 32) (ident seq : BitVec 16) (data : List Byte)
  -- SPI
  | spiRegRead (addr : BitVec 24) (len hcrc : BitVec 16)
  | spiRegWrite (addr : BitVec 24) (len hcrc : BitVec 16) (data : List Byte) (dcrc : BitVec 16) (ended : Bool)
  | spiAspPut (addr : BitVec 24) (len hcrc : BitVec 16) (data : List Byte) (dcrc : BitVec 16) (ended : Bool)
  | spiAspGet (addr : BitVec 24) (len hcrc : BitVec 16) (rcrcClocked : Bool)
  -- registers
  | registerWrite (page : Fin 8) (addr : BitVec 24) (word : Word)
  | sysLockSet (page : Fin 8) (word : Word)
  | sysAspGateWrite (page : Fin 8) (word : Word)
  -- ASP
  | aspOpen (page : Fin 8)
  | aspClose (page : Fin 8)
  | aspRegRead (page : Fin 8)
  | aspRegWrite (page : Fin 8)
  | aspWinRead (page : Fin 8)
  | aspWinWrite (page : Fin 8)
  | aspRingSubmit (page : Fin 8)
  | aspRingCollect (page : Fin 8)
  | aspSubscribe (page : Fin 8)
  | aspEvent (page : Fin 8) (cls : Fin 19)
  | aspPower (page : Fin 8)
  | aspReset (page : Fin 8)
  | aspUhfCal (page : Fin 8)
  | aspEngineRunning (page : Fin 8)
  | aspPermitEnd (page : Fin 8)
  | aspOverrideCarrier (page : Fin 8)
  | aspOverrideWindowPlan (page : Fin 8)
  | aspOverrideTelegram (page : Fin 8)
  | aspOverrideRanging (page : Fin 8)
  | aspRevert (page : Fin 8)
  -- UDS; conn 0 and 1 are the DoIP connections, 2 is CAN
  | defaultSession (conn : Fin 3)
  | programmingSession (conn : Fin 3)
  | extendedSession (conn : Fin 3)
  | ecuReset (conn : Fin 3)
  | clearDiagnosticInformation (conn : Fin 3) (group : BitVec 24)
  | reportNumberOfDtcByStatusMask (conn : Fin 3) (mask : Byte)
  | reportDtcByStatusMask (conn : Fin 3) (mask : Byte)
  | reportSupportedDtc (conn : Fin 3)
  | readDataByIdentifier (conn : Fin 3) (dids : List (BitVec 16))
  | deAuthenticate (conn : Fin 3)
  | verifyCertificateUnidirectional (conn : Fin 3) (config : Byte) (chain : List TesterCert)
  | proofOfOwnership (conn : Fin 3) (sig : List Byte)
  | authenticationConfiguration (conn : Fin 3)
  | authLockoutExpiry
  | s3ServerTimeout (conn : Fin 3)
  | testerPresent (conn : Fin 3) (suppress : Bool)
  | unsupportedService (conn : Fin 3) (sid : Byte)
  | routineResults (conn : Fin 3) (rid : BitVec 16)
  | verifyImage (conn : Fin 3) (flashAnswers : Bool)
  | learnKey (conn : Fin 3) (record : List Byte) (kTag : List Byte) (lock : Byte)
  | credState (conn : Fin 3) (index : Fin 256) (state : Byte)
  | writeProfile (conn : Fin 3) (record : List Byte)
  | slotWrite (conn : Fin 3) (slot : Fin 64) (attr : Word) (gen : BitVec 16) (key : List Byte)
  | slotGenerate (conn : Fin 3) (slot : Fin 64) (attr : Word) (gen : BitVec 16)
  | slotErase (conn : Fin 3) (slot : Fin 64) (gen : BitVec 16)
  | identityWrite (conn : Fin 3) (key : CrtKey) (cert : List Byte)
  | lcTransition (conn : Fin 3) (target : Byte)
  | debugSeal (conn : Fin 3)
  | tamperClear (conn : Fin 3)
  | tagInventory (conn : Fin 3)
  | tagRead (conn : Fin 3) (id : BitVec 64) (page : Byte)
  | tagWrite (conn : Fin 3) (id : BitVec 64) (page : Byte) (data : List Byte)
  | tagLock (conn : Fin 3) (id : BitVec 64) (page : Byte)
  | requestDownload (conn : Fin 3) (format addrLen : Byte) (addr size : BitVec 32)
  | transferData (conn : Fin 3) (block : Byte) (data : List Byte) (verified : Bool)
  | requestTransferExit (conn : Fin 3)
  -- DoIP
  | routingActivation (conn : Fin 2) (tester : BitVec 16) (kind : Byte)
  | vehicleIdentificationRequest
  | aliveCheck (conn : Fin 2)
  | entityStatusRequest
  | powerModeInformationRequest
  | doipConnectionClose (conn : Fin 2)
  | nCrTimeout
  -- processing pairs and memories
  | checkpointWrite (role : ActiveRole)
  | lockstepMismatch (role : ActiveRole) (delayNs : Nat)
  | pairMemoryError (role : ActiveRole) (offset : BitVec 24) (delayNs : Nat)
  | pairBWatchdog (delayNs : Nat)
  | pairAWatchdog
  | checkpointMemoryError (offset : BitVec 24)
  | spareSelfTestFail
  | retestComplete (passed : Bool)
  | eccScrub (find : EccFind) (offset : BitVec 24)
  -- further supply, LF, tamper and network events
  | vbatBelowVRteInHeath (mv : Nat)
  | ledgerEnd (vbatMv vholdMv : Nat)
  | lfChannelOpen (ch : Fin 16) (coilMa settingMa : Nat)
  | tamperConditionEnd (source : Fin 7) (absentNs : Nat)
  | canBusError (ctl : Fin 2) (fault : CanFault)
  | announceTransmit (dom : Dom)
  | pdelayRequestReceive (port : Fin 8) (instanceSpecific : Bool) (domain : BitVec 8)
  | tpoPulseEnd (n : Fin 4)
  | vdrvWindowReached (entry : Fin 256)
  | vehicleAnnouncement
deriving DecidableEq, Repr

end Sys2Proof
end

