-- ==== Sys2Proof/Config.lean ====
section
/-! DEFINITION. What an implementation of the FK-1648 fixes and the spec leaves open: fused and ROM constants, the exact
thresholds inside their stated ranges, and the free values. An `opaque` constant has no body: nothing can prove a value
of it. -/

namespace Sys2Proof.Config

/-- Offset of the exact threshold above the stated minimum, in mV (R64: V_OVE 41.0 to 42.0 V). DESIGN CHOICE (log 4):
each device has one exact value within min..max. -/
opaque offOve : Fin 1001
/-- V_OVX 40.1 to 40.9 V (R64). -/
opaque offOvx : Fin 801
/-- V_CHX 6.10 to 6.30 V (R64). -/
opaque offChx : Fin 201
/-- V_CHE 5.80 to 6.00 V (R64). -/
opaque offChe : Fin 201
/-- V_RTX 3.10 to 3.30 V (R64). -/
opaque offRtx : Fin 201
/-- V_RTE 2.80 to 3.00 V (R64). -/
opaque offRte : Fin 201
/-- V_PD 2.40 to 2.50 V (R64). -/
opaque offPd : Fin 101
/-- V_HMIN 3.90 to 4.10 V (R64). -/
opaque offHmin : Fin 201

/-- V_OVE in mV (R64). -/
def vOve : Nat := 41000 + offOve.val
/-- V_OVX in mV (R64). -/
def vOvx : Nat := 40100 + offOvx.val
/-- V_CHX in mV (R64). -/
def vChx : Nat := 6100 + offChx.val
/-- V_CHE in mV (R64). -/
def vChe : Nat := 5800 + offChe.val
/-- V_RTX in mV (R64). -/
def vRtx : Nat := 3100 + offRtx.val
/-- V_RTE in mV (R64). -/
def vRte : Nat := 2800 + offRte.val
/-- V_PD in mV (R64). -/
def vPd : Nat := 2400 + offPd.val
/-- V_HMIN in mV (R64). -/
def vHmin : Nat := 3900 + offHmin.val

/-- Code of the DTC that T_WARN raises: R92 names none. -/
opaque thermDtc : BitVec 24
/-- ROM revision (R624), fused per device. -/
opaque romRev : BitVec 16
/-- The 8-byte device unique identifier, byte 0 least significant (R624). -/
opaque uid : BitVec 64
/-- Moduli and exponents of the two Halulo root public keys in ROM (R111). -/
opaque prodRootModulus : Nat
opaque prodRootExp : Nat
opaque testRootModulus : Nat
opaque testRootExp : Nat
/-- The fixed test root of BLANK (R480). -/
opaque testRoot : BitVec 256
/-- The retained-settings key of a root (R119); the spec gives no derivation. -/
opaque settingsKey : BitVec 256 → BitVec 256
/-- The wrapped form of a key-slot record's key under its class key (R492); the spec gives no algorithm. -/
opaque wrapKey : BitVec 256 → BitVec 256 → List Byte
/-- The wrapped form of a class key or the identity under the root (R492, R497). -/
opaque wrapRoot : BitVec 256 → Nat → List Byte
/-- The helper data of an enrolled secret (R478); it occupies two records. -/
opaque helperData : BitVec 256 → Fin 2 → List Byte
/-- IMAGE_ID under retained settings (R597): the retained set carries none (R119); 0 under built-in defaults is not stated
either. Applied to the staged bytes. -/
opaque retainedImageId : List Byte → BitVec 64
/-- Time to live and identification of the IPv4 packets the device sends: the spec names neither (R585). -/
opaque ipTtl : BitVec 8
opaque ipIdent : Nat → BitVec 16
/-- Bytes of a tamper log entry that nothing has written, as its data identifier answers them (R597): not stated. -/
opaque emptyLogEntry : BitVec 128
/-- Output of the random generator: the n-th 128-bit word it gives (R459). FREE VALUE (log 5). -/
opaque rngWord : Nat → BitVec 128
/-- Result of a 2 µs to 10 µs low on NRST: a reset or nothing (R51). FREE VALUE (log 6), applied to a plain counter. -/
opaque nrstShort : Nat → Bool
/-- The clockIdentity of this time-aware system in its Announce messages (R159): the spec gives none. -/
opaque clockId : BitVec 64
/-- The solver's position when a Q16.16 intermediate saturates: R355 leaves it open (log 17). FREE VALUE, applied to the
job's data and the axis. -/
opaque solverOpen : List Byte → Nat → Int

end Sys2Proof.Config
end

