-- ==== Sys2Proof/Machine/State.lean ====
section
/-! DEFINITION. The state of the FK-1648 as plain data, its faults and refusals, and the state right after reset. Each
field's docstring says: width; rule; reset value; note. Times called `at`/`until` are in 1/64 ns of `elapsed`. -/

namespace Sys2Proof.Machine

/-- Why the machine stops. -/
inductive Fault where
  /-- VBAT beyond the absolute maximum of 45 V (R65: operation is not implied); raised by every command that carries
  VBAT. Safe: the machine stops where the hardware may go on. DESIGN CHOICE, log 34. -/
  | overstress
deriving DecidableEq, Repr

/-- Why a command has no meaning. -/
inductive Refusal where
  /-- A command the model has not reached, by its mnemonic. Safe. -/
  | notModelled (mnemonic : String)
deriving DecidableEq, Repr

/-- The status codes of R432. -/
inductive Status where
  | ok | late | ringFull | notReady | lowEnergy | timeout | keyGone | entropyFail | tamper | tagMismatch | locked
  | conflicted | noField | collision | frameError | crcError | badEntry | badTime | tableFull | channelFault | noFix
  | multipath | inconsistent | unknownKey | replayed | outOfZone | tooFar | disagree | noKey | badDesc | denied
  | eccError | fault | addrError
deriving DecidableEq, Repr

/-- The supply regions, in the code order of SUPPLY_REGION (R95). -/
inductive Region where
  | full | crank | ride | overvolt
deriving DecidableEq, Repr

/-- The power state, start-up included (R127, R97). `waitNoPair` is the hold of R605 with no pair. -/
inductive PowerState where
  | startUp | waitNoPair | run | heath | fallow
deriving DecidableEq, Repr

/-- Reset kinds (R146), code = index + 1. -/
inductive ResetKind where
  | pon | bor | wfr | hcr | tmr | lcr
deriving DecidableEq, Repr

/-- Life-cycle states (R481), code = index. -/
inductive LifeCycle where
  | blank | factory | field | retn
deriving DecidableEq, Repr

/-- Supply front end and temperature. -/
structure Supply where
  /-- 2 bits; 03 R67, R95; full. Supply region -/
  region : Region
  /-- mV; 03 R64; 12000 (DESIGN CHOICE, log 8). VBAT as last seen -/
  vbat : Nat
  /-- mV; 03 R77; 15000 (DESIGN CHOICE, log 8). VHOLD as last seen -/
  vhold : Nat
  /-- 7 bits; 03 R95; 0. PWR_SUPPLY_STAT [14:8]: CRANK, RIDE, VBAT_DENY, OV, THERM_WARN, THERM_DERATE, THERM_OFF -/
  evt : BitVec 7
  /-- 1 bit; 03 R95; false. VHOLD_LOW -/
  vholdLow : Bool
  /-- 8 bits; 03 R95; 0. VHOLD_CAP, 2 µF units -/
  vholdCap : Nat
  /-- 1 bit; 04 R103; false. The measurement has completed or failed; it defines t_hold -/
  measured : Bool
  /-- ns; 03 R77; 0. t_hold -/
  tHoldNs : Nat
  /-- time; 03 R77; none. End of the present ride-through's t_hold -/
  rideUntil : Option Nat
  /-- time; 04 R105; none. 500 ms limit of the VHOLD measurement -/
  measureUntil : Option Nat
  /-- °C; 03 R92, R95; −64, at which TJ reads 0. Highest junction reading -/
  tj : Int
  /-- 1 bit; 03 R92; false. T_WARN response applied -/
  thermWarn : Bool
  /-- 1 bit; 03 R92; false. T_DER response applied -/
  thermDer : Bool
  /-- 1 bit; 03 R92; false. T_OFF response applied -/
  thermOff : Bool
  /-- 9 bits; 03 R68; 0. Ports shed in crank hold -/
  shedCrank : BitVec 9
  /-- 9 bits; 03 R92; 0. Ports shed by temperature -/
  shedTherm : BitVec 9
  /-- 9 bits; 03 R70; 0. P0 and P1 shed by VIO -/
  shedVio : BitVec 9
  /-- 1 bit; 03 R67; false. VDRV converter running -/
  vdrvOn : Bool
  /-- 0.1 V; 03 R96; 0. VDRV_SET, setpoint in use -/
  vdrvSet : Nat
  /-- 0.1 V; 03 R85, R96; 0. VDRV at the converter's start, which VDRV_MEAS reads until the window is reached -/
  vdrvMeas : Nat
  /-- time; 03 R85; 0. Instant from which VDRV lies inside its window, by the start-up bound -/
  vdrvReadyAt : Nat
  /-- 1/1024; 03 R96; 1024. LF_SCALE -/
  lfScale : Nat
  /-- 1 bit; 03 R96; false. VDRV_LIMIT -/
  vdrvLimit : Bool
  /-- time; 03 R86; none. Stop of the converter 1 ms after its last action -/
  vdrvStopAt : Option Nat
  /-- 1 bit; 03 R94; false. SPA_FAULT -/
  spaFault : Bool
  /-- 1 bit; 03 R94; false. SPB_FAULT -/
  spbFault : Bool
deriving DecidableEq, Repr

/-- The permit latch and its pins. -/
structure Permit where
  /-- 1 bit; 01 R34; false. Permit latch: true is permit -/
  latch : Bool
  /-- 1 bit; 01 R34; false. SP_A driven high -/
  spA : Bool
  /-- 1 bit; 01 R34; false. SP_B driven low -/
  spB : Bool
  /-- 1 bit; 03 R81; false. VBAT has been below V_PD and not yet above V_RTX: the re-grant of R82 is awaited -/
  pdDenied : Bool
  /-- 1 bit; 03 R81; false. VBAT is below V_PD: the supervisor holds the latch in deny -/
  pdBelow : Bool
  /-- time; 13 R398; 0. Instant of the grant or the last token generated, for t_tokloss -/
  tokenAt : Nat
  /-- cycle of 25 ns; 01 R35; none. Cycle of the latest deny that a cause without a level gave -/
  denyAt : Option Nat
deriving DecidableEq, Repr

/-- Power states and wakes. -/
structure Pwr where
  /-- 3 bits; 05 R127; startUp. Power state -/
  st : PowerState
  /-- 2 bits; 05 R151; 0. WOKE_FROM -/
  wokeFrom : Nat
  /-- 2 bits; 05 R151; 0. REQ_PENDING -/
  req : Nat
  /-- 1 bit; 05 R151; false. FALLOW_DENIED -/
  fallowDenied : Bool
  /-- 14 bits; 05 R153; 0. PWR_WAKE_SRC -/
  wakeSrc : BitVec 14
  /-- 8 bits; 05 R131; 0. Wake sources at present asserted (WAKE pins) -/
  wakePins : BitVec 8
  /-- pin, time, count; 05 R139; []. Edges under debounce, their end, and the failed PUF attempts a wake from Fallow finds -/
  debounce : List (Nat × Nat × Nat)
  /-- 8 × 48 bits; 01 R46; zeros. Short time of the latest edge on each WAKE pin -/
  edgeAt : Vector (BitVec 48) 8
  /-- time; 05 R136; 0. Last access sequence, host request or frame on P8 -/
  idleSince : Nat
  /-- time; 05 R135; 0. Entry to Heath or its last event -/
  heathSince : Nat
deriving DecidableEq, Repr

/-- Start-up outcome. -/
structure Boot where
  /-- 3 bits; 04 R125; 0. RESET_KIND code, latched by step 1 -/
  kind : Nat
  /-- reset kinds; 05 R147; [pon]. Kinds coincident in the present start-up -/
  kinds : List ResetKind
  /-- 4 bits; 04 R125; 1. BOOT_STEP -/
  step : Nat
  /-- 4 bits; 04 R125; 0. IMG_VERDICT -/
  verdict : Nat
  /-- 2 bits; 04 R125; 0. SETTINGS_SRC -/
  src : Nat
  /-- 1 bit; 04 R125; false. PUF_FAIL -/
  pufFail : Bool
  /-- 1 bit; 04 R125; false. RETAINED_BAD -/
  retBad : Bool
  /-- 1 bit; 04 R125; false. SETTINGS_WRITE_PENDING -/
  swp : Bool
  /-- 1 bit; 04 R125; false. NVM_WRITE_READY -/
  nvmReady : Bool
  /-- 1 bit; 04 R125; false. READY -/
  ready : Bool
  /-- 1 bit; 04 R125; false. RNG_READY -/
  rngReady : Bool
  /-- 16 bits; 04 R126; 0. SEC_VERSION in force -/
  secVersion : Nat
  /-- 16 bits; 04 R126; 0. KEY_VERSION in force -/
  keyVersion : Nat
  /-- 64 bytes; 04 R126; zeros. IMAGE_DIGEST in force -/
  digest : List Byte
  /-- 8 bytes; 04 R110; zeros. IMAGE_ID of the settings in force -/
  imageId : List Byte
  /-- time; 05 R605 R604; none. Next repetition of start-up with no pair -/
  retryAt : Option Nat
  /-- bytes; 04 R119, R121; []. Staged settings of an accepted image whose retained write is pending -/
  staged : List Byte
  /-- 32 bits; 04 R110; 0. MAKER_ID of that image -/
  maker : Nat
  /-- count; 04 R121; none. Payload records of that set written, none when no set is to be written -/
  swNext : Option Nat
deriving DecidableEq, Repr

/-- The settings in force: the bytes of each section (R112), empty when the section is absent or under defaults. -/
structure Settings where
  /-- bytes; 08 R236; empty. ANTENNA -/
  antenna : List Byte
  /-- bytes; 12 R359; empty. ZONES -/
  zones : List Byte
  /-- bytes; 07 R195; empty. TIMETABLE -/
  timetable : List Byte
  /-- bytes; 09 R276; empty. KEYLINK -/
  keylink : List Byte
  /-- bytes; 11 R338; empty. RADIO -/
  radio : List Byte
  /-- bytes; 12 R362; empty. RANGING -/
  ranging : List Byte
  /-- bytes; 19 R564; empty. NETWORK -/
  network : List Byte
  /-- bytes; 06 R163; empty. TIME -/
  time : List Byte
  /-- bytes; 20 R598; empty. DIAG -/
  diag : List Byte
  /-- bytes; 05 R136, 17 R501; empty. POLICY -/
  policy : List Byte
deriving DecidableEq, Repr

/-- ASP overrides in force and waiting (R582, R43). -/
structure Overrides where
  /-- 14 bits; 20 R582; none. LF carrier -/
  carrier : Option Nat
  /-- plan index and bytes; 20 R582; []. Window plans replaced -/
  windows : List (Nat × List Byte)
  /-- block index and bytes; 20 R582; []. Telegram blocks replaced -/
  telegrams : List (Nat × List Byte)
  /-- 11 bytes; 20 R582; none. Bytes 9 to 19 of RANGING replaced -/
  ranging : Option (List Byte)
  /-- override kind and data; 01 R43; []. Overrides waiting for the sequence's end -/
  waiting : List (Nat × List Byte)
deriving DecidableEq, Repr

/-- Clock modes (R157), code = index. -/
inductive ClockMode where
  | free | following | holdover | master
deriving DecidableEq, Repr

/-- Domain states (R170), code = index. -/
inductive DomState where
  | off | acquiring | locked | suspect | rerouted | lost
deriving DecidableEq, Repr

/-- A Sync with its Follow_Up as it leaves a master port (R159). -/
structure SyncMsg where
  /-- 0 to 7; 06 R162. Port -/
  port : Nat
  /-- ns; 06 R159. preciseOriginTimestamp -/
  origin : Nat
  /-- 2^-16 ns; 06 R162. correctionField -/
  corr : Int
  /-- ns; 06 R164. Egress timestamp on the local clock -/
  egress : Int
deriving DecidableEq, Repr

/-- An Announce as it leaves a master port (R159). -/
structure AnnounceMsg where
  /-- 0 to 7; 06 R162. Port -/
  port : Nat
  /-- 64 bits; 06 R159. grandmasterIdentity -/
  gm : BitVec 64
  /-- 16 bits; 06 R159. stepsRemoved -/
  steps : Nat
  /-- list of 64 bits; 06 R159. Path trace, this system's identity appended -/
  path : List (BitVec 64)
deriving DecidableEq, Repr

/-- One gPTP domain. -/
structure Domain where
  /-- 3 bits; 06 R170; off. STATE -/
  st : DomState
  /-- 1 bit; 06 R191; false. GM_SEEN -/
  gmSeen : Bool
  /-- 64 bits; 06 R159; 0. Grandmaster identity of the last Announce -/
  gm : BitVec 64
  /-- 8 bits; 06 R191; 0. STEPS_REMOVED -/
  steps : Nat
  /-- list of 64 bits; 06 R173; []. Path trace of the last Announce -/
  path : List (BitVec 64)
  /-- ns; 06 R191; 0. Last offset o -/
  offset : Int
  /-- ns, newest first; 06 R169, R174; []. Latest offsets, at most 8 -/
  hist : List Int
  /-- count; 06 R169; 0. Consecutive offsets outside 4 × LOCK_THRESH -/
  outCount : Nat
  /-- count; 06 R174; 0. Syncs since the trigger of SUSPECT -/
  sinceTrigger : Nat
  /-- ns; 06 R174; none. 8 × Δ_before -/
  before : Option Int
  /-- ns; 06 R174; []. Δ over Syncs 2 to 9 after the trigger -/
  after : List Int
  /-- 1 bit; 06 R174; false. The other domain was not LOCKED at some Sync of the span -/
  noVerdict : Bool
  /-- count; 06 R174; 0. Offsets of the other domain since Sync 1 after the trigger -/
  otherN : Nat
  /-- 1 bit; 06 R171; false. ACQUIRING after a grandmaster change -/
  gmNew : Bool
  /-- count; 06 R175; 0. Consecutive Syncs with Δ back within XCHECK_LIMIT -/
  backCount : Nat
  /-- time; 06 R170; 0. Last Sync, or the entry to ACQUIRING -/
  syncAt : Nat
  /-- time; 06 R174; none. End of SUSPECT_HOLD -/
  suspectUntil : Option Nat
  /-- time; 06 R171; none. Start of the present uninterrupted LOCKED span -/
  lockedSince : Option Nat
  /-- ns, 2^-16 ns, ns; 06 R162; none. Origin and correction of the last Sync, and its ingress on the local clock: what a bridge relays -/
  last : Option (Nat × Int × Int)
  /-- count; 06 R159; 0. Sync messages sent on the master ports -/
  syncSent : Nat
  /-- count; 06 R159; 0. Announce messages sent on the master ports -/
  annSent : Nat
  /-- messages; 06 R159, R164; []. Sync with its Follow_Up as last sent on each master port -/
  syncOut : List SyncMsg
  /-- messages; 06 R159; []. Announce as last sent on each master port -/
  annOut : List AnnounceMsg
deriving DecidableEq, Repr

/-- One timer pulse output (R193). -/
structure Tpo where
  /-- 1 bit; 06 R193; false. EN -/
  en : Bool
  /-- 1 bit; 06 R206; false. EN was set by a kind 9 entry -/
  byEntry : Bool
  /-- 1 bit; 06 R193; false. PERIODIC -/
  periodic : Bool
  /-- 1 bit; 06 R193; false. POL -/
  pol : Bool
  /-- 1 bit; 06 R193; false. LATE -/
  late : Bool
  /-- 1 bit; 06 R193; false. ERR -/
  err : Bool
  /-- 24 bits; 06 R193; 1. WIDTH, 8 ns units -/
  width : Nat
  /-- 48 bits; 06 R193; 0. Target short time -/
  target : BitVec 48
  /-- 32 bits; 06 R193; 1000. PERIOD, ns -/
  period : Nat
  /-- time; 06 R183; none. The output is active until this instant -/
  activeUntil : Option Nat
deriving DecidableEq, Repr

/-- Link-delay state of a port (R159, R173). -/
structure PortTime where
  /-- ns; 06 R159; 0. Mean link delay -/
  delay : Int
  /-- ns, newest first; 06 R173; []. Latest results, at most 8 -/
  hist : List Int
  /-- 2^-32; 06 R159; 2^32. neighborRateRatio -/
  ratio : Nat
  /-- 1 bit; 06 R159; false. asCapable -/
  capable : Bool
  /-- 2^-16 ns of the peer, ns of the own clock; 06 R159; none. t3 and t4 of the previous exchange -/
  prev : Option (Int × Int)
  /-- ns; 06 R159, R164; none. Egress timestamp t1 of the Pdelay_Req that awaits its exchange -/
  t1 : Option Int
  /-- ns; 06 R159, R164; none. Ingress of the last Pdelay_Req answered and egress of its Pdelay_Resp -/
  resp : Option (Int × Int)
  /-- count; 06 R159; 0. Pdelay_Req messages sent -/
  reqSent : Nat
  /-- count; 06 R159; 0. Pdelay responses sent -/
  respSent : Nat
deriving DecidableEq, Repr

/-- The local clock and the time block. -/
structure Clock where
  /-- 48 bits; 06 R156; 0. Seconds -/
  sec : Nat
  /-- 32 bits; 06 R156; 0. Nanoseconds -/
  ns : Nat
  /-- 48 bits; 06 R156; 0. Fraction of a nanosecond -/
  frac : Nat
  /-- 2 bits; 06 R157; free. MODE -/
  mode : ClockMode
  /-- domain; 06 R171; none. Selected domain -/
  sel : Option Dom
  /-- 1 bit; 06 R188; false. STALE -/
  stale : Bool
  /-- 1 bit; 06 R188; false. FREQ_SAT -/
  freqSat : Bool
  /-- s32, 2^-16 ppb; 06 R166; 0. Frequency adjust -/
  freqAdj : Int
  /-- s48, ns; 06 R166; 0. Accumulated offset s -/
  acc : Int
  /-- °C and 2^-16 ppb; 06 R178; []. Learned bins of the holdover table -/
  table : List (Int × Int)
  /-- °C, time, 2^-16 ppb, count; 06 R178; none. Bin being learned, since when, and the adjusts summed -/
  learning : Option (Int × Nat × Int × Nat)
  /-- 2^-16 ns; 06 R180; none. Tick increment, none until set since PON -/
  tickInc : Option Nat
  /-- cycles, ticks; 06 R180; none. Last measured ratio of 40 MHz cycles to RTC ticks -/
  ratio : Option (Nat × Nat)
  /-- cycles; 06 R180; 0. Accumulated span of 40 MHz cycles -/
  trimCycles : Nat
  /-- ticks; 06 R180; 0. Accumulated span of RTC ticks -/
  trimTicks : Nat
  /-- 1 bit; 06 R632; false. 32.768 kHz oscillator running -/
  rtcRunning : Bool
  /-- 1 bit; 04 R97; false. Step 3 reached: the 40 MHz reference drives the clock -/
  xo40 : Bool
  /-- domain; 06 R170. Primary domain -/
  pri : Domain
  /-- domain; 06 R170. Redundant domain -/
  red : Domain
  /-- 9 bits; 06 R192; 0. TIM_EVT -/
  evt : BitVec 9
  /-- s32 saturating; 06 R192; 0. TIM_LAST_STEP -/
  lastStep : Int
  /-- 16 bits; 06 R189; 0. TIM_NOW_HI latch -/
  nowHi : BitVec 16
  /-- 4 outputs; 06 R193. TPO0 to TPO3 -/
  tpo : Vector Tpo 4
  /-- 6 ports; 06 R159. P0 to P5 -/
  ports : Vector PortTime 6
deriving DecidableEq, Repr

/-- States of a timetable entry (R224). -/
inductive EntryState where
  | pending | waiting | preparing | running | suspended
deriving DecidableEq, Repr

/-- Who takes an entry's result. -/
inductive Owner where
  | settings | job (tag : Nat) | follow (pattern : Nat) | access | token
deriving DecidableEq, Repr

/-- One timetable entry (R195, R226). -/
structure Entry where
  /-- 4 bits; 07 R196; KIND -/
  kind : Nat
  /-- 1 bit; 07 R195; PERIODIC -/
  periodic : Bool
  /-- 1 bit; 07 R195; RUN -/
  run : Bool
  /-- 1 bit; 07 R195; HEATH -/
  heath : Bool
  /-- 2 bits; 07 R195; CATCHUP -/
  catchup : Nat
  /-- 2 bits; 07 R195; PRIO -/
  prio : Nat
  /-- 8 bits; 07 R195; UNIT -/
  unit : Nat
  /-- 32 bits; 07 R195; ACTION_REF -/
  ref : Nat
  /-- ns; 07 R195; PHASE -/
  phase : Nat
  /-- µs; 07 R195; PERIOD -/
  period : Nat
  /-- µs; 07 R195; MIN_PERIOD -/
  minPeriod : Nat
  /-- 32 bits; 07 R195; COUNT -/
  count : Nat
  /-- page; 07 R224; CPG of a run-time entry -/
  page : Nat
  /-- owner; 07 R200; who takes the result -/
  owner : Owner
  /-- bytes; 07 R195; run-time action block -/
  block : List Byte
  /-- state; 07 R224; STATE -/
  st : EntryState
  /-- 48 bits; 07 R225; next due instant -/
  due : BitVec 48
  /-- 48 bits; 07 R209; grid instant of the pending occurrence -/
  grid : BitVec 48
  /-- 48 bits; 07 R212; start of the latest occurrence -/
  start : BitVec 48
  /-- 1 bit; 07 R205; the present occurrence is late -/
  late : Bool
  /-- 1 bit; 07 R212; an occurrence has started since the settings were established -/
  ran : Bool
  /-- time; 07 R196; earliest end of the running action -/
  endAt : Nat
  /-- count; 07 R226; LATE_COUNT -/
  lateCount : Nat
  /-- count; 07 R226; PASSED_COUNT -/
  passed : Nat
  /-- ns; 07 R226; LAG -/
  lag : Nat
  /-- count; 07 R226; REMAIN -/
  remain : Nat
  /-- time; 03 R87; end of the 2 ms hold for VDRV -/
  holdUntil : Option Nat
  /-- bytes; 08 R246; records of the patterns run -/
  recs : List Byte
  /-- count; 08 R245; patterns run -/
  pats : Nat
  /-- flags; 11 R340, R341; calibration in preparation, lock retry -/
  flags : Nat
  /-- 16 bits; 09 R278; DROPPED at frame start -/
  dropped : BitVec 16
  /-- 1/1024; 08 R234; k at the start -/
  k : Nat
  /-- 16 bits; 08 R232, R250; channels without the headroom of R232 at the start -/
  sat : BitVec 16
  /-- status; 03 R89; the action ends with it at its next boundary -/
  cut : Option Status
  /-- ns; 07 R216; full count of the local clock when the entry was suspended -/
  susp : Option Nat
  /-- 1 bit; 07 R203, R207; the entry has prepared, so it keeps its resources while it waits -/
  claim : Bool
  /-- ns; 07 R212, R215; sum of the clock's steps since the running action started, none without a step -/
  sig : Option Int
deriving DecidableEq, Repr

/-- The Burin timetable. -/
structure Tt where
  /-- 256 entries; 07 R194; all free -/
  entries : Vector (Option Entry) 256
  /-- count; 07 R221; 0. Entries from the settings in force -/
  nSettings : Nat
  /-- 5 bits; 07 R222; 0. TT_EVT -/
  evt : BitVec 5
  /-- 1 bit; 04 R97; false. Burin executes entries (step 14) -/
  exec : Bool
deriving DecidableEq, Repr

/-- Results of tuning, in code order of RESULT (R260). -/
inductive TuneResult where
  | unmapped | ok | detuned | open | shortGnd | shortSupply | shortCoil
deriving DecidableEq, Repr

/-- Modes of a mapped channel (R228). -/
inductive ChMode where
  | off | drive | downlink | listen | sense | ring
deriving DecidableEq, Repr

/-- One LF channel (R260). -/
structure Channel where
  /-- 3 bits; 08 R228; off. Mode -/
  mode : ChMode
  /-- 3 bits; 08 R260; unmapped. RESULT -/
  result : TuneResult
  /-- 2 bits; 08 R260; 0. REV_STATE: 0 as mapped, 1 reversed, 2 unchecked, 3 anchor -/
  rev : Nat
  /-- 1 bit; 08 R242; false. rev of R242, the anchor's included -/
  revBit : Bool
  /-- Hz; 08 R260; 0. Resonance -/
  fRes : Nat
  /-- 0.25; 08 R260; 0. Q -/
  q : Nat
  /-- µΩ; 08 R241; 0. Rloop, real part of Z -/
  rloop : Nat
  /-- µΩ; 08 R241; 0. |Z| -/
  zmag : Nat
  /-- 1.40625°; 08 R260; 0. Phase of Z -/
  zphase : Int
  /-- 3 bits; 08 R260; 0. STATE: 0 unmapped, 1 in service, 2 excluded by fault, 3 by TUNE_STRICT -/
  st : Nat
  /-- 3 bits; 08 R260; 0. LAST_FAULT -/
  lastFault : Nat
  /-- 8 bits; 08 R260; 0. FAULT_COUNT -/
  faults : Nat
  /-- PING_I/32768; 08 R252; none. Ping baseline, real and imaginary part -/
  base : Option (Int × Int)
  /-- same; 08 R253; none. Measurement that started a full poll -/
  trigger : Option (Int × Int)
  /-- 1 bit; 08 R255; false. A retest is due -/
  retest : Bool
  /-- time; 08 R255; 0. No retest before this instant -/
  retestAfter : Nat
  /-- 1 bit; 08 R256; false. DTC held until Run -/
  dtcHeld : Bool
deriving DecidableEq, Repr

/-- A channel being driven (R228, R231, R232). -/
structure Driven where
  /-- 0 to 15; 08 R240 -/
  ch : Nat
  /-- 1.40625°; 08 R231; phase with the reversal applied -/
  phase : Nat
  /-- µA peak; 08 R232, R233; k × I_FS × A / 1,023 -/
  ua : Nat
deriving DecidableEq, Repr

/-- LF drive. -/
structure Lf where
  /-- 1 bit; 08 R259; false. LF_TUNED -/
  tuned : Bool
  /-- 1 bit; 08 R259; false. ANCHOR_INV -/
  anchorInv : Bool
  /-- 14 bits; 08 R259; 12500. CARRIER in use, 10 Hz units -/
  carrier : Nat
  /-- 7 bits; 08 R259; 0. LF_EVT -/
  evt : BitVec 7
  /-- 16 channels; 08 R228, R260. -/
  ch : Vector Channel 16
  /-- currents; 08 R231, R232; []. Phases and currents of the latest frame, pattern or ping -/
  drive : List Driven
  /-- bytes; 09 R276; []. Last downlink frame sent: TYPE, payload, CRC -/
  lastFrame : List Byte
  /-- periods; 09 R262; []. Starts of the commanded pauses of that frame, from its first slot; each lasts t_pause -/
  pauses : List Nat
  /-- 40 MHz time; 08 R255; 0. Retests that are due keep the LF drive until this instant -/
  retestUntil : Nat
  /-- 1 bit; 10 R280; false. A round holds the LF drive -/
  round : Bool
  /-- short time; 10 R280; 0. Instant at which the round's next frame is due -/
  roundDue : BitVec 48
deriving DecidableEq, Repr

/-- Key-link registers (R626). -/
structure Kl where
  /-- 4 bits; 22 R626; 0. KL_EVT -/
  evt : BitVec 4
  /-- 16 bits; 22 R626; 0. FRAMES -/
  frames : Nat
  /-- 16 bits; 22 R626; 0. REPLIES -/
  replies : Nat
deriving DecidableEq, Repr

/-- Transceiver states (R313), code = index. -/
inductive TrxState where
  | sleep | standby | synth | receive | transmit
deriving DecidableEq, Repr

/-- One transceiver (R313, R318). -/
structure Trx where
  /-- 3 bits; 11 R313; sleep. State -/
  st : TrxState
  /-- band, Hz; 11 R314; none. Band and frequency of the last lock, none after Sleep -/
  lock : Option (Nat × Nat)
  /-- band; 11 R317; none. Band being calibrated and the end instant -/
  cal : Option (Nat × Nat)
  /-- 1 bit; 11 R322; false. One lock retry has been made in the present preparation -/
  retried : Bool
  /-- 4 bits; 11 R343; 0. CAL_VALID -/
  valid : BitVec 4
  /-- 4 bits; 11 R343; 0. CAL_DUE -/
  due : BitVec 4
  /-- 4 bits; 11 R343; 0. CAL_FAIL -/
  fail : BitVec 4
  /-- 4 × 8 bits; 11 R344; 0. °C plus 64 at the last calibration of each band -/
  temp : Vector Nat 4
  /-- count; 11 R320; 0 (DESIGN CHOICE, log 122). Calibrations completed: the model's number for the values one has given -/
  calNo : Nat
  /-- 4 × 4 values; 11 R317, R320; 0. Value held for each step of each band: the number of the calibration that gave it, 0 the
  built-in value -/
  vals : Vector (Vector Nat 4) 4
  /-- time; 11 R315; none. Standby turns to Sleep -/
  sleepAt : Option Nat
  /-- time; 11 R333; 0. The wake receivers of the port detect no pattern that begins before this instant -/
  blindUntil : Nat
deriving DecidableEq, Repr

/-- One wake receiver. -/
structure Wrx where
  /-- 1 bit; 11 R343; false. Listening -/
  on : Bool
  /-- entry; 11 R332; none. Kind 7 entry being served -/
  entry : Option Nat
  /-- 16 bits; 11 R344; 0. MATCH_COUNT -/
  hits : Nat
  /-- 16 bits; 11 R344; 0. FOLLOW_LOST -/
  followLost : Nat
deriving DecidableEq, Repr

/-- UHF block. -/
structure Uhf where
  /-- 2 transceivers; 11 R308. -/
  trx : Vector Trx 2
  /-- 6 wake receivers; 11 R330. -/
  wrx : Vector Wrx 6
  /-- 7 bits; 11 R343; 0. UHF_EVT -/
  evt : BitVec 7
  /-- bytes; 11 R311; []. Last telegram sent: length, payload, CRC -/
  lastTx : List Byte
  /-- levels; 11 R311, R312; []. Chips of that telegram on the air: preamble, sync word and bytes, coded -/
  chips : List Bool
  /-- °C; 11 R318; 25 (DESIGN CHOICE, log 8). Die temperature as last read -/
  temp : Int
deriving DecidableEq, Repr

/-- Localisation registers (R375). -/
structure Loc where
  /-- 9 bits; 12 R375; 0. LOC_EVT -/
  evt : BitVec 9
  /-- 32 bits; 12 R375; 0. LOC_FIX_XY -/
  fixXy : BitVec 32
  /-- 32 bits; 12 R375; 0x00FF0000. LOC_FIX_Z -/
  fixZ : BitVec 32
  /-- 32 bits; 12 R375; 0xFFFFFFFF. LOC_RANGE -/
  range : BitVec 32
deriving DecidableEq, Repr

/-- What a round of the access engine serves (R282). -/
inductive RoundUse where
  | backup | coilCheck | learn | inventory | tagRead | tagWrite | tagLock
deriving DecidableEq, Repr

/-- The frame of a round whose result is awaited (R300, R405). -/
inductive RoundFrame where
  | slot | ack | ackAgain | nak | auth | writeConfig | writeKey | lockKey | lockConfig | readPage | writePage | lockPage
deriving DecidableEq, Repr

/-- A round (R280, R301). -/
structure Round where
  /-- use; 10 R282 -/
  use : RoundUse
  /-- frame awaited; 10 R300 -/
  at_ : RoundFrame
  /-- 0 to 8; 10 R301; Q -/
  q : Nat
  /-- 1 to 16; 10 R301; frames -/
  frames : Nat
  /-- slot of the frame; 10 R301 -/
  slot : Nat
  /-- counts; 10 R301; empty, single, collided slots -/
  e : Nat
  /-- single slots; 10 R301 -/
  s : Nat
  /-- collided slots; 10 R301 -/
  c : Nat
  /-- 1 bit; 10 R282; the frame awaited is the round's first -/
  first : Bool
  /-- 6 bits; the model's own; number of the round, carried by its entries so that a stale result is told apart -/
  exch : Nat
  /-- channel; 08 R253; whose detuning change began a coil check -/
  coil : Nat
  /-- 16 bits; 10 R300; R16 of the slot -/
  r16 : BitVec 16
  /-- 64 bits; 10 R288; ID of the tag singulated -/
  id : BitVec 64
  /-- 8 bits; 10 R288; CAPS of the tag singulated -/
  caps : Byte
  /-- IDs; 10 R301; tags singulated in the round, in order -/
  found : List (BitVec 64)
  /-- 128 bits; 10 R296; challenge of AUTH -/
  chal : BitVec 128
  /-- 8 bits; 13 R390; last outcome: NO_KEY or TAG_MISMATCH -/
  last : Status
  /-- credential; 13 R390; whose response verified -/
  cred : Option Nat
  /-- 32 bits; 13 R405; LOCKS of page 2 as read back, in a learning round -/
  locks : Nat
deriving DecidableEq, Repr

/-- Stages of an access sequence (R387). -/
inductive Stage where
  | wake | id | resp | scan | report | nonce | ranging | fuse | repeatGap | backup
deriving DecidableEq, Repr

/-- The access sequence now open (R385). -/
structure Seqn where
  /-- 1 entry, 2 start, 3 backup, 5 approach, 6 learning step 5; 13 R385, R409 -/
  kind : Nat
  /-- pin 0 to 7, 8 the approach record, 9 none; 13 R385 -/
  pin : Nat
  /-- stage; 13 R387 -/
  stage : Stage
  /-- index of the ID window; 13 R387 -/
  window : Nat
  /-- all four windows are open after a repeated frame; 13 R389 -/
  repeated : Bool
  /-- ID telegrams delivered and not yet served; 13 R389 -/
  ids : List (List Byte)
  /-- IDs of keys served; 13 R389 -/
  served : List (BitVec 64)
  /-- credential index; 13 R384 -/
  cred : Option Nat
  /-- 128 bits; 13 R381; C -/
  chal : BitVec 128
  /-- 1 bit; 01 R46; C has been drawn and no key has been given it -/
  drawn : Bool
  /-- 128 bits; 01 R46, 13 R381; O of the key served, computed while CHAL is on the air -/
  expect : BitVec 128
  /-- 128 bits; 13 R381; S, held in KS56 -/
  sKey : BitVec 128
  /-- 8 bits; 13 R382; SCAN_SEQ -/
  scanSeq : Nat
  /-- short time; 13 R387; wake-frame end -/
  wakeEnd : BitVec 48
  /-- short time; 13 R389; end of the last RESP or REPORT -/
  msgEnd : BitVec 48
  /-- short time; 12 R373; end of the scan -/
  scanEnd : BitVec 48
  /-- bytes; 08 R246; scan result -/
  scan : List Byte
  /-- 13 R383; a scan without PREAMBLE began late -/
  scanLate : Bool
  /-- bytes; 12 R358; solver result and its status -/
  fix : Option (Status × List Byte)
  /-- bytes; 12 R371; ranging result and its status -/
  range : Option (Status × List Byte)
  /-- short time; 12 R373; due instant of the ranging exchange -/
  rangeDue : BitVec 48
  /-- 13 R387; the exchange has been repeated -/
  rangeAgain : Bool
  /-- 64 bits; 12 R363; NONCE -/
  nonce : BitVec 64
  /-- 8 bits; 12 R363; SEQ of the exchange -/
  rseq : Nat
  /-- 6 bits; the model's own; number of the exchange, carried by its entries so that a stale result is told apart -/
  exch : Nat
  /-- ID windows closed after a repeated frame; 13 R389 -/
  closed : Nat
  /-- time; 13 R389; end of the last refused key's message -/
  msgAt : Nat
  /-- 8 bits; 13 R393; status of the last key refused -/
  last : Status
deriving DecidableEq, Repr

/-- A resynchronisation candidate of R392. -/
structure Resync where
  /-- credential -/
  cred : Nat
  /-- KC of the candidate -/
  kc : Nat
  /-- time; expiry -/
  until_ : Nat
deriving DecidableEq, Repr

/-- A credential in the credential cache (R378, R129). -/
structure Cred where
  /-- 2 bits; 13 R378; 0. STATE -/
  st : Nat
  /-- 6 bits; 13 R378; 0. KEY_SLOT -/
  slot : Nat
  /-- 8 bits; 13 R378; 255. COUNTER -/
  counter : Nat
  /-- 8 bits; 13 R378; 0. ATTR -/
  attr : BitVec 8
  /-- 8 bits; 13 R378; 0. KEY_GEN -/
  keyGen : Nat
  /-- 64 bits; 13 R378; 0. ID -/
  id : BitVec 64
  /-- 32 bits; 13 R378; 0. LAST_KC -/
  lastKc : Nat
  /-- 32 bits; 13 R378; 0. NOT_BEFORE -/
  notBefore : Nat
  /-- 32 bits; 13 R378; 0. NOT_AFTER -/
  notAfter : Nat
  /-- 32 bits; 13 R384; none. Last ICNT accepted since reset or wake from Fallow -/
  icnt : Option Nat
  /-- command and time; 13 R392; none. Last acceptance, for the repeat rule -/
  lastCmd : Option (Nat × Nat)
deriving DecidableEq, Repr

/-- The access engine and the permit session. -/
structure Acc where
  /-- 104 bytes; 13 R376; empty. Access profile, empty when no record is stored -/
  profile : List Byte
  /-- 256 credentials; 13 R378; all empty -/
  creds : Vector Cred 256
  /-- 10 bits; 13 R408; 0. ACC_EVT -/
  evt : BitVec 10
  /-- 4 bits; 13 R409; 0. KIND of ACC_LAST -/
  lastKind : Nat
  /-- 1 bit; 13 R409; false. KEY_INSIDE -/
  keyInside : Bool
  /-- 8 bits; 13 R409; 255. CRED of ACC_LAST -/
  lastCred : Nat
  /-- 8 bits; 13 R409; ok. STATUS of ACC_LAST -/
  lastStatus : Status
  /-- 8 bits; 13 R409; 0. CMD of ACC_LAST -/
  lastCmd : Nat
  /-- 1 bit; 13 R394; false. SESSION_OPEN -/
  sessOpen : Bool
  /-- 32 bits; 13 R409; 0. SESSION -/
  session : Nat
  /-- 32 bits; 13 R396; 0. SEQ of the next token of the session -/
  seq : Nat
  /-- 32 bits; 13 R409; 0. ACC_TOKEN -/
  tokenSeq : Nat
  /-- credential; 13 R396; 255. Granting credential -/
  grantCred : Nat
  /-- 1 bit; 13 R396; false. The grant came from immobiliser backup -/
  grantBackup : Bool
  /-- 1 bit; 13 R399; false. REGRANT -/
  regrant : Bool
  /-- 1 bit; 03 R82; false. Re-grant eligibility: deny by V_PD only, no withdraw or tamper since -/
  eligible : Bool
  /-- time; 03 R82; 0. Issue of the last token, or the latest grant -/
  issuedAt : Nat
  /-- time; 13 R394; none. Expiry of HOLD_S -/
  holdUntil : Option Nat
  /-- entry; 13 R397; none. The token slot grid of the open session: a periodic entry outside the 256 of the timetable -/
  slot : Option Entry
  /-- count; 13 R399; 0. Deny tokens still to send -/
  denyLeft : Nat
  /-- 32 bytes; 13 R396; []. Latest token generated -/
  token : List Byte
  /-- sequence; 13 R386; none. Sequence now open -/
  seqn : Option Seqn
  /-- kind and pin; 13 R386; []. Triggers waiting -/
  queue : List (Nat × Nat)
  /-- round; 10 R280; none. Round now run -/
  round : Option Round
  /-- candidates; 13 R392; [] -/
  resync : List Resync
  /-- 8 bits; 13 R382; 0. Scan number of the next CHAL -/
  scanSeq : Nat
  /-- 6 bits; the model's own; 0. Number of the next exchange -/
  exch : Nat
  /-- 8 bits; 12 R363; 0. SEQ of the next ranging exchange -/
  rangeSeq : Nat
  /-- telegrams; 13 R386; []. Remote telegrams waiting -/
  remotes : List (List Byte)
  /-- 32-bit counts; 21 R606, R25; 0. Decisions written to checkpoint memory -/
  decisions : Nat
deriving DecidableEq, Repr

/-- An operation in flight (R417, R419). -/
structure Op where
  /-- tag; 14 R417 -/
  tag : Nat
  /-- ring; 14 R410 -/
  ring : Nat
  /-- page; 14 R410 -/
  page : Nat
  /-- 64 bytes; 14 R419; the descriptor -/
  desc : List Byte
  /-- class; 14 R422 -/
  cls : Nat
  /-- 14 R424; blocks done -/
  blocks : Nat
  /-- 14 R424; suspended -/
  suspended : Bool
  /-- 14 R425; has been suspended once -/
  wasSuspended : Bool
  /-- 15 R445; key snapshot -/
  key : Option (BitVec 256)
  /-- fetch order; 14 R422 -/
  order : Nat
  /-- result, once the operation has ended; status, late flag, bytes at DST -/
  result : Option (Status × Bool × List Byte)
  /-- 14 R425; a single-bit error was corrected in the operation's data -/
  corrected : Bool
  /-- bytes; 15 R437; bytes a block job has written at DST -/
  written : Nat
deriving DecidableEq, Repr

/-- One ring (R412, R435). -/
structure Ring where
  /-- 3 bits; 14 R435; 0. DEPTH code -/
  depth : Nat
  /-- 2 bits; 14 R435; 0. CLASS -/
  cls : Nat
  /-- 1 bit; 14 R435; false. GATED -/
  gated : Bool
  /-- 1 bit; 14 R435; false. EN -/
  en : Bool
  /-- 23 bits; 14 R435; 0. DBASE -/
  dbase : Nat
  /-- 23 bits; 14 R435; 0. CBASE -/
  cbase : Nat
  /-- 16 bits; 14 R412; 0. PI -/
  pi : BitVec 16
  /-- 16 bits; 14 R412; 0. FI -/
  fi : BitVec 16
  /-- 16 bits; 14 R412; 0. CQ_PI -/
  cqPi : BitVec 16
  /-- 16 bits; 14 R412; 0. CQ_CI -/
  cqCi : BitVec 16
  /-- 16 bits; 14 R428; 0. CQ_CI of the last checkpoint, for rings a pair feeds -/
  cqCiCkpt : BitVec 16
  /-- 1 bit; 14 R413; false. RING_FULL -/
  full : Bool
  /-- 1 bit; 14 R430; false. STOPPED -/
  stopped : Bool
  /-- 1 bit; 14 R427; false. SEQ_ERR -/
  seqErr : Bool
  /-- 9 bits; 14 R415; 0. CREDIT -/
  credit : Nat
  /-- 7 bits; 14 R427; 0. DUP_COUNT -/
  dup : Nat
  /-- 32 bits; 14 R427; none. Expected SEQ_NO, none before the first fetch -/
  expect : Option (BitVec 32)
  /-- 1 bit; 14 R428; false. Pair B has placed an ASP job in the ring -/
  fedB : Bool
deriving DecidableEq, Repr

/-- The job engine. -/
structure Job where
  /-- 32 rings; 14 R410 -/
  rings : Vector Ring 32
  /-- operations; 14 R417; [] -/
  ops : List Op
  /-- 512 tags; 14 R417; 0 to 511. Free tags in the order of reissue -/
  free : List Nat
  /-- 2 bits; 14 R434; 0. JOB_EVT -/
  evt : BitVec 2
  /-- count; 14 R422; 0. Fetches made -/
  fetched : Nat
  /-- count; 14 R424; 0. Urgent cipher jobs run in a row past a suspended one -/
  urgentRun : Nat
  /-- 3 rings; 14 R416; 31. Ring after which round-robin continues, by class -/
  last : Vector Nat 3
deriving DecidableEq, Repr

/-- An ASP message queued for a page, and for UDP where it came from. -/
structure AspMsg where
  /-- bytes; 20 R578; the whole message -/
  bytes : List Byte
  /-- 48 bits; 20 R585; MAC address the message came from -/
  srcMac : BitVec 48
  /-- 32 bits; 20 R585; source address of a UDP message -/
  srcIp : BitVec 32
  /-- 16 bits; 20 R585 -/
  srcPort : BitVec 16
deriving DecidableEq, Repr

/-- One client page (R571, R440, R579). -/
structure Page where
  /-- 23 bits; 15 R457; 0. GRANT_BASE -/
  base : Nat
  /-- 24 bits; 15 R457; 0. GRANT_LEN -/
  len : Nat
  /-- 128 bits; 20 R598; 0. Counter mask -/
  ctrMask : BitVec 128
  /-- 8 bits; 20 R598; 255. PAIR_SLOT -/
  pairSlot : Nat
  /-- offset, byte; 15 R440; []. Holding buffer, canonical sparse form, zero elsewhere -/
  hb : List Host.Cell
  /-- 128 bits; 15 R440; 0. T_h, byte 0 most significant -/
  th : BitVec 128
  /-- 256 bits; 15 R440; 0. WRITTEN -/
  written : BitVec 256
  /-- 256 bits; 15 R440; 0. COVERED -/
  covered : BitVec 256
  /-- 1 bit; 15 R440; false. OVERRUN -/
  overrun : Bool
  /-- fetch order; 15 R456; none. A CPG_GATE_CLEAR that waits for jobs fetched before it -/
  clearAt : Option Nat
  /-- state and length; 15 R451; none. Hash context: eight 64-bit words and bytes hashed -/
  hash : Option (List (BitVec 64) × Nat)
  /-- 8 bits; 07 R223; 0. TT_ENTRY_SEL -/
  ttSel : Nat
  /-- 6 bits; 17 R509; 0. KS_SLOT_SEL -/
  ksSel : Nat
  /-- 11 bits; 19 R568; 0. SW_FLOW_SEL -/
  flowSel : Nat
  /-- 128 bits; 20 R579; none. ASP session key S -/
  aspKey : Option (BitVec 128)
  /-- 32 bits; 20 R580; 0. SEQ of the last request accepted -/
  aspLast : BitVec 32
  /-- 32 bits; 20 R580; 0. Events sent in the session -/
  evtSeq : BitVec 32
  /-- 19 bits; 20 R583; 0. Classes subscribed -/
  subs : BitVec 19
  /-- count; 20 R583; 0. Events discarded since the last delivered -/
  lost : Nat
  /-- class, bits, time, short time; 20 R583; []. Events being coalesced: bits set since the first, and when that was -/
  evPend : List (Nat × Nat × Nat × BitVec 48)
  /-- 4 messages; 20 R584; []. Inbound queue -/
  inQ : List AspMsg
  /-- 16 messages; 20 R584; []. Outbound queue -/
  outQ : List AspMsg
  /-- messages; 21 R606; []. Headers (page, type, flags, seq) of messages delivered in the session -/
  delivered : List (Nat × Nat × Nat × BitVec 32)
  /-- 48 bits; 20 R585; 0. Source of the last request accepted -/
  peerMac : BitVec 48
  /-- 32 bits; 20 R585; 0. Its address -/
  peerIp : BitVec 32
  /-- 16 bits; 20 R585; 0 -/
  peerPort : BitVec 16
deriving DecidableEq, Repr

/-- Cipher engine and hash and public-key unit. -/
structure Cip where
  /-- tag; 15 R458; none. Job now on the cipher engine -/
  running : Option Nat
  /-- 5 bits; 15 R458; 0. AES_EVT -/
  aesEvt : BitVec 5
  /-- 16 bits; 15 R458; 0. FAULT_COUNT -/
  faults : Nat
  /-- 2 bits; 15 R458; 0. HPK_EVT -/
  hpkEvt : BitVec 2
  /-- tag; 15 R458; none. Operation now on the hash and public-key unit -/
  hpkRunning : Option Nat
deriving DecidableEq, Repr

/-- The random generator. -/
structure Rng where
  /-- 1 bit; 16 R474; false. RECOVERING -/
  recovering : Bool
  /-- 1 bit; 16 R633; false. Re-instantiation in progress -/
  reinst : Bool
  /-- 1 bit; 16 R474; false. LATCHED -/
  latched : Bool
  /-- 1 bit; 16 R472, R474; false. SOURCE_ON while SEC is powered; in Heath outside an event the source is off -/
  sourceOn : Bool
  /-- 2 bits; 16 R474; 0. FAIL_RUN -/
  failRun : Nat
  /-- 1 bit; 16 R467; false. The DRBG holds a state -/
  seeded : Bool
  /-- 7 bits; 16 R464; []. Background queue, 128-bit words, oldest first -/
  queue : List (BitVec 128)
  /-- 17 bits; 16 R474; 0. REQUESTS -/
  requests : Nat
  /-- 16 bits; 16 R475; 0. RESEEDS -/
  reseeds : Nat
  /-- 16 bits; 16 R475; 0. FAILURES -/
  failures : Nat
  /-- 5 bits; 16 R474; 0. RNG_EVT -/
  evt : BitVec 5
  /-- 32 bits; 16 R476; 0. RNG_DATA1 to RNG_DATA3 latches, 96 bits -/
  data : BitVec 96
  /-- 1 bit; 16 R476; false. VALID -/
  valid : Bool
  /-- count; the model's own (log 5); 0. Words drawn: index of the next free value -/
  drawn : Nat
deriving DecidableEq, Repr

/-- A key slot (R489, R490): the decrypted view of its record. -/
structure Slot where
  /-- 32 bits; 17 R490; 0. Attribute word -/
  attr : BitVec 32
  /-- 8 bits; 17 R494; 0. Generation -/
  gen : Nat
  /-- 256 bits; 17 R489; none. Key, none when empty; byte 0 most significant -/
  key : Option (BitVec 256)
  /-- epoch; 17 R492; 0. Class epoch the record names -/
  epoch : Nat
  /-- 32 bits; 17 R495; 0. Linked counter value stored with the record -/
  ctr : Nat
  /-- 1 bit; 17 R495; false. The record was rejected at opening -/
  rejected : Bool
deriving DecidableEq, Repr

/-- Stages of a committed life-cycle transition (R485): the next step to run. -/
structure Journal where
  /-- state left; 17 R485 -/
  from_ : LifeCycle
  /-- state entered; 17 R485 -/
  to_ : LifeCycle
  /-- 2 to 8; 17 R486; first unfinished step -/
  step : Nat
deriving DecidableEq, Repr

/-- Key store and life cycle. -/
structure Ks where
  /-- 8 bits; 17 R481; 0. Fuses: a pair each for FACTORY, FIELD, RETURN and the debug seal -/
  fuses : BitVec 8
  /-- journal; 17 R485; none -/
  journal : Option Journal
  /-- secret per state; 17 R478; none. Enrolled secrets rebuildable from the PUF and the helper records present -/
  secrets : Vector (Option (BitVec 256)) 4
  /-- 256 bits; 17 R477; none. Root now held in SEC -/
  root : Option (BitVec 256)
  /-- 4 classes; 17 R492; none. Class key, none when the class holds no key -/
  classKey : Vector (Option (BitVec 256)) 4
  /-- 4 classes; 17 R496; 0. Epoch -/
  epoch : Vector Nat 4
  /-- 64 slots; 17 R489 -/
  slots : Vector Slot 64
  /-- key and certificate; 17 R497; none. Device identity -/
  identity : Option (CrtKey × List Byte)
  /-- 5 bits; 17 R509; 0. KS_EVT -/
  evt : BitVec 5
deriving DecidableEq, Repr

/-- One stored copy of a record (R514). -/
structure Copy where
  /-- 16 bits; 18 R514; RID -/
  rid : Nat
  /-- 32 bits; 18 R514; SEQ -/
  seq : BitVec 32
  /-- 16 bits; 18 R514; WEAR, units of 4 writes -/
  wear : Nat
  /-- count; 18 R514; writes within the present unit of WEAR -/
  sub : Nat
  /-- frame; 18 R512; first frame of the run -/
  frame : Nat
  /-- bytes; 18 R514; payload -/
  data : List Byte
  /-- 1 bit; 18 R516; the header's groups decode and MAGIC and HCRC pass -/
  hdrOk : Bool
  /-- 1 bit; 18 R516; the payload's groups decode and CRC passes -/
  ok : Bool
deriving DecidableEq, Repr

/-- A monotonic counter (R525): base and ticks of its two rows. -/
structure Ctr where
  /-- 32 bits; 18 R525; 0. B of row 0 -/
  b0 : Nat
  /-- ticks; 18 R526; 0. T of row 0 -/
  t0 : Nat
  /-- 1 bit; 18 R526; true. Row 0 valid -/
  v0 : Bool
  /-- 32 bits; 18 R525; 0. B of row 1 -/
  b1 : Nat
  /-- ticks; 18 R526; 0. T of row 1 -/
  t1 : Nat
  /-- 1 bit; 18 R526; true. Row 1 valid -/
  v1 : Bool
  /-- row; 18 R527; none. Row marked for pre-clear -/
  preclear : Option Nat
  /-- 32 bits; 18 R529; 0. Highest value delivered since PON, held in AON -/
  held : Nat
deriving DecidableEq, Repr

/-- Retained memory and the record layer. -/
structure Nvm where
  /-- copies; 18 R512; []. Copies in the lower bank (L) -/
  lower : List Copy
  /-- copies; 18 R512; []. Copies in the upper bank (U) -/
  upper : List Copy
  /-- frame, WEAR; 18 R530; []. Free frames of the lower bank with WEAR not 0 -/
  freeLower : List (Nat × Nat)
  /-- frame, WEAR; 18 R530; []. Free frames of the upper bank with WEAR not 0 -/
  freeUpper : List (Nat × Nat)
  /-- 128 counters; 18 R525; all 0 -/
  ctrs : Vector Ctr 128
  /-- µJ; 18 R523; none. Ledger L -/
  ledger : Option Nat
  /-- 7 bits; 18 R536; 0. NVM_EVT -/
  evt : BitVec 7
  /-- 16 bits; 18 R537; 0. MAX_WEAR of the last index rebuild -/
  maxWear : Nat
  /-- 16 bits; 18 R537; 0. CORRECTIONS -/
  corrections : Nat
  /-- bank, frame, frames, wear; 18 R530; []. Old runs waiting to be freed -/
  freeing : List (Bool × Nat × Nat × Nat)
  /-- rid, bank; 18 R513; []. Copies waiting for refresh -/
  refresh : List (Nat × Bool)
deriving DecidableEq, Repr

/-- One tamper log entry (R506). -/
structure TmpLog where
  /-- source; 17 R506 -/
  source : Nat
  /-- step; 17 R506 -/
  step : Nat
  /-- count; 17 R506 -/
  count : Nat
  /-- 17 R506; RESET -/
  reset : Bool
  /-- 17 R506; WAKE -/
  wake : Bool
  /-- 0 Run, 1 Heath, 2 Fallow, 3 start-up; 17 R506 -/
  state : Nat
  /-- short time; 17 R506 -/
  time : BitVec 48
  /-- 17 R506; STALE flag -/
  stale : Bool
deriving DecidableEq, Repr

/-- Tamper watch. -/
structure Tmp where
  /-- 4 × 3 bits; 17 R499; 0. Mode of each pin with the policy last in force -/
  mode : Vector Nat 4
  /-- 7 bits; 17 R510; 0. PIN_ACTIVE and MON_ACTIVE: conditions present -/
  active : BitVec 8
  /-- 8 bits; 17 R498; 0. Onset held in AON: no further event until absent for 1 ms -/
  onset : BitVec 8
  /-- 8 bytes; 17 R510; 0. COUNT0 to COUNT7 -/
  count : Vector Nat 8
  /-- 1 bit; 17 R505; false. TAMPER_LATCH -/
  latch : Bool
  /-- 4 bits; 17 R504; 0. Classes whose erase is pending -/
  erasePending : BitVec 4
  /-- entries; 17 R504; []. Log entries held for a later write -/
  heldLog : List TmpLog
  /-- 1 bit; 17 R504; false. The tamper latch record is still to be written -/
  heldLatch : Bool
  /-- 9 bits; 17 R510; 0. TMP_EVT -/
  evt : BitVec 9
  /-- 10 bits; 17 R510; 0. TMP_LAST -/
  last : BitVec 10
  /-- 8 × 3 bits; 17 R505; 0. Step last applied by each source -/
  applied : Vector Nat 8
  /-- sources; 04 R118; []. Events captured before step 7, in order -/
  captured : List Nat
  /-- 2 counts; 17 R500; 0. Consecutive differing samples of each dynamic pair -/
  diff : Vector Nat 2
  /-- 2 × 16 bits; 17 R500; 0. Seed of each dynamic pair's sequence, from the key-generation wire -/
  mesh : Vector (BitVec 16) 2
  /-- 2 counts; 17 R500; 0. Steps of each sequence since its seed -/
  meshAt : Vector Nat 2
  /-- 1 bit; 17 R500; false. Run has been entered and the seeds wait for the key-generation wire -/
  meshDue : Bool
  /-- entries, oldest first; 17 R506; []. Tamper log, at most 32 -/
  log : List TmpLog
deriving DecidableEq, Repr

/-- A frame in an egress queue. -/
structure Frame where
  /-- bytes; 19 R553; from destination address to the end of the payload -/
  bytes : List Byte
  /-- short time; 06 R186; launch time, none when none -/
  launch : Option (BitVec 48)
  /-- entry; 19 R559; kind 10 entry that queued it -/
  entry : Option Nat
  /-- 1 bit; 19 R554; a permit copy -/
  permit : Bool
  /-- 1 bit; 06 R187; it came to the head of its queue with its launch time past -/
  late : Bool
deriving DecidableEq, Repr

/-- One switch port (R538, R569). -/
structure Port where
  /-- 3 bits; 19 R569; 0. RATE, 0 down -/
  rate : Nat
  /-- 1 bit; 19 R569; false. PLCA status -/
  plca : Bool
  /-- 8 queues; 19 R542; []. Egress queues, by class -/
  queues : Vector (List Frame) 8
  /-- 32 bits; 19 R569; 0. RX -/
  rx : Nat
  /-- 32 bits; 19 R569; 0. TX -/
  tx : Nat
  /-- 32 bits; 19 R569; 0. DROP_BUF -/
  dropBuf : Nat
  /-- 32 bits; 19 R569; 0. DROP_FILTER -/
  dropFilter : Nat
  /-- 32 bits; 19 R569; 0. DROP_GATE -/
  dropGate : Nat
  /-- 32 bits; 19 R569; 0. DROP_DOWN -/
  dropDown : Nat
  /-- 32 bits; 19 R569; 0. FCS_ERR -/
  fcsErr : Nat
  /-- bytes; 19 R541; []. Last frame sent on the wire -/
  lastTx : List Byte
deriving DecidableEq, Repr

/-- A learnt address (R548). -/
structure Learnt where
  /-- 48 bits; 19 R548 -/
  mac : BitVec 48
  /-- 12 bits; 19 R547 -/
  vid : BitVec 12
  /-- port; 19 R548 -/
  port : Nat
  /-- time; 19 R548; last frame from the source -/
  seen : Nat
deriving DecidableEq, Repr

/-- Counters and meter state of a flow that has seen a frame (R551, R568). -/
structure Flow where
  /-- index; 19 R550 -/
  idx : Nat
  /-- 32 bits; 19 R568; PASS -/
  pass : Nat
  /-- 31 bits; 19 R568; DROP -/
  drop : Nat
  /-- 1 bit; 19 R551; BLOCKED -/
  blocked : Bool
deriving DecidableEq, Repr

/-- State of a meter that has seen a frame (R552). -/
structure Meter where
  /-- index; 19 R552; 256 is the P8 meter of R557 -/
  idx : Nat
  /-- bits × 2^0; 19 R552; tokens of the committed bucket, in 10^-9 bytes -/
  c : Nat
  /-- 10^-9 bytes; 19 R552; tokens of the excess bucket -/
  e : Nat
  /-- time; 19 R552; last update -/
  at_ : Nat
deriving DecidableEq, Repr

/-- State of a sequence recovery function (R555). -/
structure Frer where
  /-- 16 bits; 19 R555; none. Highest sequence number accepted, none after a reset -/
  recv : Option Nat
  /-- bits; 19 R555; 0. History vector, bit i: recv − i passed -/
  hist : Nat
  /-- count; 19 R555; 0. Member frames discarded -/
  discarded : Nat
  /-- time; 19 R555; 0. Last frame passed -/
  passedAt : Nat
deriving DecidableEq, Repr

/-- The switch. -/
structure Sw where
  /-- 9 ports; 19 R538 -/
  ports : Vector Port 9
  /-- 6 bits; 19 R568; 0. SW_EVT -/
  evt : BitVec 6
  /-- entries; 19 R548; []. Learnt addresses -/
  learnt : List Learnt
  /-- flows; 19 R551; []. Flows with counts -/
  flows : List Flow
  /-- meters; 19 R552; [] -/
  meters : List Meter
  /-- 16 functions; 19 R555 -/
  frer : Vector Frer 16
  /-- frames; 19 R557; []. Frames delivered to the pairs through P8, latest last -/
  toPairs : List (List Byte)
deriving DecidableEq, Repr

/-- What a CAN frame carries before its data (R560, R562). -/
structure CanHead where
  /-- 29 bits; 19 R562; 0. Identifier -/
  id : BitVec 29
  /-- 1 bit; 19 R560; false. 29-bit identifier -/
  ext : Bool
  /-- 1 bit; 19 R560; false. CAN FD frame -/
  fd : Bool
  /-- 1 bit; 19 R560; false. Bit rate switch -/
  brs : Bool
  /-- 4 bits; 19 R562; 0. DLC -/
  dlc : Nat
deriving DecidableEq, Repr

/-- One CAN controller (R560, R570). -/
structure Can where
  /-- 1 bit; 19 R570; false. Powered and configured (STATE 3 is off) -/
  on : Bool
  /-- 8 bits; 19 R570; 0. TEC, 256 and above is bus-off -/
  tec : Nat
  /-- 7 bits; 19 R570; 0. REC -/
  rec_ : Nat
  /-- 1 bit; 19 R563; false. Bus-off -/
  busOff : Bool
  /-- 2 bits; 19 R570; 0. CAN_CTLn_EVT -/
  evt : BitVec 2
  /-- 16 bits; 19 R570; 0. PERMIT_SENT -/
  sent : Nat
  /-- 16 bits; 19 R570; 0. PERMIT_LATE -/
  late : Nat
  /-- 32 bytes; 19 R562; none. Token frame queued -/
  token : Option (List Byte)
  /-- bytes; 19 R562; []. Last frame sent: data -/
  lastTx : List Byte
  /-- head of a frame; 19 R562; none. Last frame sent: identifier, formats and DLC -/
  lastHead : Option CanHead
deriving DecidableEq, Repr

/-- One diagnostic connection: 0 and 1 DoIP, 2 CAN (R586, R587, R591). -/
structure Conn where
  /-- 1 bit; 20 R586; false. Routing active (DoIP), or the CAN connection -/
  active : Bool
  /-- 16 bits; 20 R586; 0. Tester address -/
  tester : Nat
  /-- 8 bits; 20 R588; 1. Session -/
  session : Nat
  /-- page; 20 R591; 0. Page bound, 0 none -/
  page : Nat
  /-- 5 bits; 20 R590; 0. ROLES -/
  roles : BitVec 5
  /-- 1 bit; 20 R590; false. UNTIMED -/
  untimed : Bool
  /-- challenge and tester key; 20 R590; none. Open authentication -/
  auth : Option (List Byte × Nat × Nat × BitVec 5 × Bool)
  /-- time; 20 R589; 0. Start of S3 -/
  s3 : Nat
  /-- bytes; 20 R588; []. Last response -/
  resp : List Byte
  /-- bytes; 20 R587; []. Last request message received whole over CAN -/
  req : List Byte
  /-- bytes, length, instant, number; 20 R587; none. ISO-TP reception in progress: bytes, whole length, last instant, next
  sequence number -/
  isoTp : Option (List Byte × Nat × Nat × Nat)
  /-- time; 20 R586; 0. Last activity -/
  seen : Nat
deriving DecidableEq, Repr

/-- A routine of a page (R593, R594). -/
structure Routine where
  /-- 16 bits; 20 R593. RID -/
  rid : Nat
  /-- connection; 20 R594 -/
  conn : Nat
  /-- 1 bit; 20 R594. Running -/
  running : Bool
  /-- status; 20 R594 -/
  status : Status
  /-- bytes; 20 R594. Result -/
  result : List Byte
  /-- bytes; 13 R405. Option record while it runs -/
  opt : List Byte
  /-- step; 13 R405. Step of a learning routine -/
  step : Nat
deriving DecidableEq, Repr

/-- One stored DTC (R596). -/
structure Dtc where
  /-- 24 bits; 20 R596. Code -/
  code : Nat
  /-- 8 bits; 20 R596. Status byte -/
  st : BitVec 8
  /-- count; 08 R257. Consecutive start-ups with the condition present -/
  starts : Nat
deriving DecidableEq, Repr

/-- Diagnostics. -/
structure Diag where
  /-- 3 connections; 20 R586 -/
  conns : Vector Conn 3
  /-- routine; 20 R594; none. Routine of CPG6 or CPG7 -/
  routine : Option Routine
  /-- offset, size, written, block; 20 R595; none. Transfer open -/
  download : Option (Nat × Nat × Nat × Nat)
  /-- 7 bits; 20 R602; 0. DIAG_EVT -/
  evt : BitVec 7
  /-- 16 bits; 20 R602; 0. MAC_FAILS -/
  macFails : Nat
  /-- count; 20 R590; 0. Consecutive authentication failures -/
  authFails : Nat
  /-- 1 bit; 20 R590; false. The next 0x29 is answered with NRC 0x36 -/
  exceeded : Bool
  /-- time; 20 R590; none. End of the 10 s delay -/
  lockUntil : Option Nat
  /-- DTCs, oldest first; 20 R596; []. DTC store, at most 64 -/
  dtcs : List Dtc
  /-- codes with their status mask; 04 R104, R105; []. DTCs whose record is still to be written -/
  waiting : List (Nat × BitVec 8)
  /-- 3-byte codes; 20 R596; []. DTC conditions at present active -/
  conditions : List Nat
  /-- bytes; 20 R586; []. Last DoIP or network message sent by the pairs -/
  out : List Byte
  /-- conn; 20 R602; 3. Connection that DIAG_STAT reports -/
  cur : Nat
deriving DecidableEq, Repr

/-- SPI and interrupt registers. -/
structure Spi where
  /-- 19 bits; 20 R601; 0. SYS_IRQ_EN -/
  irqEn : BitVec 19
  /-- 32 bits; 20 R601; 0. SYS_RING_IRQ -/
  ringIrq : BitVec 32
  /-- 32 bits; 20 R601; 0. SYS_HOST_ERR -/
  hostErr : BitVec 32
  /-- 1 bit; 20 R577; false. HIRQ driven low -/
  hirq : Bool
  /-- 1 bit; 22 R625; false. LOCK_SYS -/
  lock : Bool
  /-- 4 bits; 22 R625; 0. PAGE_OFF, bit n for CPG(n+2) -/
  pageOff : BitVec 4
  /-- 8 × 32 bits; 22 R625; 0. SYS_SCRATCH -/
  scratch : Vector (BitVec 32) 8
  /-- status; 20 R574; ok. STATUS of the last transaction -/
  status : Status
  /-- bytes; 20 R574; []. RDATA of the last transaction -/
  rdata : List Byte
  /-- 16 bits; 20 R574; 0. RCRC of the last transaction -/
  rcrc : BitVec 16
  /-- 1 bit; 20 R574; false. The last transaction drove HMISO -/
  answered : Bool
deriving DecidableEq, Repr

/-- What is written to checkpoint memory at the moment it happens (R25, R34, R428, R606). -/
inductive CkptItem where
  /-- a grant or withdraw of pair A, with its SESSION -/
  | permit (grant : Bool) (session : Nat)
  /-- pair B selects a time domain -/
  | domain (d : Option Dom)
  /-- pair B accepts an image, or refuses it with a verdict -/
  | image (verdict : Nat)
  /-- the job engine fetches an operation: its tag and SEQ_NO -/
  | fetch (tag : Nat) (seq : BitVec 32)
  /-- an operation completes: its tag and status -/
  | complete (tag : Nat) (st : Status)
  /-- a write of CQ_CI -/
  | cqCi (ring : Nat) (ci : BitVec 16)
  /-- an ASP response or event formed: page, TYPE, FLAGS, SEQ -/
  | message (page type flags : Nat) (seq : BitVec 32)
deriving DecidableEq, Repr

/-- One checkpoint of pair A or B (R25, R36, R428). -/
structure Ckpt where
  /-- count; 01 R25; its number -/
  number : Nat
  /-- 01 R36; the permit latch -/
  latch : Bool
  /-- ring, CQ_CI, expected SEQ_NO; 14 R428; the rings the pair feeds -/
  rings : List (Nat × BitVec 16 × Option (BitVec 32))
  /-- items; 01 R25; what was written since the checkpoint before it -/
  items : List CkptItem
deriving DecidableEq, Repr

/-- A pair's region of checkpoint memory, 64 KiB (R23). -/
structure CkptRegion where
  /-- checkpoints, latest first; 01 R23; []. The last two -/
  last : List Ckpt
  /-- items, oldest first; 01 R25; []. What was written since the last checkpoint -/
  items : List CkptItem
deriving DecidableEq, Repr

/-- What a pin or a group of like pins does (R48). -/
inductive PinState where
  /-- not driven -/
  | off
  /-- driven low -/
  | low
  /-- driven high -/
  | high
  /-- an input, with the pull of R48 -/
  | input
  /-- released with its pull-up -/
  | released
  /-- a block drives it -/
  | active
deriving DecidableEq, Repr

/-- Conversion modes of the VDRV converter (R85). -/
inductive VdrvMode where
  | stopped | boost | buck | buckBoost
deriving DecidableEq, Repr

/-- The pins of R48 but for the LF terminals, whose states are the channels' modes, and SP_A, SP_B and HIRQ, which stand
with the latch and the interrupt registers. -/
structure Pins where
  /-- pin; 02 R48, R52; low. NRST -/
  nrst : PinState
  /-- pin; 02 R48; off. VIO: active while it is switched on -/
  vio : PinState
  /-- mode; 03 R85; stopped. VDRV_LX1, VDRV_LX2: the converter's mode -/
  vdrv : VdrvMode
  /-- pin; 02 R48; active. XO40: active while it oscillates -/
  xo40 : PinState
  /-- pin; 02 R48; active. XO32: active while it oscillates -/
  xo32 : PinState
  /-- pins; 02 R48; off. RFA and RFB -/
  rf : Vector PinState 2
  /-- pins; 02 R48; input. HSCK, HCSN, HMOSI -/
  hspi : PinState
  /-- pin; 02 R48; high. FCSN -/
  fcsn : PinState
  /-- pins; 02 R48; input. FSCK, FIO0 to FIO3 -/
  fio : PinState
  /-- pins; 02 R48, R55; input. DCK, DIO -/
  dbg : PinState
  /-- pins; 02 R48; low. TPO0 to TPO3 -/
  tpo : Vector PinState 4
  /-- pins; 02 R48, R499; input. TMP0 to TMP3 -/
  tmp : Vector PinState 4
  /-- pins; 02 R48; high, recessive. CAN0_TX, CAN1_TX -/
  canTx : Vector PinState 2
  /-- pins; 02 R48; input. CAN0_RX, CAN1_RX -/
  canRx : Vector PinState 2
  /-- pins; 02 R48; off, high impedance or idle. Lines of P0 to P7: SD0, SD1, TP2 to TP5, TS6, TS7 -/
  port : Vector PinState 8
  /-- pin; 02 R48; low. SMI_MDC -/
  mdc : PinState
  /-- pin; 02 R48; input. SMI_MDIO -/
  mdio : PinState
deriving DecidableEq, Repr

/-- Faults and roles (R604, R619). -/
structure Flt where
  /-- 3 × 2 bits; 21 R619; 0, 1, 2. ROLE_P0 to ROLE_P2: 0 A, 1 B, 2 S, 3 out -/
  role : Vector Nat 3
  /-- 1 bit; 21 R619; false. SPARE_READY -/
  spare : Bool
  /-- physical pair; 21 R610; none. Pair under retest -/
  retest : Option Nat
  /-- 3 counts; 21 R610; 0. Takeovers each physical pair has suffered since reset -/
  hits : Vector Nat 3
  /-- 8 bits; 21 R619; 0. FLT_EVT -/
  evt : BitVec 8
  /-- 8 bits; 21 R620; 0. COUNT -/
  count : Nat
  /-- 1 bit; 21 R620; 0. LAST_ROLE -/
  lastRole : Nat
  /-- 2 bits; 21 R620; 0. LAST_CAUSE -/
  lastCause : Nat
  /-- 16 bits; 21 R620; 0. LAST_DELAY -/
  lastDelay : Nat
  /-- 16 bits; 21 R620; 0. CORRECTED -/
  corrected : Nat
  /-- 8 bits; 21 R620; 0. UNCORRECTED -/
  uncorrected : Nat
  /-- 3 bits; 21 R620; 0. LAST_MEM -/
  lastMem : Nat
  /-- 24 bits; 21 R620; 0. ECC OFFSET -/
  eccAddr : Nat
  /-- memory, offset, count; 21 R612; []. Addresses corrected since reset -/
  stuck : List (Nat × Nat × Nat)
  /-- 2 counts; 01 R25; 0. Checkpoints written by pairs A and B -/
  ckpts : Vector Nat 2
  /-- 2 regions of 64 KiB; 01 R23, R25; empty. Checkpoint memory of pairs A and B -/
  mem : Vector CkptRegion 2
deriving DecidableEq, Repr

/-- The whole state of the FK-1648. -/
structure State where
  /-- queue; the model's own (a block's command queue); []. Commands waiting, first in first out -/
  pending : List Instr
  /-- 1/64 ns; 01 R26 (log 1); 0. Advance of the local clock without its steps, for every timer outside a running action -/
  elapsed : Nat
  /-- 1/64 ns; 01 R26 (log 1); 0. Advance of the 40 MHz reference, for the hardware timeouts inside a running action -/
  xo : Nat
  /-- class, bits; the model's own; []. Event bits set by the present command, in order: every command's end hands them to the
  subscribers (R583) and empties the list -/
  evLog : List (Nat × Nat)
  /-- supply front end -/
  sup : Supply
  /-- permit latch -/
  permit : Permit
  /-- power state -/
  pwr : Pwr
  /-- start-up -/
  boot : Boot
  /-- settings in force -/
  set : Settings
  /-- ASP overrides; 20 R582; none -/
  ov : Overrides
  /-- time -/
  clk : Clock
  /-- timetable -/
  tt : Tt
  /-- LF drive -/
  lf : Lf
  /-- key link -/
  kl : Kl
  /-- UHF -/
  uhf : Uhf
  /-- localisation -/
  loc : Loc
  /-- access engine -/
  acc : Acc
  /-- job engine -/
  job : Job
  /-- 8 pages; 20 R571 -/
  pages : Vector Page 8
  /-- cipher, hash and public key -/
  cip : Cip
  /-- random generator -/
  rng : Rng
  /-- key store -/
  ks : Ks
  /-- retained memory -/
  nvm : Nvm
  /-- tamper -/
  tmp : Tmp
  /-- switch -/
  sw : Sw
  /-- 2 controllers; 19 R560 -/
  can : Vector Can 2
  /-- diagnostics -/
  diag : Diag
  /-- SPI and SYS -/
  spi : Spi
  /-- faults -/
  flt : Flt
  /-- pins; 02 R48 -/
  pins : Pins
  /-- 4 MiB; 22 R622; nothing listed, unlisted bytes read 0 (DESIGN CHOICE, log 9). Shared SRAM window -/
  win : List Host.Cell
  /-- 64 MiB; 04 R108; nothing listed, unlisted bytes read 0xFF. Serial flash -/
  flash : List Host.Cell
deriving DecidableEq, Repr

/-! ### Reset values -/

/-- A domain at reset (R191). -/
def Domain.reset : Domain :=
  { st := .off, gmSeen := false, gm := 0, steps := 0, path := [], offset := 0, hist := [], outCount := 0,
    sinceTrigger := 0, before := none, after := [], noVerdict := false, otherN := 0, gmNew := false, backCount := 0, syncAt := 0,
    suspectUntil := none, lockedSince := none, last := none, syncSent := 0, annSent := 0, syncOut := [], annOut := [] }

/-- A timer pulse output at reset (R193). -/
def Tpo.reset : Tpo :=
  { en := false, byEntry := false, periodic := false, pol := false, late := false, err := false, width := 1, target := 0,
    period := 1000, activeUntil := none }

/-- A port's link-delay state at reset. -/
def PortTime.reset : PortTime :=
  { delay := 0, hist := [], ratio := 4294967296, capable := false, prev := none, t1 := none, resp := none, reqSent := 0, respSent := 0 }

/-- The local clock after PON (R157, R632). -/
def Clock.reset : Clock :=
  { sec := 0, ns := 0, frac := 0, mode := .free, sel := none, stale := false, freqSat := false, freqAdj := 0, acc := 0,
    table := [], learning := none, tickInc := none, ratio := none, trimCycles := 0, trimTicks := 0, rtcRunning := false, xo40 := false,
    pri := Domain.reset, red := Domain.reset, evt := 0, lastStep := 0, nowHi := 0,
    tpo := Vector.replicate 4 Tpo.reset, ports := Vector.replicate 6 PortTime.reset }

/-- A channel at reset (R260). -/
def Channel.reset : Channel :=
  { mode := .off, result := .unmapped, rev := 0, revBit := false, fRes := 0, q := 0, rloop := 0, zmag := 0, zphase := 0, st := 0,
    lastFault := 0, faults := 0, base := none, trigger := none, retest := false, retestAfter := 0, dtcHeld := false }

/-- The LF drive at reset (R259). -/
def Lf.reset : Lf :=
  { tuned := false, anchorInv := false, carrier := 12500, evt := 0, ch := Vector.replicate 16 Channel.reset,
    drive := [], lastFrame := [], pauses := [], retestUntil := 0, round := false, roundDue := 0 }

/-- A transceiver at reset (R343). -/
def Trx.reset : Trx :=
  { st := .sleep, lock := none, cal := none, retried := false, valid := 0, due := 0, fail := 0,
    temp := Vector.replicate 4 0, calNo := 0, vals := Vector.replicate 4 (Vector.replicate 4 0), sleepAt := none, blindUntil := 0 }

/-- A wake receiver at reset (R344). -/
def Wrx.reset : Wrx := { on := false, entry := none, hits := 0, followLost := 0 }

/-- The UHF block at reset. -/
def Uhf.reset : Uhf :=
  { trx := Vector.replicate 2 Trx.reset, wrx := Vector.replicate 6 Wrx.reset, evt := 0, lastTx := [], chips := [], temp := 25 }

/-- An empty credential (R378). -/
def Cred.empty : Cred :=
  { st := 0, slot := 0, counter := 255, attr := 0, keyGen := 0, id := 0, lastKc := 0, notBefore := 0, notAfter := 0,
    icnt := none, lastCmd := none }

/-- The access engine at reset (R408, R409). -/
def Acc.reset : Acc :=
  { profile := [], creds := Vector.replicate 256 Cred.empty, evt := 0, lastKind := 0, keyInside := false, lastCred := 255,
    lastStatus := .ok, lastCmd := 0, sessOpen := false, session := 0, seq := 0, tokenSeq := 0, grantCred := 255,
    grantBackup := false, regrant := false, eligible := false, issuedAt := 0, holdUntil := none, slot := none,
    denyLeft := 0, token := [], seqn := none, queue := [], round := none, resync := [], scanSeq := 0, exch := 0, rangeSeq := 0,
    remotes := [], decisions := 0 }

/-- A ring at reset (R435). -/
def Ring.reset : Ring :=
  { depth := 0, cls := 0, gated := false, en := false, dbase := 0, cbase := 0, pi := 0, fi := 0, cqPi := 0, cqCi := 0,
    cqCiCkpt := 0, full := false, stopped := false, seqErr := false, credit := 0, dup := 0, expect := none,
    fedB := false }

/-- The job engine at reset (R434). -/
def Job.reset : Job :=
  { rings := Vector.replicate 32 Ring.reset, ops := [], free := List.range 512, evt := 0, fetched := 0, urgentRun := 0,
    last := Vector.replicate 3 31 }

/-- A client page at reset (R457). -/
def Page.reset : Page :=
  { base := 0, len := 0, ctrMask := 0, pairSlot := 255, hb := [], th := 0, written := 0, covered := 0, overrun := false,
    clearAt := none, hash := none, ttSel := 0, ksSel := 0, flowSel := 0, aspKey := none, aspLast := 0, evtSeq := 0, subs := 0, lost := 0, evPend := [],
    inQ := [], outQ := [], delivered := [], peerMac := 0, peerIp := 0, peerPort := 0 }

/-- The generator at reset (R474). -/
def Rng.reset : Rng :=
  { recovering := false, reinst := false, latched := false, sourceOn := false, failRun := 0, seeded := false, queue := [],
    requests := 0, reseeds := 0, failures := 0, evt := 0, data := 0, valid := false, drawn := 0 }

/-- An empty slot (R509). -/
def Slot.empty : Slot := { attr := 0, gen := 0, key := none, epoch := 0, ctr := 0, rejected := false }

/-- The key store of a device that has left manufacture: BLANK, nothing provisioned (R481). -/
def Ks.reset : Ks :=
  { fuses := 0, journal := none, secrets := Vector.replicate 4 none, root := none,
    classKey := Vector.replicate 4 none, epoch := Vector.replicate 4 0, slots := Vector.replicate 64 Slot.empty,
    identity := none, evt := 0 }

/-- A counter at manufacture: both rows carry B = 0 and no ticks (R527). -/
def Ctr.fresh : Ctr := { b0 := 0, t0 := 0, v0 := true, b1 := 0, t1 := 0, v1 := true, preclear := none, held := 0 }

/-- Retained memory at manufacture: no record, every counter fresh. -/
def Nvm.fresh : Nvm :=
  { lower := [], upper := [], freeLower := [], freeUpper := [], ctrs := Vector.replicate 128 Ctr.fresh, ledger := none,
    evt := 0, maxWear := 0, corrections := 0, freeing := [], refresh := [] }

/-- The tamper watch at PON (R510). -/
def Tmp.reset : Tmp :=
  { mode := Vector.replicate 4 0, active := 0, onset := 0, count := Vector.replicate 8 0, latch := false,
    erasePending := 0, heldLog := [], heldLatch := false, evt := 0, last := 0, applied := Vector.replicate 8 0,
    captured := [], diff := Vector.replicate 2 0, mesh := Vector.replicate 2 0, meshAt := Vector.replicate 2 0, meshDue := false,
    log := [] }

/-- A port at reset (R569). -/
def Port.reset : Port :=
  { rate := 0, plca := false, queues := Vector.replicate 8 [], rx := 0, tx := 0, dropBuf := 0, dropFilter := 0,
    dropGate := 0, dropDown := 0, fcsErr := 0, lastTx := [] }

/-- A recovery function at reset (R555). -/
def Frer.reset : Frer := { recv := none, hist := 0, discarded := 0, passedAt := 0 }

/-- The switch at reset. -/
def Sw.reset : Sw :=
  { ports := Vector.replicate 9 Port.reset, evt := 0, learnt := [], flows := [], meters := [],
    frer := Vector.replicate 16 Frer.reset, toPairs := [] }

/-- A CAN controller at reset (R570). -/
def Can.reset : Can :=
  { on := false, tec := 0, rec_ := 0, busOff := false, evt := 0, sent := 0, late := 0, token := none, lastTx := [], lastHead := none }

/-- A connection in the default session (R588). -/
def Conn.reset : Conn :=
  { active := false, tester := 0, session := 1, page := 0, roles := 0, untimed := false, auth := none, s3 := 0,
    resp := [], req := [], isoTp := none, seen := 0 }

/-- Diagnostics at reset (R602). -/
def Diag.reset : Diag :=
  { conns := Vector.replicate 3 Conn.reset, routine := none, download := none, evt := 0, macFails := 0, authFails := 0,
    exceeded := false, lockUntil := none, dtcs := [], waiting := [], conditions := [], out := [], cur := 3 }

/-- SPI and SYS registers at reset (R601, R625). -/
def Spi.reset : Spi :=
  { irqEn := 0, ringIrq := 0, hostErr := 0, hirq := false, lock := false, pageOff := 0,
    scratch := Vector.replicate 8 0, status := .ok, rdata := [], rcrc := 0, answered := false }

/-- Roles and faults at reset (R619). -/
def Flt.reset : Flt :=
  { role := #v[0, 1, 2], spare := false, retest := none, hits := Vector.replicate 3 0, evt := 0, count := 0, lastRole := 0,
    lastCause := 0, lastDelay := 0, corrected := 0, uncorrected := 0, lastMem := 0, eccAddr := 0, stuck := [],
    ckpts := Vector.replicate 2 0, mem := Vector.replicate 2 { last := [], items := [] } }

/-- The pins in reset (R48). -/
def Pins.reset : Pins :=
  { nrst := .low, vio := .off, vdrv := .stopped, xo40 := .active, xo32 := .active, rf := Vector.replicate 2 .off, hspi := .input,
    fcsn := .high, fio := .input, dbg := .input, tpo := Vector.replicate 4 .low, tmp := Vector.replicate 4 .input,
    canTx := Vector.replicate 2 .high, canRx := Vector.replicate 2 .input, port := Vector.replicate 8 .off, mdc := .low,
    mdio := .input }

/-- Supply registers at reset (R95, R96). VBAT and VHOLD are outside quantities: DESIGN CHOICE (log 8). -/
def Supply.reset : Supply :=
  { region := .full, vbat := 12000, vhold := 15000, evt := 0, vholdLow := false, vholdCap := 0, measured := false,
    tHoldNs := 0, rideUntil := none, measureUntil := none, tj := -64, thermWarn := false, thermDer := false,
    thermOff := false, shedCrank := 0, shedTherm := 0, shedVio := 0, vdrvOn := false, vdrvSet := 0, vdrvMeas := 0, vdrvReadyAt := 0,
    lfScale := 1024, vdrvLimit := false, vdrvStopAt := none, spaFault := false, spbFault := false }

/-- The latch in deny (R34). -/
def Permit.reset : Permit := { latch := false, spA := false, spB := false, pdDenied := false, pdBelow := false, tokenAt := 0,
                                    denyAt := none }

/-- Power state at reset (R151). -/
def Pwr.reset : Pwr :=
  { st := .startUp, wokeFrom := 0, req := 0, fallowDenied := false, wakeSrc := 0, wakePins := 0, debounce := [], edgeAt := Vector.replicate 8 0,
    idleSince := 0, heathSince := 0 }

/-- Start-up registers at reset (R125, R126). -/
def Boot.reset : Boot :=
  { kind := 0, kinds := [.pon], step := 1, verdict := 0, src := 0, pufFail := false, retBad := false, swp := false,
    nvmReady := false, ready := false, rngReady := false, secVersion := 0, keyVersion := 0,
    digest := List.replicate 64 0, imageId := List.replicate 8 0, retryAt := none, staged := [], maker := 0, swNext := none }

/-- No section in force. -/
def Settings.empty : Settings :=
  { antenna := [], zones := [], timetable := [], keylink := [], radio := [], ranging := [], network := [], time := [],
    diag := [], policy := [] }

/-- No override. -/
def Overrides.none : Overrides :=
  { carrier := .none, windows := [], telegrams := [], ranging := .none, waiting := [] }

/-- The state right after power-on reset of a device as manufactured, before START_UP runs: every register at the reset
value of R623, nothing in retained memory or flash (log 10). -/
def State.reset : State :=
  { pending := [], elapsed := 0, xo := 0, evLog := [], sup := Supply.reset, permit := Permit.reset, pwr := Pwr.reset, boot := Boot.reset,
    set := Settings.empty, ov := Overrides.none, clk := Clock.reset,
    tt := { entries := Vector.replicate 256 none, nSettings := 0, evt := 0, exec := false },
    lf := Lf.reset, kl := { evt := 0, frames := 0, replies := 0 }, uhf := Uhf.reset,
    loc := { evt := 0, fixXy := 0, fixZ := 0x00FF0000, range := 0xFFFFFFFF }, acc := Acc.reset, job := Job.reset,
    pages := Vector.replicate 8 Page.reset,
    cip := { running := none, aesEvt := 0, faults := 0, hpkEvt := 0, hpkRunning := none }, rng := Rng.reset, ks := Ks.reset,
    nvm := Nvm.fresh, tmp := Tmp.reset, sw := Sw.reset, can := Vector.replicate 2 Can.reset, diag := Diag.reset,
    spi := Spi.reset, flt := Flt.reset, pins := Pins.reset, win := [], flash := [] }

end Sys2Proof.Machine
end

