-- ==== Sys2Proof/Machine/Ops.lean ====
section
/-! DEFINITION. Named operations shared by every family: bytes, memory, time, status codes, events, supply and latch. -/

namespace Sys2Proof.Machine

/-! ### Bytes -/

/-- A string of bytes, byte 0 first. -/
abbrev Bytes := List Byte

/-- Byte at an offset, 0 beyond the end. -/
def u8 (b : Bytes) (i : Nat) : Nat := (b.getD i 0).toNat

/-- Little-endian number of `n` bytes at an offset (R6). -/
def leN (b : Bytes) (i : Nat) : Nat → Nat
  | 0 => 0
  | n + 1 => leN b i n + u8 b (i + n) * 256 ^ n

/-- Little-endian u16, u32, u64. -/
def u16 (b : Bytes) (i : Nat) : Nat := leN b i 2
def u32 (b : Bytes) (i : Nat) : Nat := leN b i 4
def u64 (b : Bytes) (i : Nat) : Nat := leN b i 8

/-- Two's complement value of an n-bit number. -/
def sgn (bits v : Nat) : Int := if v < 2 ^ (bits - 1) then (v : Int) else (v : Int) - (2 ^ bits : Nat)

/-- Signed fields. -/
def s8 (b : Bytes) (i : Nat) : Int := sgn 8 (u8 b i)
def s16 (b : Bytes) (i : Nat) : Int := sgn 16 (u16 b i)
def s32 (b : Bytes) (i : Nat) : Int := sgn 32 (u32 b i)

/-- A slice of bytes. -/
def sl (b : Bytes) (i n : Nat) : Bytes := (b.drop i).take n

/-- Big-endian number of a byte string. -/
def beNat (b : Bytes) : Nat := b.foldl (fun a x => a * 256 + x.toNat) 0

/-- `n` bytes of a number, little-endian. -/
def leBytes : Nat → Nat → Bytes
  | 0, _ => []
  | n + 1, v => BitVec.ofNat 8 v :: leBytes n (v / 256)

/-- `n` bytes of a number, big-endian. -/
def beBytes (n v : Nat) : Bytes := (leBytes n v).reverse

/-- A two's complement number of `bits` bits. -/
def toU (bits : Nat) (v : Int) : Nat := (v % (2 ^ bits : Nat)).toNat

/-- Bytes padded with zeros to a length, or cut to it. -/
def padTo (n : Nat) (b : Bytes) : Bytes := (b ++ List.replicate (n - b.length) 0).take n

/-- All bytes are zero. -/
def allZero (b : Bytes) : Bool := b.all (· == 0)

/-- Saturating increment. -/
def satInc (max v : Nat) : Nat := if v < max then v + 1 else max

/-- Bit of a byte. -/
def bit (v i : Nat) : Bool := v.testBit i

/-- 0 or 1. -/
def b2n (b : Bool) : Nat := if b then 1 else 0

/-! ### Sparse memories in canonical form (addresses rising, no entry at the unlisted value) -/

/-- The byte at an address; `d` is what an unlisted address reads as. -/
def memGet (d : Byte) : List Host.Cell → Nat → Byte
  | [], _ => d
  | (b, w) :: r, a => if a = b then w else memGet d r a

/-- Store one byte, keeping the canonical form. -/
def memSet (d : Byte) : List Host.Cell → Nat → Byte → List Host.Cell
  | [], a, v => if v = d then [] else [(a, v)]
  | (b, w) :: r, a, v =>
    if a < b then (if v = d then (b, w) :: r else (a, v) :: (b, w) :: r)
    else if a = b then (if v = d then r else (a, v) :: r)
    else (b, w) :: memSet d r a v

/-- Store consecutive bytes. -/
def memSetBytes (d : Byte) (m : List Host.Cell) : Nat → Bytes → List Host.Cell
  | _, [] => m
  | a, v :: r => memSetBytes d (memSet d m a v) (a + 1) r

/-- Load consecutive bytes. -/
def memGetBytes (d : Byte) (m : List Host.Cell) (a n : Nat) : Bytes :=
  (List.range n).map (fun i => memGet d m (a + i))

/-- The canonical form: every listed address at least `lo`, rising, no value equal to the unlisted one. -/
def memWfFrom (d : Byte) : Nat → List Host.Cell → Bool
  | _, [] => true
  | lo, (a, v) :: r => decide (lo ≤ a) && decide (v ≠ d) && memWfFrom d (a + 1) r

/-- The canonical form of a memory. -/
def memWf (d : Byte) (m : List Host.Cell) : Bool := memWfFrom d 0 m

/-- The addressed memories of the machine are in canonical form: the window, the flash and the pages' holding buffers. -/
def Memory.wf (s : State) : Bool := memWf 0 s.win && memWf 0xFF s.flash && s.pages.toList.all (fun p => memWf 0 p.hb)

/-- Window bytes (R622): the 4 MiB of system memory. -/
def winRead (s : State) (off n : Nat) : Bytes := memGetBytes 0 s.win off n
/-- Store to the window. -/
def winWrite (s : State) (off : Nat) (b : Bytes) : State := { s with win := memSetBytes 0 s.win off b }
/-- Flash bytes; erased flash reads 0xFF. -/
def flashRead (s : State) (off n : Nat) : Bytes := memGetBytes 0xFF s.flash off n

/-! ### Time -/

/-- Units of `elapsed` (1/64 ns) in 1 ns, 1 µs, 1 ms and 1 s. -/
def tNs (n : Nat) : Nat := 64 * n
def tUs (n : Nat) : Nat := 64000 * n
def tMs (n : Nat) : Nat := 64000000 * n
def tS (n : Nat) : Nat := 64000000000 * n

/-- An instant has been reached. -/
def reached (s : State) (t : Nat) : Bool := decide (t ≤ s.elapsed)

/-- An instant of the 40 MHz reference has been reached: the hardware timeouts inside a running action (R26). -/
def reachedXo (s : State) (t : Nat) : Bool := decide (t ≤ s.xo)

/-- A timer is running and has been reached. -/
def expired (s : State) : Option Nat → Bool
  | none => false
  | some t => reached s t

/-- The full nanosecond count of the local clock (R201). -/
def fullNs (s : State) : Nat := s.clk.sec * 1000000000 + s.clk.ns

/-- Short time: the full count modulo 2^48 (R16). -/
def now48 (s : State) : BitVec 48 := BitVec.ofNat 48 (fullNs s)

/-- s48 of a difference (R16). -/
def s48 (a b : BitVec 48) : Int := (a - b).toInt

/-- An instant `n` ns after a short time. -/
def after48 (t : BitVec 48) (n : Nat) : BitVec 48 := t + BitVec.ofNat 48 n

/-! ### Status codes (R432) -/

/-- The numeric code of a status. -/
def Status.code : Status → Nat
  | .ok => 0x00 | .late => 0x01 | .ringFull => 0x02 | .notReady => 0x03 | .lowEnergy => 0x04 | .timeout => 0x05
  | .keyGone => 0x06 | .entropyFail => 0x07 | .tamper => 0x08 | .tagMismatch => 0x09 | .locked => 0x0A
  | .conflicted => 0x0B | .noField => 0x0C | .collision => 0x0D | .frameError => 0x0E | .crcError => 0x0F
  | .badEntry => 0x10 | .badTime => 0x11 | .tableFull => 0x12 | .channelFault => 0x13 | .noFix => 0x14
  | .multipath => 0x15 | .inconsistent => 0x16 | .unknownKey => 0x17 | .replayed => 0x18 | .outOfZone => 0x19
  | .tooFar => 0x1A | .disagree => 0x1B | .noKey => 0x1C | .badDesc => 0x1D | .denied => 0x1E | .eccError => 0x1F
  | .fault => 0x20 | .addrError => 0x21

/-- A result that counts as success wherever the access engine checks it (R393). -/
def Status.good (t : Status) : Bool := t == .ok || t == .late

/-! ### Codes of enumerations -/

/-- Code of a reset kind (R146). -/
def ResetKind.code : ResetKind → Nat
  | .pon => 1 | .bor => 2 | .wfr => 3 | .hcr => 4 | .tmr => 5 | .lcr => 6

/-- Rank in the order of R147: PON, BOR, TMR, LCR, WFR, HCR. -/
def ResetKind.rank : ResetKind → Nat
  | .pon => 0 | .bor => 1 | .tmr => 2 | .lcr => 3 | .wfr => 4 | .hcr => 5

def Region.code : Region → Nat
  | .full => 0 | .crank => 1 | .ride => 2 | .overvolt => 3

def LifeCycle.code : LifeCycle → Nat
  | .blank => 0 | .factory => 1 | .field => 2 | .retn => 3

/-- The life-cycle state: the highest one entered, either bit of whose fuse pair is blown (R481). -/
def Ks.lc (k : Ks) : LifeCycle :=
  if k.fuses &&& 0x30 ≠ 0 then .retn else if k.fuses &&& 0x0C ≠ 0 then .field else if k.fuses &&& 0x03 ≠ 0 then .factory else .blank

/-- DEBUG_SEALED: either bit of the seal's pair is blown (R481, R487). -/
def Ks.sealed (k : Ks) : Bool := k.fuses &&& 0xC0 != 0

/-- Both fuse bits of a state's pair (R481, R485). -/
def LifeCycle.fuses : LifeCycle → BitVec 8
  | .blank => 0 | .factory => 0x03 | .field => 0x0C | .retn => 0x30

def ClockMode.code : ClockMode → Nat
  | .free => 0 | .following => 1 | .holdover => 2 | .master => 3

def DomState.code : DomState → Nat
  | .off => 0 | .acquiring => 1 | .locked => 2 | .suspect => 3 | .rerouted => 4 | .lost => 5

def TrxState.code : TrxState → Nat
  | .sleep => 0 | .standby => 1 | .synth => 2 | .receive => 3 | .transmit => 4

def TuneResult.code : TuneResult → Nat
  | .unmapped => 0 | .ok => 1 | .detuned => 2 | .open => 3 | .shortGnd => 4 | .shortSupply => 5 | .shortCoil => 6

/-! ### Vectors -/

/-- Element of a vector, with a fallback beyond its end. -/
def vget {α : Type} {n : Nat} (v : Vector α n) (i : Nat) (d : α) : α := (v[i]?).getD d

/-- Replace an element; nothing beyond the end. -/
def vset {α : Type} {n : Nat} (v : Vector α n) (i : Nat) (x : α) : Vector α n := v.setIfInBounds i x

/-- Change an element. -/
def vmod {α : Type} {n : Nat} (v : Vector α n) (i : Nat) (f : α → α) : Vector α n :=
  match v[i]? with
  | some x => v.setIfInBounds i (f x)
  | none => v

/-! ### Event words: bit `i` of a W1C register is set -/

/-- One bit. -/
def onBit (w i : Nat) : BitVec w := BitVec.ofNat w (2 ^ i)

/-- A setting of event bits of a class of R627, for its subscribers (R583). -/
def note (cls v : Nat) (s : State) : State := { s with evLog := s.evLog ++ [(cls, v)] }

def evSup (i : Nat) (s : State) : State := note 1 (2 ^ (i + 8)) { s with sup.evt := s.sup.evt ||| onBit 7 i }
def evTt (i : Nat) (s : State) : State := note 4 (2 ^ i) { s with tt.evt := s.tt.evt ||| onBit 5 i }
def evTim (i : Nat) (s : State) : State := note 3 (2 ^ i) { s with clk.evt := s.clk.evt ||| onBit 9 i }
def evLf (i : Nat) (s : State) : State := note 5 (2 ^ i) { s with lf.evt := s.lf.evt ||| onBit 7 i }
def evKl (i : Nat) (s : State) : State := note 5 (2 ^ i) { s with kl.evt := s.kl.evt ||| onBit 4 i }
def evUhf (i : Nat) (s : State) : State := note 6 (2 ^ i) { s with uhf.evt := s.uhf.evt ||| onBit 7 i }
def evLoc (i : Nat) (s : State) : State := note 7 (2 ^ i) { s with loc.evt := s.loc.evt ||| onBit 9 i }
def evAcc (i : Nat) (s : State) : State := note 0 (2 ^ i) { s with acc.evt := s.acc.evt ||| onBit 10 i }
def evJob (i : Nat) (s : State) : State := note 8 (2 ^ i) { s with job.evt := s.job.evt ||| onBit 2 i }
def evAes (i : Nat) (s : State) : State := note 9 (2 ^ i) { s with cip.aesEvt := s.cip.aesEvt ||| onBit 5 i }
def evHpk (i : Nat) (s : State) : State := note 9 (2 ^ i) { s with cip.hpkEvt := s.cip.hpkEvt ||| onBit 2 i }
def evRng (i : Nat) (s : State) : State := note 10 (2 ^ i) { s with rng.evt := s.rng.evt ||| onBit 5 i }
def evKs (i : Nat) (s : State) : State := note 11 (2 ^ i) { s with ks.evt := s.ks.evt ||| onBit 5 i }
def evNvm (i : Nat) (s : State) : State := note 12 (2 ^ i) { s with nvm.evt := s.nvm.evt ||| onBit 7 i }
def evTmp (i : Nat) (s : State) : State := note 13 (2 ^ i) { s with tmp.evt := s.tmp.evt ||| onBit 9 i }
def evSw (i : Nat) (s : State) : State := note 14 (2 ^ i) { s with sw.evt := s.sw.evt ||| onBit 6 i }
def evDiag (i : Nat) (s : State) : State := note 15 (2 ^ i) { s with diag.evt := s.diag.evt ||| onBit 7 i }
def evFlt (i : Nat) (s : State) : State := note 16 (2 ^ i) { s with flt.evt := s.flt.evt ||| onBit 8 i }
def evWake (i : Nat) (s : State) : State := note 2 (2 ^ i) { s with pwr.wakeSrc := s.pwr.wakeSrc ||| onBit 14 i }
def evCan (n i : Nat) (s : State) : State :=
  note 14 (2 ^ i) { s with can := vmod s.can n (fun c => { c with evt := c.evt ||| onBit 2 i }) }

/-- An uncorrectable memory error: its memory and offset (R611, R620). -/
def eccBad (mem off : Nat) (s : State) : State :=
  evFlt 5 { s with flt.uncorrected := satInc 255 s.flt.uncorrected, flt.lastMem := mem, flt.eccAddr := off % 2 ^ 24 }

/-- Page that owns a ring, and a page's first ring (R410). -/
def ringPage (n : Nat) : Nat :=
  if n < 4 then 0 else if n < 12 then 1 else if n < 28 then 2 + (n - 12) / 4 else if n < 30 then 6 else 7
def ringFirst (p : Nat) : Nat :=
  if p = 0 then 0 else if p = 1 then 4 else if p < 6 then 12 + 4 * (p - 2) else if p = 6 then 28 else 30

/-! ### Power domains (R127) -/

/-- A pair holds role `r` (R604). -/
def hasRole (s : State) (r : Nat) : Bool := s.flt.role.toList.any (· == r)

/-- In Run with every domain that Run powers. -/
def isRun (s : State) : Bool := s.pwr.st == .run

/-- Ride-through is in effect. -/
def inRide (s : State) : Bool := isRun s && s.sup.region == .ride

/-- Pair B is powered and the host interface answers (R78, R576). -/
def ppbOn (s : State) : Bool :=
  match s.pwr.st with
  | .run => s.sup.region != .ride
  | .startUp => true
  | _ => false

/-- Heath or Fallow. -/
def asleep (s : State) : Bool := s.pwr.st == .heath || s.pwr.st == .fallow

/-! ### The permit latch (R34, R35) -/

/-- A level that holds the latch in deny: tamper latch (R505), VBAT below V_PD (R81), no Run or Heath or Fallow, or no
pair A (R605). -/
def denyLevel (s : State) : Bool :=
  s.tmp.latch || s.permit.pdBelow || s.pwr.st == .startUp || s.pwr.st == .waitNoPair || !hasRole s 0

/-- Move the latch to deny. -/
def latchDeny (s : State) : State := { s with permit.latch := false }

/-- The present cycle of the 40 MHz reference. -/
def cycle (s : State) : Nat := s.elapsed / 1600

/-- A deny cause without a level reaches the latch: a grant in the same cycle does not move it (R35). -/
def latchDenyNow (s : State) : State := { latchDeny s with permit.denyAt := some (cycle s) }

/-- A deny cause that no grant overrides at present: a level, a momentary cause in the same cycle (R35), or the deny of R81
that only the re-grant of R82 ends. -/
def grantBarred (s : State) : Bool := denyLevel s || s.permit.pdDenied || decide (s.permit.denyAt = some (cycle s))

/-- Apply a grant decision. -/
def latchGrant (s : State) : State :=
  if grantBarred s then s else { s with permit.latch := true, permit.tokenAt := s.xo }

/-! ### Checkpoint memory (R23, R25) -/

/-- Written to the region of pair A (0) or B (1) of checkpoint memory at once (R25, R428, R606). -/
def ckptItem (r : Nat) (x : CkptItem) (s : State) : State :=
  { s with flt.mem := vmod s.flt.mem r (fun m => { m with items := m.items ++ [x] }) }

/-! ### VBAT -/

/-- VBAT as seen. A fall below V_PD is a deny in every power state and region, and the supervisor holds that level; the
session is kept for the re-grant of R82, which its crossing with a session open makes eligible (R81). Outside Run no
re-grant follows, and the deny ends above V_RTX. DESIGN CHOICE, log 131. -/
def seeVbat (mv : Nat) (s : State) : State :=
  if mv < Config.vPd then
    if s.permit.pdBelow then { s with sup.vbat := mv }
    else evSup 2 (latchDeny { s with
      sup.vbat := mv, permit.pdBelow := true, permit.pdDenied := true,
      acc.eligible := if s.permit.pdDenied then s.acc.eligible else s.acc.sessOpen })
  else { s with sup.vbat := mv, permit.pdBelow := false,
                permit.pdDenied := s.permit.pdDenied && (isRun s || mv < Config.vRtx) }

/-- VHOLD as seen. -/
def seeVhold (mv : Nat) (s : State) : State := { s with sup.vhold := mv }

end Sys2Proof.Machine
end

