-- ==== Sys2Proof/Machine/Fixed.lean ====
section
/-! DEFINITION. Fixed-point arithmetic: square root, angle, sine, cosine and logarithm, exact to well below every
tolerance the spec states. -/

namespace Sys2Proof.Machine

/-- Floor of the square root: digits of the result from bit `n` down. -/
def isqrtGo (v : Nat) : Nat → Nat → Nat
  | 0, r => r
  | n + 1, r => if (r + 2 ^ n) * (r + 2 ^ n) ≤ v then isqrtGo v n (r + 2 ^ n) else isqrtGo v n r

/-- Floor of the square root of a number below 2^320. -/
def isqrt (v : Nat) : Nat := isqrtGo v 160 0

/-- Angles of the rotation steps, 2^-64 turn. -/
def atanTable : List Int :=
  [2305843009213693952, 1361218612134873190, 719230530580881038, 365092647525521947, 183254791493294829] ++
  [91716730292036216, 45869556482713130, 22936177926750895, 11468263948075831, 5734153847876408] ++
  [2867079658191483, 1433540170878135, 716770128161890, 358385069421298, 179192535378193] ++
  [89596267772540, 44798133896700, 22399066949654, 11199533474990, 5599766737515] ++
  [2799883368760, 1399941684380, 699970842190, 349985421095, 174992710548] ++
  [87496355274, 43748177637, 21874088818, 10937044409, 5468522205] ++
  [2734261102, 1367130551, 683565276, 341782638, 170891319] ++
  [85445659, 42722830, 21361415, 10680707, 5340354] ++
  [2670177, 1335088, 667544, 333772, 166886] ++
  [83443, 41722, 20861, 10430, 5215] ++
  [2608, 1304, 652, 326, 163] ++
  [81, 41, 20, 10, 5]

/-- Vector rotation onto the x axis: the angle of (x, y), x at least 0, accumulated in `z`. -/
def cordicV : List Int → Nat → Int → Int → Int → Int
  | [], _, _, _, z => z
  | t :: r, i, x, y, z =>
    if y > 0 then cordicV r (i + 1) (x + y / (2 ^ i : Nat)) (y - x / (2 ^ i : Nat)) (z + t)
    else if y < 0 then cordicV r (i + 1) (x - y / (2 ^ i : Nat)) (y + x / (2 ^ i : Nat)) (z - t)
    else z

/-- Angle of (x, y) in units of 2^-64 turn, from -2^63 to 2^63; 0 at the origin. -/
def angle (x y : Int) : Int :=
  let k : Int := (2 ^ 64 : Nat)
  if x = 0 && y = 0 then 0
  else if x ≥ 0 then cordicV atanTable 0 (x * k) (y * k) 0
  else if y ≥ 0 then (2 ^ 63 : Nat) + cordicV atanTable 0 (-x * k) (-y * k) 0
  else cordicV atanTable 0 (-x * k) (-y * k) 0 - (2 ^ 63 : Nat)

/-- Round a quotient to the nearest, halves away from zero. -/
def roundDiv (a : Int) (b : Nat) : Int :=
  if a ≥ 0 then (2 * a + b) / (2 * b : Nat) else -((2 * (-a) + b) / (2 * b : Nat))

/-- Angle in 2^-16 turn, rounded, as s16. -/
def angle16 (x y : Int) : Int := sgn 16 (toU 16 (roundDiv (angle x y) (2 ^ 48)))

/-- Rotation by an angle in (−1/4, 1/4) turn of the vector (x, y). -/
def cordicR : List Int → Nat → Int → Int → Int → Int × Int
  | [], _, x, y, _ => (x, y)
  | t :: r, i, x, y, z =>
    if z ≥ 0 then cordicR r (i + 1) (x - y / (2 ^ i : Nat)) (y + x / (2 ^ i : Nat)) (z - t)
    else cordicR r (i + 1) (x + y / (2 ^ i : Nat)) (y - x / (2 ^ i : Nat)) (z + t)

/-- Cosine and sine, scaled by 2^60, of an angle in 2^-16 turn. -/
def cosSin (a : Int) : Int × Int :=
  let a := sgn 16 (toU 16 a)
  let g : Int := 700114967507363238
  if a > 16384 then
    let r := cordicR atanTable 0 g 0 ((a - 32768) * (2 ^ 48 : Nat))
    (-r.1, -r.2)
  else if a < -16384 then
    let r := cordicR atanTable 0 g 0 ((a + 32768) * (2 ^ 48 : Nat))
    (-r.1, -r.2)
  else cordicR atanTable 0 g 0 (a * (2 ^ 48 : Nat))

/-- pi, scaled by 2^60. -/
def piF : Nat := 3622009729038561421

/-- Binary logarithm by repeated squaring: `m` in [1, 2) scaled by 2^60; `n` digits. -/
def log2Go : Nat → Nat → Nat → Nat
  | 0, _, acc => acc
  | n + 1, m, acc =>
    let q := m * m / 2 ^ 60
    if q ≥ 2 ^ 61 then log2Go n (q / 2) (2 * acc + 1) else log2Go n q (2 * acc)

/-- log2 of a / b for a ≥ b > 0, scaled by 2^50. -/
def log2Ratio (a b : Nat) : Nat :=
  let e := (a / b).log2
  e * 2 ^ 50 + log2Go 50 (a * 2 ^ 60 / (b * 2 ^ e)) 0

/-- Natural logarithm of a / b for a ≥ b > 0, scaled by 2^50. -/
def lnRatio (a b : Nat) : Nat := log2Ratio a b * 799144290325165979 / 2 ^ 60

end Sys2Proof.Machine
end

