-- ==== Sys2Proof/Machine/Crypto.lean ====
section
/-! DEFINITION. The algorithms the spec names by standard: the CRCs of R264 and R515, AES (FIPS 197), CMAC
(NIST SP 800-38B), SHA-512 (FIPS 180-4) and RSASSA-PSS (PKCS #1 v2.2). Blocks are lists of bytes as numbers. -/

namespace Sys2Proof.Machine

/-! ### CRCs -/

/-- One bit of a non-reflected CRC. -/
def crcBit (w poly : Nat) (c : Nat) : Nat :=
  if c.testBit (w - 1) then ((c <<< 1) ^^^ poly) % 2 ^ w else (c <<< 1) % 2 ^ w

/-- One byte of a non-reflected CRC. -/
def crcByte (w poly : Nat) (c : Nat) (b : Byte) : Nat :=
  (List.range 8).foldl (fun c _ => crcBit w poly c) (c ^^^ (b.toNat <<< (w - 8)))

/-- CRC-16 of R264 over bytes. -/
def crc16 (b : Bytes) : Nat := (b.foldl (crcByte 16 0x1021) 0xFFFF) ^^^ 0xFFFF

/-- CRC of R264 over bits, most significant first. -/
def crcBits (w poly init xor : Nat) (bits : List Bool) : Nat :=
  (bits.foldl (fun c x => if c.testBit (w - 1) != x then ((c <<< 1) ^^^ poly) % 2 ^ w else (c <<< 1) % 2 ^ w) init) ^^^ xor

/-- CRC-8 of R264 over the 22 bits of a wake code. -/
def crc8Wake (code : Nat) : Nat :=
  crcBits 8 0x2F 0xFF 0xFF ((List.range 22).map (fun i => code.testBit (21 - i)))

/-- One byte of the reflected CRC-32 of R515. -/
def crc32Byte (c : Nat) (b : Byte) : Nat :=
  (List.range 8).foldl (fun c _ => if c % 2 = 1 then (c >>> 1) ^^^ 0xEDB88320 else c >>> 1) (c ^^^ b.toNat)

/-- CRC-32 of R515. -/
def crc32 (b : Bytes) : Nat := (b.foldl crc32Byte 0xFFFFFFFF) ^^^ 0xFFFFFFFF

/-! ### AES -/

/-- The substitution table of FIPS 197, byte 0 most significant. -/
def sboxTable : Nat :=
  0x637c777bf26b6fc53001672bfed7ab76ca82c97dfa5947f0add4a2af9ca472c0b7fd9326363ff7cc34a5e5f171d8311504c723c31896059a071280e2eb27b27509832c1a1b6e5aa0523bd6b329e32f8453d100ed20fcb15b6acbbe394a4c58cfd0efaafb434d338545f9027f503c9fa851a3408f929d38f5bcb6da2110fff3d2cd0c13ec5f974417c4a77e3d645d197360814fdc222a908846eeb814de5e0bdbe0323a0a4906245cc2d3ac629195e479e7c8376d8dd54ea96c56f4ea657aae08ba78252e1ca6b4c6e8dd741f4bbd8b8a703eb5664803f60e613557b986c11d9ee1f8981169d98e949b1e87e9ce5528df8ca1890dbfe6426841992d0fb054bb16

/-- The inverse substitution table of FIPS 197. -/
def invSboxTable : Nat :=
  0x52096ad53036a538bf40a39e81f3d7fb7ce339829b2fff87348e4344c4dee9cb547b9432a6c2233dee4c950b42fac34e082ea16628d924b2765ba2496d8bd12572f8f66486689816d4a45ccc5d65b6926c704850fdedb9da5e154657a78d9d8490d8ab008cbcd30af7e45805b8b34506d02c1e8fca3f0f02c1afbd0301138a6b3a9111414f67dcea97f2cfcef0b4e67396ac7422e7ad3585e2f937e81c75df6e47f11a711d29c5896fb7620eaa18be1bfc563e4bc6d279209adbc0fe78cd5af41fdda8338807c731b11210592780ec5f60517fa919b54a0d2de57a9f93c99cefa0e03b4dae2af5b0c8ebbb3c83539961172b047eba77d626e169146355210c7d

def sbox (x : Nat) : Nat := (sboxTable >>> (8 * (255 - x))) % 256
def invSbox (x : Nat) : Nat := (invSboxTable >>> (8 * (255 - x))) % 256

/-- Multiplication by x in the AES field. -/
def xtime (a : Nat) : Nat := if a < 128 then 2 * a else (2 * a) ^^^ 0x11B

/-- Multiplication in the AES field by a constant below 16. -/
def gmul (c a : Nat) : Nat :=
  let a2 := xtime a
  let a4 := xtime a2
  let a8 := xtime a4
  (if c.testBit 0 then a else 0) ^^^ (if c.testBit 1 then a2 else 0) ^^^ (if c.testBit 2 then a4 else 0)
    ^^^ (if c.testBit 3 then a8 else 0)

/-- Exclusive or of two byte lists. -/
def xorL (a b : List Nat) : List Nat := List.zipWith (· ^^^ ·) a b

/-- Round constant of key-expansion round i, from 1. -/
def rcon : Nat → Nat
  | 0 => 0
  | 1 => 1
  | n + 1 => xtime (rcon n)

/-- Key words, newest first, `n` more than given; `nk` is 4, 6 or 8. -/
def expandWords (nk : Nat) : Nat → List (List Nat) → List (List Nat)
  | 0, ws => ws
  | n + 1, ws =>
    let i := ws.length
    let t := ws.getD 0 []
    let t := if i % nk = 0 then
        xorL ((t.drop 1 ++ t.take 1).map sbox) [rcon (i / nk), 0, 0, 0]
      else if nk = 8 && i % nk = 4 then t.map sbox else t
    expandWords nk n (xorL (ws.getD (nk - 1) []) t :: ws)

/-- Groups of four. -/
def groups4 : Nat → List Nat → List (List Nat)
  | 0, _ => []
  | n + 1, l => l.take 4 :: groups4 n (l.drop 4)

/-- Round keys, first to last, of a key of 4·nk bytes. -/
def roundKeys (nk : Nat) (key : List Nat) : List (List Nat) :=
  let ws := (expandWords nk (4 * (nk + 7) - nk) (groups4 nk key).reverse).reverse
  (List.range (nk + 7)).map (fun r => ((ws.drop (4 * r)).take 4).flatten)

/-- ShiftRows as a permutation of the 16 bytes; `d` is 1 to encrypt, 3 to decrypt. -/
def shiftRows (d : Nat) (s : List Nat) : List Nat :=
  (List.range 16).map (fun i => s.getD ((i + 4 * d * (i % 4)) % 16) 0)

/-- MixColumns with the coefficients of one column. -/
def mixCols (c0 c1 c2 c3 : Nat) (s : List Nat) : List Nat :=
  (List.range 16).map (fun i =>
    let b := i - i % 4
    let g := fun k => s.getD (b + (i + k) % 4) 0
    gmul c0 (g 0) ^^^ gmul c1 (g 1) ^^^ gmul c2 (g 2) ^^^ gmul c3 (g 3))

/-- AES encryption of one block of 16 bytes under a key of 16, 24 or 32 bytes (FIPS 197). -/
def aesEncN (key block : List Nat) : List Nat :=
  let ks := roundKeys (key.length / 4) key
  let nr := ks.length - 1
  let s0 := xorL block (ks.getD 0 [])
  let s1 := (List.range (nr - 1)).foldl
    (fun s r => xorL (mixCols 2 3 1 1 (shiftRows 1 (s.map sbox))) (ks.getD (r + 1) [])) s0
  xorL (shiftRows 1 (s1.map sbox)) (ks.getD nr [])

/-- AES decryption of one block (FIPS 197). -/
def aesDecN (key block : List Nat) : List Nat :=
  let ks := roundKeys (key.length / 4) key
  let nr := ks.length - 1
  let s0 := xorL block (ks.getD nr [])
  let s1 := (List.range (nr - 1)).foldl
    (fun s r => mixCols 14 11 13 9 (xorL ((shiftRows 3 s).map invSbox) (ks.getD (nr - 1 - r) []))) s0
  xorL ((shiftRows 3 s1).map invSbox) (ks.getD 0 [])

/-- Bytes of a number, most significant first. -/
def natBytes : Nat → Nat → List Nat
  | 0, _ => []
  | n + 1, v => natBytes n (v / 256) ++ [v % 256]

/-- Number of big-endian bytes. -/
def bytesNat (l : List Nat) : Nat := l.foldl (fun a x => a * 256 + x) 0

/-- AES block operation on 128-bit blocks; `klen` is 16, 24 or 32; the key's first bytes are its most significant
(R436). -/
def aesBlock (dec : Bool) (klen : Nat) (key : BitVec 256) (x : BitVec 128) : BitVec 128 :=
  let k := (natBytes 32 key.toNat).take klen
  let b := natBytes 16 x.toNat
  BitVec.ofNat 128 (bytesNat (if dec then aesDecN k b else aesEncN k b))

/-- AES-128 encryption under a 128-bit key. -/
def aes128 (key x : BitVec 128) : BitVec 128 := aesBlock false 16 (key ++ (0 : BitVec 128)) x

/-- Doubling in the CMAC field. -/
def cmacDbl (x : BitVec 128) : BitVec 128 := if x.msb then (x <<< 1) ^^^ 0x87 else x <<< 1

/-- CMAC chain over the blocks of a message; the last block is masked with K1 or K2. -/
def cmacGo (enc : BitVec 128 → BitVec 128) (l : BitVec 128) : Nat → BitVec 128 → Bytes → BitVec 128
  | 0, c, _ => c
  | n + 1, c, m =>
    if m.length > 16 then
      cmacGo enc l n (enc (c ^^^ BitVec.ofNat 128 (beNat (m.take 16)))) (m.drop 16)
    else if m.length = 16 then enc (c ^^^ BitVec.ofNat 128 (beNat m) ^^^ cmacDbl l)
    else enc (c ^^^ BitVec.ofNat 128 (beNat (padTo 16 (m ++ [0x80]))) ^^^ cmacDbl (cmacDbl l))

/-- AES-CMAC (NIST SP 800-38B) with a key of `klen` bytes. -/
def cmac (klen : Nat) (key : BitVec 256) (m : Bytes) : BitVec 128 :=
  let enc := aesBlock false klen key
  cmacGo enc (enc 0) (m.length / 16 + 1) 0 m

/-- AES-CMAC under a 128-bit key. -/
def cmac128 (key : BitVec 128) (m : Bytes) : BitVec 128 := cmac 16 (key ++ (0 : BitVec 128)) m

/-- The 16 bytes of a block, byte 0 first. -/
def blockBytes (b : BitVec 128) : Bytes := beBytes 16 b.toNat

/-- The leading `n` bytes of an AES-CMAC under a 128-bit key. -/
def mac128 (key : BitVec 128) (n : Nat) (m : Bytes) : Bytes := (blockBytes (cmac128 key m)).take n

/-! ### SHA-512 -/

/-- The 80 round constants, the first most significant. -/
def shaK : Nat :=
  0x428a2f98d728ae227137449123ef65cdb5c0fbcfec4d3b2fe9b5dba58189dbbc3956c25bf348b53859f111f1b605d019923f82a4af194f9bab1c5ed5da6d8118d807aa98a303024212835b0145706fbe243185be4ee4b28c550c7dc3d5ffb4e272be5d74f27b896f80deb1fe3b1696b19bdc06a725c71235c19bf174cf692694e49b69c19ef14ad2efbe4786384f25e30fc19dc68b8cd5b5240ca1cc77ac9c652de92c6f592b02754a7484aa6ea6e4835cb0a9dcbd41fbd476f988da831153b5983e5152ee66dfaba831c66d2db43210b00327c898fb213fbf597fc7beef0ee4c6e00bf33da88fc2d5a79147930aa72506ca6351e003826f142929670a0e6e7027b70a8546d22ffc2e1b21385c26c9264d2c6dfc5ac42aed53380d139d95b3df650a73548baf63de766a0abb3c77b2a881c2c92e47edaee692722c851482353ba2bfe8a14cf10364a81a664bbc423001c24b8b70d0f89791c76c51a30654be30d192e819d6ef5218d69906245565a910f40e35855771202a106aa07032bbd1b819a4c116b8d2d0c81e376c085141ab532748774cdf8eeb9934b0bcb5e19b48a8391c0cb3c5c95a634ed8aa4ae3418acb5b9cca4f7763e373682e6ff3d6b2b8a3748f82ee5defb2fc78a5636f43172f6084c87814a1f0ab728cc702081a6439ec90befffa23631e28a4506cebde82bde9bef9a3f7b2c67915c67178f2e372532bca273eceea26619cd186b8c721c0c207eada7dd6cde0eb1ef57d4f7fee6ed17806f067aa72176fba0a637dc5a2c898a6113f9804bef90dae1b710b35131c471b28db77f523047d8432caab7b40c724933c9ebe0a15c9bebc431d67c49c100d4c4cc5d4becb3e42b6597f299cfc657e2a5fcb6fab3ad6faec6c44198c4a475817

/-- The initial hash value. -/
def shaInit : List (BitVec 64) :=
  [0x6a09e667f3bcc908, 0xbb67ae8584caa73b, 0x3c6ef372fe94f82b, 0xa54ff53a5f1d36f1, 0x510e527fade682d1, 0x9b05688c2b3e6c1f, 0x1f83d9abfb41bd6b, 0x5be0cd19137e2179]

def shaConst (i : Nat) : BitVec 64 := BitVec.ofNat 64 (shaK >>> (64 * (79 - i)))

def ror (x : BitVec 64) (n : Nat) : BitVec 64 := (x >>> n) ||| (x <<< (64 - n))

/-- Extend the message schedule, newest word first. -/
def shaExtend : Nat → List (BitVec 64) → List (BitVec 64)
  | 0, w => w
  | n + 1, w =>
    let a := w.getD 14 0
    let b := w.getD 1 0
    let s0 := ror a 1 ^^^ ror a 8 ^^^ (a >>> 7)
    let s1 := ror b 19 ^^^ ror b 61 ^^^ (b >>> 6)
    shaExtend n ((w.getD 15 0 + s0 + w.getD 6 0 + s1) :: w)

/-- One round. -/
def shaRound (h : List (BitVec 64)) (kw : BitVec 64) : List (BitVec 64) :=
  match h with
  | [a, b, c, d, e, f, g, i] =>
    let t1 := i + (ror e 14 ^^^ ror e 18 ^^^ ror e 41) + ((e &&& f) ^^^ (~~~e &&& g)) + kw
    let t2 := (ror a 28 ^^^ ror a 34 ^^^ ror a 39) + ((a &&& b) ^^^ (a &&& c) ^^^ (b &&& c))
    [t1 + t2, a, b, c, d + t1, e, f, g]
  | _ => h

/-- Big-endian 64-bit words of a block of 128 bytes. -/
def shaWords : Nat → Bytes → List (BitVec 64)
  | 0, _ => []
  | n + 1, b => BitVec.ofNat 64 (beNat (b.take 8)) :: shaWords n (b.drop 8)

/-- Compression of one block of 128 bytes. -/
def shaBlock (h : List (BitVec 64)) (b : Bytes) : List (BitVec 64) :=
  let w := (shaExtend 64 (shaWords 16 b).reverse).reverse
  let r := (List.range 80).foldl (fun h i => shaRound h (shaConst i + w.getD i 0)) h
  List.zipWith (· + ·) h r

/-- Compression of consecutive whole blocks. -/
def shaBlocks : Nat → List (BitVec 64) → Bytes → List (BitVec 64)
  | 0, h, _ => h
  | n + 1, h, b => shaBlocks n (shaBlock h (b.take 128)) (b.drop 128)

/-- The padding that follows a message of `len` bytes. -/
def shaPad (len : Nat) : Bytes :=
  [0x80] ++ List.replicate ((239 - len % 128) % 128) 0 ++ beBytes 16 (8 * len)

/-- Finish a hash of which `done` whole-block bytes are already compressed into `h`. -/
def shaFinish (h : List (BitVec 64)) (done : Nat) (rest : Bytes) : Bytes :=
  let m := rest ++ shaPad (done + rest.length)
  (shaBlocks (m.length / 128) h m).flatMap (fun x => beBytes 8 x.toNat)

/-- SHA-512 of a message. -/
def sha512 (m : Bytes) : Bytes := shaFinish shaInit 0 m

/-! ### RSASSA-PSS -/

/-- Modular exponentiation from the top bit of an `n`-bit exponent. -/
def powModGo (b m e : Nat) : Nat → Nat → Nat
  | 0, acc => acc
  | n + 1, acc =>
    let a2 := acc * acc % m
    powModGo b m e n (if e.testBit n then a2 * b % m else a2)

/-- b ^ e mod m for an exponent below 2^4096. -/
def powMod (b e m : Nat) : Nat := powModGo (b % m) m e (if e < 2 ^ 32 then 32 else 4096) (1 % m)

/-- MGF1 with SHA-512. -/
def mgf1 (seed : Bytes) (len : Nat) : Bytes :=
  ((List.range ((len + 63) / 64)).flatMap (fun i => sha512 (seed ++ beBytes 4 i))).take len

/-- Exclusive or of byte strings. -/
def xorB (a b : Bytes) : Bytes := List.zipWith (· ^^^ ·) a b

/-- EMSA-PSS-ENCODE of a 64-byte digest for a 4096-bit modulus, with SHA-512 and the given salt. -/
def pssEncode (digest salt : Bytes) : Bytes :=
  let h := sha512 (List.replicate 8 0 ++ digest ++ salt)
  let db := List.replicate (512 - salt.length - 66) 0 ++ [1] ++ salt
  let masked := xorB db (mgf1 h 447)
  ((masked.take 1).map (· &&& 0x7F)) ++ masked.drop 1 ++ h ++ [0xBC]

/-- RSASSA-PSS-VERIFY of a digest under a 4096-bit key: emLen 512, emBits 4095 (PKCS #1 v2.2). -/
def pssVerifyDigest (modulus e : Nat) (saltLen : Nat) (digest sig : Bytes) : Bool :=
  let s := beNat sig
  if sig.length ≠ 512 || s ≥ modulus then false
  else
    let em := beBytes 512 (powMod s e modulus)
    let masked := em.take 447
    let h := sl em 447 64
    let db := xorB masked (mgf1 h 447)
    let db := ((db.take 1).map (· &&& 0x7F)) ++ db.drop 1
    let z := 512 - saltLen - 66
    em.getD 511 0 == 0xBC && (masked.getD 0 0 &&& 0x80) == 0 && allZero (db.take z) && db.getD z 0 == 1
      && saltLen + 66 ≤ 512 && h == sha512 (List.replicate 8 0 ++ digest ++ db.drop (z + 1))

/-- RSASSA-PSS-VERIFY of a message. -/
def pssVerify (modulus e saltLen : Nat) (m sig : Bytes) : Bool := pssVerifyDigest modulus e saltLen (sha512 m) sig

/-- RSA signature of an encoded message with a CRT key (RFC 8017, 5.1.2). -/
def rsaCrt (p q dP dQ qInv m : Nat) : Nat :=
  let m1 := powMod m dP p
  let m2 := powMod m dQ q
  m2 + q * ((m1 + p - m2 % p) * qInv % p)

end Sys2Proof.Machine
end

