-- ==== Sys2Proof/Machine/Operands.lean ====
section
/-! DEFINITION. Every operand form: the fields of the image sections in force (R112), of descriptors (R419), timetable
entries (R195), the access profile (R376) and records, read from their bytes. -/

namespace Sys2Proof.Machine

/-- Bits set in the low `n` bits. -/
def popc (v : Nat) : Nat → Nat
  | 0 => 0
  | n + 1 => popc v n + b2n (v.testBit n)

/-! ### ANTENNA (R236) -/

def antMask (b : Bytes) : Nat := u16 b 0
def antVdrv (b : Bytes) : Nat := u16 b 2
def antMapped (b : Bytes) (ch : Nat) : Bool := ch < 16 && (antMask b).testBit ch
/-- Mapped channels, ascending. -/
def antChannels (b : Bytes) : List Nat := (List.range 16).filter (antMapped b)
/-- Offset of a channel's record. -/
def antRec (b : Bytes) (ch : Nat) : Nat := 4 + 80 * popc (antMask b) ch
/-- Offset of the tail header. -/
def antTail (b : Bytes) : Nat := 4 + 80 * popc (antMask b) 16
def antILimit (b : Bytes) (ch : Nat) : Nat := u16 b (antRec b ch + 2)
def antPos (b : Bytes) (ch : Nat) : Int × Int × Int :=
  (s16 b (antRec b ch + 4), s16 b (antRec b ch + 6), s16 b (antRec b ch + 8))
def antAz (b : Bytes) (ch : Nat) : Int := s16 b (antRec b ch + 10)
def antEl (b : Bytes) (ch : Nat) : Int := s16 b (antRec b ch + 12)
def antRef (b : Bytes) (ch : Nat) : Nat := u8 b (antRec b ch + 14)
def antFlags (b : Bytes) (ch : Nat) : Nat := u8 b (antRec b ch + 15)
/-- Coefficient j in Q16.16 (R352). -/
def antCoef (b : Bytes) (ch j : Nat) : Int := s32 b (antRec b ch + 16 + 4 * j)
def antCarrier (b : Bytes) : Nat := u16 b (antTail b)
def antPings (b : Bytes) : Nat := u8 b (antTail b + 2)
def antScans (b : Bytes) : Nat := u8 b (antTail b + 3)
def antDetune (b : Bytes) : Nat := u16 b (antTail b + 4)
/-- Offset of a ping set (R237). -/
def antPing (b : Bytes) (i : Nat) : Nat := antTail b + 8 + 8 * i
/-- Offset of a scan directory entry. -/
def antScanDir (b : Bytes) (i : Nat) : Nat := antTail b + 8 + 8 * antPings b + 4 * i
/-- Bytes of scan block i. -/
def antScan (b : Bytes) (i : Nat) : Bytes := sl b (u16 b (antScanDir b i)) (u16 b (antScanDir b i + 2))

/-- A channel word of R240: channel, phase P, amplitude A. -/
structure ChWord where
  /-- [3:0] -/
  ch : Nat
  /-- [11:4] -/
  p : Nat
  /-- [21:12] -/
  a : Nat
deriving DecidableEq, Repr

/-- `n` channel words at an offset. -/
def chWords (b : Bytes) (off n : Nat) : List ChWord :=
  (List.range n).map (fun i =>
    let w := u32 b (off + 4 * i)
    { ch := w % 16, p := w / 16 % 256, a := w / 4096 % 1024 })

/-- Driven words: those with A > 0. -/
def drivenWords (l : List ChWord) : List ChWord := l.filter (fun w => w.a > 0)

/-- The patterns of a scan block from an offset, `n` of them (R240). -/
def patternsFrom (b : Bytes) : Nat → Nat → List (List ChWord)
  | _, 0 => []
  | off, n + 1 => chWords b (off + 2) (u8 b off) :: patternsFrom b (off + 2 + 4 * u8 b off) n

def scanCount (b : Bytes) : Nat := u8 b 0
def scanDwell (b : Bytes) : Nat := u8 b 1
def scanIfs (b : Bytes) : Nat := u16 b 2
def scanPreamble (b : Bytes) : Nat := u16 b 4
def scanPatterns (b : Bytes) : List (List ChWord) := patternsFrom b 8 (scanCount b)

/-! ### KEYLINK (R276) -/

def klResp (b : Bytes) : Nat := if b = [] then 64 else u16 b 0
def klExtMax (b : Bytes) : Nat := if b = [] then 8 else u8 b 2
def klFrames (b : Bytes) : Nat := u8 b 3
/-- Bytes of frame block i. -/
def klFrame (b : Bytes) (i : Nat) : Bytes := sl b (u16 b (4 + 4 * i)) (u16 b (6 + 4 * i))
def fbType (f : Bytes) : Nat := u8 f 0
def fbListen (f : Bytes) : Nat := u8 f 1
def fbIfs (f : Bytes) : Nat := u16 f 2
def fbLen (f : Bytes) : Nat := u8 f 4
def fbRMin (f : Bytes) : Nat := u8 f 5
def fbRMax (f : Bytes) : Nat := u8 f 6
def fbExt (f : Bytes) : Bool := bit (u8 f 7) 0
def fbN (f : Bytes) : Nat := u8 f 8
def fbWords (f : Bytes) : List ChWord := chWords f 12 (fbN f)
def fbPayload (f : Bytes) : Bytes := sl f (12 + 4 * fbN f) (fbLen f)
/-- The 22-bit wake code of a wake frame (R277). -/
def fbWake (f : Bytes) : Nat := beNat (fbPayload f) % 2 ^ 22

/-! ### RADIO (R338) -/

def raBands (b : Bytes) (port : Nat) : Nat := u8 b port
def raTstep (b : Bytes) : Nat := u8 b 2
def raWins (b : Bytes) : Nat := u8 b 3
def raPats (b : Bytes) : Nat := u8 b 4
def raTels (b : Bytes) : Nat := u8 b 5
def raWrxEn (b : Bytes) : Nat := u8 b 6
/-- Bytes of window plan i. -/
def raWin (b : Bytes) (i : Nat) : Bytes := sl b (16 + 32 * i) 32
/-- Bytes of pattern plan i. -/
def raPat (b : Bytes) (i : Nat) : Bytes := sl b (16 + 32 * raWins b + 24 * i) 24
def raTelDir (b : Bytes) (i : Nat) : Nat := 16 + 32 * raWins b + 24 * raPats b + 4 * i
/-- Bytes of telegram block i. -/
def raTel (b : Bytes) (i : Nat) : Bytes := sl b (u16 b (raTelDir b i)) (u16 b (raTelDir b i + 2))
def prFreq (p : Bytes) : Nat := u32 p 0
def prRate (p : Bytes) : Nat := u32 p 4
def prDev (p : Bytes) : Nat := u16 p 8
def prBw (p : Bytes) : Nat := u16 p 10
def prMod (p : Bytes) : Nat := u8 p 12
def prCoding (p : Bytes) : Nat := u8 p 13
def prPower (p : Bytes) : Int := s8 p 14
def prPre (p : Bytes) : Nat := u8 p 15
def prSyncLen (p : Bytes) : Nat := u8 p 16
def prSyncErr (p : Bytes) : Nat := u8 p 17
def prSync (p : Bytes) : Nat := u32 p 20
def prDepth (p : Bytes) : Nat := u8 p 18
def winLen (p : Bytes) : Nat := u32 p 24
def winMax (p : Bytes) : Nat := u8 p 28
def telWin (p : Bytes) : Nat := u32 p 24
def telLen (p : Bytes) : Nat := u8 p 28
def telPayload (p : Bytes) : Bytes := sl p 32 (telLen p)
def patWrx (p : Bytes) : Nat := u8 p 0
def patLen (p : Bytes) : Nat := u8 p 1
def patRate (p : Bytes) : Nat := u16 p 2
def patMiss (p : Bytes) : Nat := u8 p 4
def patTrx (p : Bytes) : Nat := u8 p 5
def patWin (p : Bytes) : Nat := u8 p 6
def patPattern (p : Bytes) : Nat := u64 p 8
def patListen (p : Bytes) : Nat := u32 p 16

/-- Band 0 to 3 (B1 to B4) of a frequency (R308). -/
def bandOf (f : Nat) : Option Nat :=
  if 300000000 ≤ f && f ≤ 348000000 then some 0
  else if 387000000 ≤ f && f ≤ 464000000 then some 1
  else if 779000000 ≤ f && f ≤ 960000000 then some 2
  else if 2400000000 ≤ f && f ≤ 2483500000 then some 3 else none

/-- Window plan i, an override in force included (R582). -/
def winPlan (s : State) (i : Nat) : Bytes :=
  match s.ov.windows.find? (·.1 = i) with
  | some x => x.2
  | none => if i < raWins s.set.radio then raWin s.set.radio i else []

/-- Telegram block i, an override in force included. -/
def telBlock (s : State) (i : Nat) : Bytes :=
  match s.ov.telegrams.find? (·.1 = i) with
  | some x => x.2
  | none => if i < raTels s.set.radio then raTel s.set.radio i else []

/-- Band fitted on the port of a transceiver. -/
def fitted (s : State) (trx band : Nat) : Bool := (raBands s.set.radio trx).testBit band

/-! ### RANGING (R362), an override in force included -/

def rangingSec (s : State) : Bytes :=
  match s.ov.ranging with
  | some o => s.set.ranging.take 9 ++ o ++ s.set.ranging.drop 20
  | none => s.set.ranging

/-! ### TIME (R163) -/

/-- The TIME section of the built-in defaults (R163, R116). -/
def defaultTime : Bytes :=
  [0, 255, 0, 0, 2, 255, 0, 0, 0xFD, 0, 3, 0] ++ leBytes 2 0x8000 ++ leBytes 2 0x2000 ++ leBytes 2 100 ++ leBytes 2 100
    ++ leBytes 2 200 ++ leBytes 2 100 ++ leBytes 4 20000 ++ leBytes 2 10 ++ [0, 0] ++ List.replicate 96 0

def timeSec (s : State) : Bytes := if s.set.time = [] then defaultTime else s.set.time
def tiDomain (s : State) (d : Dom) : Nat := u8 (timeSec s) (match d with | .pri => 0 | .red => 1)
def tiRole (s : State) (d : Dom) : Nat := u8 (timeSec s) (match d with | .pri => 2 | .red => 3)
def tiSlave (s : State) (d : Dom) : Nat := u8 (timeSec s) (match d with | .pri => 4 | .red => 5)
def tiMaster (s : State) (d : Dom) : Nat := u8 (timeSec s) (match d with | .pri => 6 | .red => 7)
def tiLogSync (s : State) : Int := s8 (timeSec s) 8
def tiTimeout (s : State) : Nat := u8 (timeSec s) 10
def tiPdelayOff (s : State) : Nat := u8 (timeSec s) 11
def tiKp (s : State) : Nat := u16 (timeSec s) 12
def tiKi (s : State) : Nat := u16 (timeSec s) 14
def tiLock (s : State) : Nat := u16 (timeSec s) 16
def tiXcheck (s : State) : Nat := u16 (timeSec s) 18
def tiSuspect (s : State) : Nat := u16 (timeSec s) 20
def tiSlew (s : State) : Nat := u16 (timeSec s) 22
def tiStep (s : State) : Nat := u32 (timeSec s) 24
def tiRevert (s : State) : Nat := u16 (timeSec s) 28
def tiIng (s : State) (p : Nat) : Int := s16 (timeSec s) (32 + 12 * p)
def tiEgr (s : State) (p : Nat) : Int := s16 (timeSec s) (34 + 12 * p)
def tiAsym (s : State) (p : Nat) : Int := s32 (timeSec s) (36 + 12 * p)
def tiStored (s : State) (p : Nat) : Nat := u32 (timeSec s) (40 + 12 * p)

/-! ### NETWORK (R564, R565) -/

/-- DEV_MAC of the built-in defaults, from bytes 2 to 7 of the unique identifier (R566). -/
def defaultMac : Bytes :=
  let b := leBytes 8 Config.uid.toNat
  (sl b 2 1).map (fun x => (x &&& 0xFE) ||| 2) ++ sl b 3 5

/-- The NETWORK section of the built-in defaults: P2 to P5 and P8 forward untagged, learning, no flows; CAN0 at
500 kbit/s (R116, R566; the bit timing and VLAN 1 are DESIGN CHOICE, log 11). -/
def defaultNetwork : Bytes :=
  [0x3C, 0, 0, 0, 0, 0, 1, 0, 1, 0, 0x5E, 0, 0, 0] ++ defaultMac ++ leBytes 4 300 ++ leBytes 2 100 ++ [0, 0]
    ++ leBytes 2 64 ++ leBytes 2 8 ++ leBytes 2 320 ++ leBytes 2 0 ++ leBytes 2 320 ++ leBytes 2 1
    ++ (List.replicate 5 (leBytes 2 328 ++ leBytes 2 0)).flatten ++ leBytes 2 328 ++ leBytes 2 1
    ++ (List.replicate 8
        (leBytes 2 1 ++ leBytes 3 0xFAC681 ++ [0x08] ++ List.replicate 22 0 ++ [255, 8, 32, 0])).flatten
    ++ leBytes 2 1 ++ leBytes 2 0x13C ++ leBytes 2 0x13C ++ [0, 0]
    ++ [0, 0, 4, 4] ++ leBytes 2 15 ++ [4, 1, 15, 4, 4, 0] ++ leBytes 4 0

def netSec (s : State) : Bytes := if s.set.network = [] then defaultNetwork else s.set.network
/-- Offset and count of sub-table i: 0 ports, 1 gates, 2 VLANs, 3 static, 4 flows, 5 stream gates, 6 meters, 7 recovery,
8 CAN. -/
def netDir (b : Bytes) (i : Nat) : Nat × Nat := (u16 b (28 + 4 * i), u16 b (30 + 4 * i))
/-- Record j of sub-table i with the given record length. -/
def netRec (b : Bytes) (i len j : Nat) : Bytes := sl b ((netDir b i).1 + len * j) len
def nwPortEn (b : Bytes) (p : Nat) : Bool := p == 8 || bit (u8 b 0) p
def nwPermitPorts (b : Bytes) : Nat := u8 b 4
def nwPermitRtag (b : Bytes) : Nat := u8 b 5
def nwPermitVid (b : Bytes) : Nat := u16 b 6
def nwPermitDa (b : Bytes) : Bytes := sl b 8 6
def nwDevMac (b : Bytes) : Bytes := sl b 14 6
def nwAge (b : Bytes) : Nat := u32 b 20
def nwP8Rate (b : Bytes) : Nat := u16 b 24
def nwCanPermit (b : Bytes) : Nat := u8 b 26
/-- Port record; P8 has none. -/
def nwPort (b : Bytes) (p : Nat) : Bytes := netRec b 0 32 p
/-- The record of a CAN controller, empty when there is none. -/
def nwCan (b : Bytes) (n : Nat) : Bytes :=
  (((List.range (netDir b 8).2).map (netRec b 8 16)).find? (fun r => u8 r 0 = n)).getD []

/-! ### DIAG (R598) -/

/-- The DIAG section of the built-in defaults (R599). -/
def defaultDiag : Bytes :=
  leBytes 4 0 ++ [16, 1] ++ leBytes 2 1 ++ leBytes 4 0 ++ leBytes 2 0x0648 ++ leBytes 2 47200 ++ leBytes 4 0x7A0
    ++ leBytes 4 0x7A8 ++ leBytes 4 0x7DF ++ [0, 0, 0, 0]
    ++ (List.replicate 7 (List.replicate 24 0 ++ [255] ++ List.replicate 7 0)).flatten

def diagSec (s : State) : Bytes := if s.set.diag = [] then defaultDiag else s.set.diag
def dgIp (b : Bytes) : Nat := u32 b 0
def dgCan (b : Bytes) : Nat := u8 b 5
def dgVid (b : Bytes) : Nat := u16 b 6
def dgLa (b : Bytes) : Nat := u16 b 12
def dgAspPort (b : Bytes) : Nat := u16 b 14
def dgReqId (b : Bytes) : Nat := u32 b 16
def dgRespId (b : Bytes) : Nat := u32 b 20
def dgFuncId (b : Bytes) : Nat := u32 b 24
def dgAnchors (b : Bytes) : Nat := u8 b 28
def dgDids (b : Bytes) : Nat := u8 b 29
/-- Record of page n, 1 to 7. -/
def dgPage (b : Bytes) (n : Nat) : Bytes := sl b (32 * n) 32
def dgAnchor (b : Bytes) (i : Nat) : Bytes := sl b (256 + 520 * i) 520
/-- Constant DIDs from an offset. -/
def dgDidsFrom (b : Bytes) : Nat → Nat → List (Nat × Bytes)
  | _, 0 => []
  | off, n + 1 => (u16 b off, sl b (off + 3) (u8 b (off + 2))) :: dgDidsFrom b (off + 3 + u8 b (off + 2)) n
def dgDidList (b : Bytes) : List (Nat × Bytes) := dgDidsFrom b (256 + 520 * dgAnchors b) (dgDids b)

/-! ### POLICY (R136, R501) -/

/-- The default ladder: sources 4 to 7 take FIRST = LATER = 1 (R501). -/
def defaultLadder : Bytes :=
  List.replicate 8 0 ++ List.replicate 16 0 ++ ([9, 0, 0, 0] ++ [9, 0, 0, 0] ++ [9, 0, 0, 0] ++ [9, 0, 0, 0])

/-- The policy with its tamper part: the power part is 0 by default (DESIGN CHOICE, log 12). -/
def policyOf (p : Bytes) : Bytes :=
  if p.length < 56 then padTo 16 p ++ defaultLadder else p

def policySec (s : State) : Bytes := policyOf s.set.policy
def poShedCrank (b : Bytes) : Nat := u16 b 0
def poShedTherm (b : Bytes) : Nat := u16 b 2
def poIdle (b : Bytes) : Nat := u16 b 4
def poHeathFallow (b : Bytes) : Nat := u16 b 6
def poWakeHeath (b : Bytes) : Nat := u16 b 8
def poWakeFallow (b : Bytes) : Nat := u16 b 10
def poWakeEdge (b : Bytes) : Nat := u8 b 12
def poDebounce (b : Bytes) : Nat := u8 b 13
def poPinMode (b : Bytes) (i : Nat) : Nat := u8 b (16 + i)
def poFirst (b : Bytes) (i : Nat) : Nat := u8 b (24 + 4 * i) % 8
def poLater (b : Bytes) (i : Nat) : Nat := u8 b (24 + 4 * i) / 8 % 8
def poEsc (b : Bytes) (i : Nat) : Nat := u8 b (25 + 4 * i)
def poErase (b : Bytes) (i : Nat) : Nat := u8 b (26 + 4 * i) % 16
def poAction (b : Bytes) (i : Nat) : Nat := u8 b (27 + 4 * i)

/-! ### ZONES (R359) -/

def znCount (b : Bytes) : Nat := u8 b 0
def znRec (b : Bytes) (i : Nat) : Bytes := sl b (4 + 72 * i) 72

/-! ### TIMETABLE (R195) -/

def ttCount (b : Bytes) : Nat := u16 b 0
def ttRec (b : Bytes) (i : Nat) : Bytes := sl b (4 + 32 * i) 32
def enKind (e : Bytes) : Nat := u8 e 0
def enFlags (e : Bytes) : Nat := u8 e 1
def enUnit (e : Bytes) : Nat := u8 e 2
def enRef (e : Bytes) : Nat := u32 e 4
def enTime (e : Bytes) : Nat := u64 e 8
def enPeriod (e : Bytes) : Nat := u32 e 16
def enMin (e : Bytes) : Nat := u32 e 20
def enCount (e : Bytes) : Nat := u32 e 24

/-! ### The access profile (R376) -/

def pfEnable (p : Bytes) : Nat := u8 p 1
def pfDevice (p : Bytes) : Nat := u16 p 2
def pfPermitSlot (p : Bytes) : Nat := u8 p 4
def pfSessionMc (p : Bytes) : Nat := u8 p 5
def pfStartCoil (p : Bytes) : Nat := u8 p 6
def pfMaxKeys (p : Bytes) : Nat := u8 p 7
def pfCoilI (p : Bytes) : Nat := u16 p 8
def pfTokenPhase (p : Bytes) : Nat := u16 p 10
def pfHold (p : Bytes) : Nat := u16 p 12
def pfRkeWindow (p : Bytes) : Nat := u16 p 14
/-- The pin record of WAKEn, or the approach record for n = 8. -/
def pfRec (p : Bytes) (n : Nat) : Bytes := sl p (16 + 8 * n) 8
def prRole (r : Bytes) : Nat := u8 r 0
def prFrame (r : Bytes) : Nat := u8 r 1
def prScan (r : Bytes) : Nat := u8 r 2
def prRx (r : Bytes) : Nat := u8 r 3
def prTx (r : Bytes) : Nat := u8 r 4
def prTrx (r : Bytes) : Nat := u8 r 5

/-- The stored form of a credential (R378). -/
def credBytes (i : Nat) (c : Cred) : Bytes :=
  [BitVec.ofNat 8 i, BitVec.ofNat 8 c.st, BitVec.ofNat 8 c.slot, BitVec.ofNat 8 c.counter, c.attr,
   BitVec.ofNat 8 c.keyGen, 0, 0] ++ beBytes 8 c.id.toNat ++ leBytes 4 c.lastKc ++ leBytes 4 c.notBefore
    ++ leBytes 4 c.notAfter ++ [0, 0, 0, 0]

/-- A credential read from its stored form. -/
def credOf (b : Bytes) : Cred :=
  { Cred.empty with
    st := u8 b 1, slot := u8 b 2, counter := u8 b 3, attr := BitVec.ofNat 8 (u8 b 4), keyGen := u8 b 5,
    id := BitVec.ofNat 64 (beNat (sl b 8 8)), lastKc := u32 b 16, notBefore := u32 b 20, notAfter := u32 b 24 }

/-! ### Descriptors (R419) -/

def dsKind (d : Bytes) : Nat := u8 d 0
def dsFlags (d : Bytes) : Nat := u8 d 1
def dsSlot (d : Bytes) : Nat := u8 d 2
def dsGen (d : Bytes) : Nat := u8 d 3
def dsSeq (d : Bytes) : BitVec 32 := BitVec.ofNat 32 (u32 d 4)
def dsSrc (d : Bytes) : Nat := u32 d 8
def dsSrcLen (d : Bytes) : Nat := u32 d 12
def dsDst (d : Bytes) : Nat := u32 d 16
def dsDstLen (d : Bytes) : Nat := u32 d 20
def dsUser (d : Bytes) : Bytes := sl d 24 8
def dsParams (d : Bytes) : Bytes := sl d 32 32

/-! ### The image in flash (R110) -/

def imCount (h : Bytes) : Nat := u16 h 6
def imLen (h : Bytes) : Nat := u32 h 8
def imSec (h : Bytes) : Nat := u16 h 12
def imRom (h : Bytes) : Nat := u16 h 14
def imMaker (h : Bytes) : Nat := u32 h 16
/-- Entry i of the section table. -/
def imEntry (h : Bytes) (i : Nat) : Bytes := sl h (64 + 80 * i) 80
def seType (e : Bytes) : Nat := u16 e 0
def seRev (e : Bytes) : Nat := u16 e 2
def seOff (e : Bytes) : Nat := u32 e 4
def seLen (e : Bytes) : Nat := u32 e 8
def seDigest (e : Bytes) : Bytes := sl e 16 64

end Sys2Proof.Machine
end

