-- ==== Sys2Proof/Machine/Flags.lean ====
section
/-! DEFINITION. Every flag computed from the state: interrupt classes (R627), hold conditions (R131), powered domains (R127),
pins (R48), and what every command does at its end (R34, R48, R577, R583). -/

namespace Sys2Proof.Machine

/-! ### Interrupt classes -/

/-- Class n of R627 has an event pending. -/
def irqClass (s : State) : Nat → Bool
  | 0 => s.acc.evt != 0
  | 1 => s.sup.evt != 0
  | 2 => s.pwr.wakeSrc != 0
  | 3 => s.clk.evt != 0
  | 4 => s.tt.evt != 0
  | 5 => s.lf.evt != 0 || s.kl.evt != 0
  | 6 => s.uhf.evt != 0
  | 7 => s.loc.evt != 0
  | 8 => s.job.evt != 0
  | 9 => s.cip.aesEvt != 0 || s.cip.hpkEvt != 0
  | 10 => s.rng.evt != 0
  | 11 => s.ks.evt != 0
  | 12 => s.nvm.evt != 0
  | 13 => s.tmp.evt != 0
  | 14 => s.sw.evt != 0 || s.can.toList.any (fun c => c.evt != 0)
  | 15 => s.diag.evt != 0
  | 16 => s.flt.evt != 0
  | 17 => (s.spi.ringIrq &&& 0xFF0) != 0
  | 18 => (vget s.pages 1 Page.reset).outQ != []
  | _ => false

/-- Bits `0..n-1` gathered from a predicate. -/
def bitsOf (f : Nat → Bool) : Nat → Nat
  | 0 => 0
  | n + 1 => bitsOf f n + (if f n then 2 ^ n else 0)

/-- SYS_IRQ_STAT (R601). -/
def irqStat (s : State) : Nat := bitsOf (irqClass s) 19

/-- HIRQ is driven low (R577). -/
def hirqLow (s : State) : Bool :=
  s.boot.ready && ppbOn s && (BitVec.ofNat 19 (irqStat s) &&& s.spi.irqEn) != 0

/-! ### Power domains (R127, R154) -/

/-- A wake source of a bit of R136 is enabled in the present sleep state. -/
def wakeEnabled (s : State) (bitNo : Nat) : Bool :=
  (if s.pwr.st == .heath then poWakeHeath (policySec s) else poWakeFallow (policySec s)).testBit bitNo

/-- A wake has begun at a pin's edge and its debounce runs (R139). -/
def pinWaking (s : State) : Bool := asleep s && s.pwr.debounce.any (fun d => wakeEnabled s d.1)

/-- An entry that is preparing, waiting or running. -/
def entryActive (e : Entry) : Bool := e.st == .preparing || e.st == .waiting || e.st == .running

/-- Some entry that `p` selects exists. -/
def anyEntry (s : State) (p : Entry → Bool) : Bool :=
  s.tt.entries.toList.any (fun x => match x with | some e => p e | none => false)

/-- An event in Heath that pair A serves: a pin wake, a sequence or round, a telegram that waits, or the run-time entries of a
poll or a follow-on window (R127, R143). DEDUCED, log 36. -/
def heathServing (s : State) : Bool :=
  s.pwr.st == .heath && (pinWaking s || s.acc.seqn.isSome || s.acc.round.isSome || s.acc.remotes != []
    || anyEntry s (fun e => e.owner != .settings))

/-- An entry of kinds 4 to 6 is served. -/
def uhfServing (s : State) : Bool := anyEntry s (fun e => entryActive e && (e.kind == 4 || e.kind == 5 || e.kind == 6))

/-- Ports P0 to P7 shed, as a mask (R68, R70, R92). -/
def shedMask (s : State) : Nat := (s.sup.shedCrank ||| s.sup.shedTherm ||| s.sup.shedVio).toNat

/-- A port of P0 to P7 is enabled and not shed. -/
def portPowered (s : State) (p : Nat) : Bool := nwPortEn (netSec s) p && !(shedMask s).testBit p

/-- Domains that Run powers outside ride-through: as configured, less shed ports. -/
def runDomains (s : State) : Nat :=
  1 + (if !s.sup.thermOff && raWrxEn s.set.radio ≠ 0 then 2 else 0) + 4 + (if hasRole s 0 then 8 else 0)
    + (if hasRole s 1 then 16 else 0) + 32 + 64 + 128
    + (if [2, 3, 4, 5].any (portPowered s) then 256 else 0)
    + (if portPowered s 6 || portPowered s 7 || s.can.toList.any (·.on) then 512 else 0)
    + (if !s.sup.thermOff && (raBands s.set.radio 0 ≠ 0 || raBands s.set.radio 1 ≠ 0) then 1024 else 0)
    + (if !s.sup.thermOff && (s.sup.vdrvOn || s.job.ops.any (fun o => dsKind o.desc = 9 && o.result.isNone)) then 2048 else 0)

/-- Domains powered, in the bit order of R154. -/
def domainOn (s : State) : Nat :=
  match s.pwr.st with
  | .run => if s.sup.region == .ride then 1 + 4 + (if hasRole s 0 then 8 else 0) + 32 + 64 else runDomains s
  | .startUp => if s.boot.step ≥ 2 then 1 + 4 + 8 + 16 + 32 + 64 else 1
  | .heath =>
    1 + (if s.uhf.wrx.toList.any (·.on) then 2 else 0) + (if heathServing s then 4 + 8 + 32 + 64 else 0)
      + (if heathServing s || uhfServing s then 1024 else 0) + (if s.sup.vdrvOn || pinWaking s then 2048 else 0)
  | .fallow => 1 + (if pinWaking s then 4 + 8 + 32 + 64 + 1024 + 2048 else 0)
  | .waitNoPair => 1

/-- The SEC and NVM domains are powered. -/
def secNvmOn (s : State) : Bool := isRun s || s.pwr.st == .startUp || heathServing s

/-! ### Hold conditions of R131 -/

def holdPermit (s : State) : Bool := s.permit.latch
def holdAccess (s : State) : Bool := s.acc.seqn.isSome || s.acc.round.isSome
def holdDiag (s : State) : Bool := s.diag.conns.toList.any (fun c => c.session != 1)
def holdNvm (s : State) : Bool := s.boot.swp
def holdSupply (s : State) : Bool := s.sup.region != .full
def holdJobs (s : State) : Bool := s.job.ops != []
/-- A wake source enabled for the requested state is asserted. -/
def holdWake (s : State) : Bool :=
  let en := if s.pwr.req = 1 then poWakeHeath (policySec s) else poWakeFallow (policySec s)
  s.pwr.req != 0 && (s.pwr.wakePins &&& BitVec.ofNat 8 en) != 0

/-- Some hold condition is true. -/
def held (s : State) : Bool :=
  holdPermit s || holdAccess s || holdDiag s || holdNvm s || holdSupply s || holdJobs s || holdWake s

/-! ### Events of the ASP sessions (R583) -/

/-- A setting reaches a page that subscribes its class: settings within 1 ms of the first are coalesced. A setting in RING
names the ring, and counts when the ring is the page's. -/
def evAdd (now : Nat) (t : BitVec 48) (n : Nat) (p : Page) (x : Nat × Nat) : Page :=
  let v := if x.1 = 17 then 2 ^ (x.2 - ringFirst n) else x.2
  if p.aspKey.isNone || !p.subs.getLsbD x.1 || (x.1 = 17 && ringPage x.2 ≠ n) then p
  else if p.evPend.any (fun e => e.1 = x.1) then
    { p with evPend := p.evPend.map (fun e => if e.1 = x.1 then (e.1, e.2.1 ||| v, e.2.2) else e) }
  else { p with evPend := p.evPend ++ [(x.1, v, now, t)] }

/-- The pages with the events of the present command. -/
def evPages (a : State) : Vector Page 8 :=
  Vector.ofFn (fun (i : Fin 8) => a.evLog.foldl (evAdd a.elapsed (now48 a) i.val) (vget a.pages i.val Page.reset))

/-! ### Pins (R48) -/

/-- The converter's mode by VBAT against the setpoint in use (R85). -/
def vdrvMode (s : State) : VdrvMode :=
  if !s.sup.vdrvOn then .stopped
  else if s.sup.vbat + 1000 < 100 * s.sup.vdrvSet then .boost
  else if s.sup.vbat > 100 * s.sup.vdrvSet + 1000 then .buck
  else .buckBoost

/-- A pin of a domain that only Run powers: `r` in start-up, `x` in Run outside ride-through, off otherwise. -/
def runPin (s : State) (r x : PinState) : PinState :=
  match s.pwr.st with
  | .run => if s.sup.region == .ride then .off else x
  | .startUp => r
  | .waitNoPair => r
  | _ => .off

/-- The level of a pulse output: active for its pulse, by POL (R193). -/
def tpoPin (t : Tpo) : PinState := if t.activeUntil.isSome != t.pol then .high else .low

/-- NRST is driven low: in a reset until step 2 of R97, and while no pair passes (R52, R605). -/
def nrstDriven (s : State) : Bool := (s.pwr.st == .startUp && decide (s.boot.step = 1)) || s.pwr.st == .waitNoPair

/-- The radio port is in use: its transceiver receives or transmits, or a wake receiver listens (R48). -/
def rfPin (s : State) (n : Nat) : PinState :=
  let t := (vget s.uhf.trx n Trx.reset).st
  if t == .receive || t == .transmit || [0, 1, 2].any (fun i => (vget s.uhf.wrx (3 * n + i) Wrx.reset).on) then .active else .off

/-- The pins as the state leaves them (R48). DEDUCED, log 134. -/
def pinsOf (s : State) : Pins :=
  { nrst := if nrstDriven s then .low else .released,
    vio := runPin s .off .active,
    vdrv := vdrvMode s,
    xo40 := match s.pwr.st with
      | .heath => if heathServing s || uhfServing s || s.sup.vdrvOn then .active else .off
      | .fallow => if pinWaking s then .active else .off
      | _ => .active,
    xo32 := if s.pwr.st == .fallow then .off else .active,
    rf := Vector.ofFn (fun i => rfPin s i.val),
    hspi := if ppbOn s then .input else .off,
    fcsn := runPin s .high .high,
    fio := runPin s .input .input,
    dbg := .input,
    tpo := s.clk.tpo.map (fun t => runPin s .low (tpoPin t)),
    tmp := s.tmp.mode.map (fun m => if m = 3 then .active else .input),
    canTx := s.can.map (fun c => runPin s .high (if c.on then .active else .high)),
    canRx := Vector.replicate 2 (runPin s .input .input),
    port := Vector.ofFn (fun i => runPin s .off (if (vget s.sw.ports i.val Port.reset).rate = 0 then .off else .active)),
    mdc := runPin s .low .active,
    mdio := runPin s .input .input }

/-! ### The end of every command -/

/-- What every command leaves: the queue is as it was, the latch obeys its deny levels, the permit outputs follow the
latch (R34, R49), HIRQ follows its mask (R577), the pins follow the blocks (R48) and the events set reach their subscribers
(R583). -/
def settle (b a : State) : State :=
  { a with
    pending := b.pending
    evLog := []
    pages := evPages a
    pins := pinsOf a
    permit.latch := a.permit.latch && !denyLevel a
    permit.spA := a.permit.latch && !denyLevel a
    permit.spB := a.permit.latch && !denyLevel a
    spi.hirq := hirqLow a }

/-- A command's outcome: its effect, settled. -/
def done (s : State) (a : State) : Host.Outcome State Fault Refusal := .next (settle s a)

/-- A command that carries VBAT in mV: beyond 45 V the part is overstressed (R65). A reversed VBAT is carried as 0 mV, at which
the permit latch is in deny as R90 says. DESIGN CHOICE, log 113. -/
def withVbat (mv : Nat) (s : State) (f : State → State) : Host.Outcome State Fault Refusal :=
  if mv > 45000 then .fault .overstress else done s (f (seeVbat mv s))

end Sys2Proof.Machine
end

