-- ==== Sys2Proof/Machine/Nvm.lean ====
section
/-! DEFINITION. The record layer (R511 to R537): copies, selection, writes, the energy check, counters, wear; and the DTC
store and generator draws that other blocks use with it. -/

namespace Sys2Proof.Machine

/-! ### Energy (R522, R523); energies in nJ -/

/-- E_hold: 0.45 × C × (V² − 4.10²), C in 2 µF units, V the reading less 1 %. -/
def eHold (s : State) (mv : Nat) : Nat :=
  let v := mv * 99 / 100
  45 * (2 * s.sup.vholdCap) * (v * v - 4100 * 4100) / 100000

/-- E_res = 500 µJ × min(C, 150) / 150. -/
def eRes (s : State) : Nat := 500000 * (min (2 * s.sup.vholdCap) 150) / 150

/-- E_tam = 0.8 × E_res. -/
def eTam (s : State) : Nat := eRes s * 8 / 10

/-- E_wr of n groups: 8 + 2n µJ. -/
def eWr (n : Nat) : Nat := (8 + 2 * n) * 1000

/-- VBAT supplies the part (R523). -/
def vbatSupplies (s : State) : Bool := s.nvm.ledger.isNone

/-- The energy check for a write of n groups; `tam` marks a tamper write. C = 0 refuses every write, VHOLD_LOW alone none (R105, R504).
DEDUCED, log 133. -/
def energyOk (tam : Bool) (n : Nat) (s : State) : Bool :=
  let e := eHold s s.sup.vhold
  if s.sup.vholdCap = 0 || !s.sup.measured then false
  else match s.nvm.ledger with
    | none => decide (e ≥ eRes s + eWr n)
    | some l => decide (l * 1000 ≥ eWr n + (if tam then 0 else eTam s)) && decide (e ≥ eWr n)

/-- A started write lowers the ledger, in µJ. -/
def spend (n : Nat) (s : State) : State :=
  { s with nvm.ledger := s.nvm.ledger.map (fun l => l - eWr n / 1000) }

/-- VBAT stops supplying the part: the ledger is set to E_res (R523). -/
def ledgerStart (s : State) : State :=
  if s.nvm.ledger.isSome then s else { s with nvm.ledger := some (eRes s / 1000) }

/-! ### DTCs (R596) -/

/-- Mark a DTC's record: testFailed, pending, confirmed, testFailedSinceLastClear. -/
def dtcFailed : BitVec 8 := 0x2D

/-- The same, not yet confirmed (R257). -/
def dtcPending : BitVec 8 := 0x25

/-- A DTC's record is written: an oldest record with testFailed 0 is replaced when the store is full (R596). -/
def dtcPut (mask : BitVec 8) (code : Nat) (s : State) : State :=
  if s.diag.dtcs.any (·.code = code) then
    { s with diag.dtcs := s.diag.dtcs.map (fun d => if d.code = code then { d with st := d.st ||| mask } else d) }
  else if s.diag.dtcs.length < 64 then
    evDiag 0 { s with diag.dtcs := s.diag.dtcs ++ [{ code := code, st := mask, starts := 0 }] }
  else
    match s.diag.dtcs.findIdx? (fun d => !d.st.getLsbD 0) with
    | some i => evDiag 0 { s with
        diag.dtcs := s.diag.dtcs.eraseIdx i ++ [{ code := code, st := mask, starts := 0 }] }
    | none => evDiag 1 s

/-- Store or renew a DTC. Its record, of four groups (R517), is written when the energy check admits it; one refused, or raised before
the VHOLD measurement, waits (R104, R105, R524). DESIGN CHOICE, log 127. -/
def dtcStore (mask : BitVec 8) (code : Nat) (s : State) : State :=
  if s.diag.dtcs.any (fun d => d.code = code && d.st &&& mask == mask) then s
  else if energyOk false 4 s then dtcPut mask code (spend 4 s)
  else
    { (if s.sup.measured then evNvm 3 s else s) with
      diag.waiting := s.diag.waiting.filter (fun w => w.1 ≠ code) ++ [(code, mask)] }

/-- Records that wait are written once the check admits them. -/
def dtcRetry (s : State) : State :=
  if s.diag.waiting = [] || !energyOk false 4 s then s
  else s.diag.waiting.foldl (fun s w => dtcStore w.2 w.1 s) { s with diag.waiting := [] }

/-- Raise a DTC with a status mask and keep its condition. -/
def dtcRaise (mask : BitVec 8) (code : Nat) (s : State) : State :=
  let s := dtcStore mask code s
  if s.diag.conditions.contains code then s else { s with diag.conditions := s.diag.conditions ++ [code] }

/-- Raise a DTC, confirmed at once. -/
def dtc (code : Nat) (s : State) : State := dtcRaise dtcFailed code s

/-- Raise a DTC of an LF channel: confirmed only after two consecutive start-ups with the condition (R257).
DEDUCED, log 49. -/
def dtcLf (code : Nat) (s : State) : State := dtcRaise dtcPending code s

/-- A DTC's condition has ended: testFailed clears. -/
def dtcClear (code : Nat) (s : State) : State :=
  { s with
    diag.conditions := s.diag.conditions.filter (· != code)
    diag.waiting := s.diag.waiting.filter (fun w => w.1 ≠ code)
    diag.dtcs := s.diag.dtcs.map (fun d => if d.code = code then { d with st := d.st &&& 0xFE } else d) }

/-! ### Frames and copies -/

/-- Groups of a copy: header and payload (R514). -/
def copyGroups (len : Nat) : Nat := 1 + (len + 15) / 16

/-- Frames of a copy, four groups each. -/
def copyFrames (len : Nat) : Nat := (copyGroups len + 3) / 4

/-- A copy is valid: its header and its payload check (R516). -/
def Copy.valid (c : Copy) : Bool := c.hdrOk && c.ok

/-- The bank's copy of a record: the valid run with the highest SEQ, or a run that is not valid (R516). -/
def bankCopy (bank : List Copy) (rid : Nat) : Option Copy :=
  let runs := bank.filter (fun c => c.rid = rid && c.hdrOk)
  match runs.filter (·.valid) with
  | [] => runs.head?
  | c :: r => some (r.foldl (fun a b => if (b.seq - a.seq).toInt > 0 then b else a) c)

/-- Outcome of selection (R518). -/
inductive Sel where
  | absent
  | bad
  /-- the selected copy, whether it is copy U, and CONFLICTED -/
  | copy (c : Copy) (u : Bool) (conflict : Bool)
deriving DecidableEq, Repr

/-- Selection of a copy (R518). -/
def select (s : State) (rid : Nat) : Sel :=
  match bankCopy s.nvm.lower rid, bankCopy s.nvm.upper rid with
  | none, none => .absent
  | some l, none => if l.valid then .copy l false false else .bad
  | none, some u => if u.valid then .copy u true false else .bad
  | some l, some u =>
    if l.valid && u.valid then
      if (u.seq - l.seq).toInt > 0 then .copy u true false
      else if (u.seq - l.seq).toInt < 0 then .copy l false false
      else if l.data = u.data then .copy l false false
      else .copy l false true
    else if l.valid then .copy l false false
    else if u.valid then .copy u true false
    else .bad

/-- CONFLICTED found (R519). -/
def noteSel (x : Sel) (s : State) : State :=
  match x with
  | .copy _ _ true => dtc 0xB77100 (evNvm 1 s)
  | .bad => evNvm 2 s
  | _ => s

/-- Payload of the selected copy. -/
def recRead (s : State) (rid : Nat) : Option Bytes :=
  match select s rid with
  | .copy c _ _ => some c.data
  | _ => none

/-- A copy's last frame plus one. -/
def Copy.endFrame (c : Copy) : Nat := c.frame + copyFrames c.data.length

/-- Frames f to f+n-1 are free in a bank. -/
def framesFree (bank : List Copy) (f n : Nat) : Bool :=
  f + n ≤ 3552 && bank.all (fun c => c.endFrame ≤ f || f + n ≤ c.frame)

/-- Highest WEAR of free frames f to f+n-1. -/
def freeWear (wears : List (Nat × Nat)) (f n : Nat) : Nat :=
  wears.foldl (fun a x => if f ≤ x.1 && x.1 < f + n then max a x.2 else a) 0

/-- The free run whose highest WEAR is lowest, the lowest frame on a tie (R530; the tie is DESIGN CHOICE, log 13). -/
def findRun (bank : List Copy) (wears : List (Nat × Nat)) (n : Nat) : Option Nat :=
  match (0 :: bank.map Copy.endFrame).filter (fun f => framesFree bank f n && freeWear wears f n = 0) with
  | f :: r => some (r.foldl min f)
  | [] =>
    ((List.range 3552).filter (fun f => framesFree bank f n)).foldl
      (fun a f => match a with
        | none => some f
        | some g => if freeWear wears f n < freeWear wears g n then some f else some g) none

/-- Header and CRC fields of a copy as stored (R514). -/
def copyHeader (c : Copy) : Bytes :=
  let h := [0xA5, BitVec.ofNat 8 c.data.length] ++ leBytes 2 c.rid ++ leBytes 4 c.seq.toNat ++ leBytes 2 c.wear
  h ++ leBytes 2 (crc16 h) ++ leBytes 4 (crc32 (h ++ c.data))

/-- Count one write of a copy in units of 4 (R514). -/
def wearOne (c : Copy) : Copy :=
  if c.sub ≥ 3 then { c with wear := c.wear + 1, sub := 0 } else { c with sub := c.sub + 1 }

/-- Outcome of a record write. -/
inductive WriteRes where
  /-- sequence number, and target copy U -/
  | ok (seq : BitVec 32) (u : Bool)
  | lowEnergy
  | eccError
deriving DecidableEq, Repr

/-- Put a verified copy into a bank: the bank's runs of the record but the kept ones are replaced. -/
def bankPut (bank : List Copy) (old : Option Copy) (c : Copy) : List Copy :=
  (match old with
   | some o => bank.filter (fun x => !(x.frame = o.frame))
   | none => bank) ++ [c]

/-- Program a payload into one bank (R520, R530): the run is the copy's own, or a new one when none exists, the size
changes or WEAR has reached 12,500; a failed verification moves once to a new run. -/
def program (u : Bool) (rid : Nat) (seq : BitVec 32) (data : Bytes) (v1 v2 : Bool) (s : State) : Bool × State :=
  let bank := if u then s.nvm.upper else s.nvm.lower
  let wears := if u then s.nvm.freeUpper else s.nvm.freeLower
  let old := bankCopy bank rid
  let n := copyFrames data.length
  let fresh := findRun bank wears n
  let reloc := match old, fresh with
    | some o, some f => copyFrames o.data.length ≠ n || (o.wear ≥ 12500 && freeWear wears f n + 2500 ≤ o.wear)
    | some _, none => false
    | none, _ => true
  let setBank := fun (b : List Copy) (s : State) =>
    if u then { s with nvm.upper := b } else { s with nvm.lower := b }
  let place := fun (f : Nat) (w : Nat) (sub : Nat) =>
    wearOne { rid := rid, seq := seq, wear := w, sub := sub, frame := f, data := data, hdrOk := true, ok := true }
  let target : Option Copy :=
    if reloc then fresh.map (fun f => place f (freeWear wears f n) 0)
    else (old.filter (fun o => n ≤ copyFrames o.data.length)).map (fun o => place o.frame o.wear o.sub)
  let moved := fun (s : State) => match old with
    | some o => if reloc then evNvm 4 { s with nvm.freeing := s.nvm.freeing ++ [(u, o.frame, copyFrames o.data.length, o.wear)] } else s
    | none => s
  match target with
  | none => (false, dtc 0xB77102 (evNvm 5 s))
  | some c =>
    if v1 then (true, moved (setBank (bankPut bank old c) s))
    else
      let bank1 := bankPut bank old { c with ok := false }
      match findRun bank1 wears n with
      | some f =>
        if v2 then (true, evNvm 4 (setBank (bankPut bank1 (some c) (place f (freeWear wears f n) 0)) s))
        else (false, dtc 0xB77102 (evNvm 5 (setBank bank1 s)))
      | none => (false, dtc 0xB77102 (evNvm 5 (setBank bank1 s)))

/-- Highest SEQ among the record's headers that pass, for the write after ECC_ERROR (R520). -/
def highSeq (s : State) (rid : Nat) : BitVec 32 :=
  let l := (s.nvm.lower ++ s.nvm.upper).filter (fun c => c.rid = rid && c.hdrOk)
  match l with
  | [] => 0
  | c :: r => r.foldl (fun a b => if (b.seq - a).toInt > 0 then b.seq else a) c.seq

/-- A record write (R520, R524); `tam` marks a tamper write, `force` a target that R120 names. -/
def recWriteV (tam : Bool) (force : Option Bool) (v1 v2 : Bool) (rid : Nat) (data : Bytes) (s : State) :
    WriteRes × State :=
  let sel := select s rid
  let s := noteSel sel s
  let seq : BitVec 32 := match sel with
    | .absent => 1
    | .bad => 1 + highSeq s rid
    | .copy c _ conflict => c.seq + (if conflict then 2 else 1)
  let u : Bool := match sel with
    | .absent => false
    | .bad => false
    | .copy c u _ => match bankCopy s.nvm.lower rid, bankCopy s.nvm.upper rid with
      | some l, some w => if l.valid && w.valid && l.seq = w.seq then true else !u
      | _, _ => if c.valid then !u else u
  let u := force.getD u
  if !energyOk tam (copyGroups data.length) s then (.lowEnergy, evNvm 3 s)
  else
    let r := program u rid seq data v1 v2 (spend (copyGroups data.length) s)
    (if r.1 then .ok seq u else .eccError, r.2)

/-- A record write of the part's own, verifying at once. DESIGN CHOICE, log 83. -/
def recWrite (tam : Bool) (rid : Nat) (data : Bytes) (s : State) : WriteRes × State :=
  recWriteV tam none true true rid data s

/-- A record write whose refusal changes nothing further. -/
def recTry (rid : Nat) (data : Bytes) (s : State) : State := (recWrite false rid data s).2

/-- The write ended OK. -/
def WriteRes.isOk : WriteRes → Bool
  | .ok _ _ => true
  | _ => false

/-! ### Counters (R525 to R529) -/

/-- The counter is readable. -/
def Ctr.readable (c : Ctr) : Bool := c.v0 || c.v1

/-- The counter's value v (R526). -/
def Ctr.value (c : Ctr) : Nat :=
  max (if c.v0 then c.b0 + c.t0 else 0) (if c.v1 then c.b1 + c.t1 else 0)

/-- The active row, row 0 on a tie. -/
def Ctr.active (c : Ctr) : Nat := if c.v0 && (c.b0 + c.t0 = c.value) then 0 else 1

/-- Write the other row's header with base b; the ticks of that row are clear. -/
def Ctr.header (c : Ctr) (b : Nat) : Ctr :=
  if c.active = 0 then { c with b1 := b, t1 := 0, v1 := true, preclear := some 0 }
  else { c with b0 := b, t0 := 0, v0 := true, preclear := some 1 }

/-- One increment (R527). -/
def Ctr.inc (c : Ctr) : Ctr :=
  if c.active = 0 then
    if c.t0 < 16 then { c with t0 := c.t0 + 1 } else c.header (c.value + 1)
  else if c.t1 < 16 then { c with t1 := c.t1 + 1 } else c.header (c.value + 1)

/-- Advance to x (R527). -/
def Ctr.advance (c : Ctr) (x : Nat) : Ctr := if x ≤ c.value then c else c.header x

/-- Pre-clear of a row that does not give the value: its ticks clear (R527). -/
def Ctr.clearRow (c : Ctr) : Ctr :=
  match c.preclear with
  | some 0 => if c.active = 0 then { c with preclear := none } else { c with t0 := 0, preclear := none }
  | some _ => if c.active = 1 then { c with preclear := none } else { c with t1 := 0, preclear := none }
  | none => c

/-- The row that a header write would use is still marked: its pre-clear runs first. -/
def Ctr.ready (c : Ctr) : Ctr := if c.preclear.isSome then c.clearRow else c

def ctrGet (s : State) (n : Nat) : Ctr := vget s.nvm.ctrs n Ctr.fresh
def ctrPut (n : Nat) (c : Ctr) (s : State) : State := { s with nvm.ctrs := vset s.nvm.ctrs n c }

/-- Read a counter: AON holds the highest value delivered; a lower one is replaced (R529) when the energy check admits the write
(R104, R524). -/
def ctrRead (n : Nat) (s : State) : Option Nat × State :=
  let c := ctrGet s n
  if !c.readable then (none, s)
  else if c.value < c.held then
    (some c.held, dtc 0xB77103 (
      if energyOk false 1 s then ctrPut n ((c.ready).advance c.held) (spend 1 s)
      else if s.sup.measured then evNvm 3 s else s))
  else (some c.value, ctrPut n { c with held := c.value } s)

/-- Outcome of an increment. -/
inductive CtrRes where
  | ok (v : Nat)
  | locked
  | lowEnergy
  | eccError
deriving DecidableEq, Repr

/-- Increment a counter (R527, R528): a single group. -/
def ctrIncrement (n : Nat) (s : State) : CtrRes × State :=
  let r := ctrRead n s
  match r.1 with
  | none => (.eccError, s)
  | some v =>
    let s := r.2
    if !energyOk false 1 s then (.lowEnergy, evNvm 3 s)
    else if v ≥ 2 ^ 32 - 1 then (.locked, evNvm 6 s)
    else
      let c := ctrGet s n
      let c := if c.active = 0 && c.t0 ≥ 16 || c.active = 1 && c.t1 ≥ 16 then c.ready.inc else c.inc
      (.ok (v + 1), ctrPut n { c with held := v + 1 } (spend 1 s))

/-- Advance a counter to x (R527). -/
def ctrAdvanceTo (n x : Nat) (s : State) : CtrRes × State :=
  let r := ctrRead n s
  match r.1 with
  | none => (.eccError, s)
  | some v =>
    let s := r.2
    if x ≤ v then (.ok v, s)
    else if !energyOk false 1 s then (.lowEnergy, evNvm 3 s)
    else (.ok x, ctrPut n { ((ctrGet s n).ready.advance x) with held := x } (spend 1 s))

/-- Clear marks and free frames of a bank (R530): the old runs become free markers with their WEAR. -/
def freeRun (x : Bool × Nat × Nat × Nat) (s : State) : State :=
  let add := (List.range x.2.2.1).map (fun i => (x.2.1 + i, x.2.2.2))
  if x.1 then { s with nvm.freeUpper := s.nvm.freeUpper.filter (fun w => !(add.any (·.1 = w.1))) ++ add }
  else { s with nvm.freeLower := s.nvm.freeLower.filter (fun w => !(add.any (·.1 = w.1))) ++ add }

/-- Free frames of a bank. -/
def freeFrames (bank : List Copy) : Nat := 3552 - (bank.map (fun c => copyFrames c.data.length)).sum

/-! ### Words of the random generator (R459 to R464) -/

/-- The generator delivers now: seeded, not recovering, not re-instantiating, not latched, no reseed due (R463). -/
def rngServes (s : State) : Bool :=
  s.rng.seeded && !s.rng.recovering && !s.rng.reinst && !s.rng.latched && s.rng.requests < 65536

/-- Requests fail rather than wait: a failure and its recovery, or the latch (R468, R470). -/
def rngFails (s : State) : Bool := s.rng.recovering || s.rng.latched

/-- One word of the DRBG, a free value (log 5). -/
def drawWord (s : State) : BitVec 128 × State :=
  (Config.rngWord s.rng.drawn, { s with rng.drawn := s.rng.drawn + 1 })

/-- One request of the DRBG counted (R463); the 65,536th leaves a reseed due. -/
def countRequest (s : State) : State := { s with rng.requests := min 65536 (s.rng.requests + 1) }

/-- Several requests, one per cipher block (R459); those past the 65,536th wait for the reseed uncounted (log 19).
DEDUCED, log 74. -/
def countRequests (n : Nat) (s : State) : State := { s with rng.requests := min 65536 (s.rng.requests + n) }

/-- A private-wire word for a challenge or nonce (R459). -/
def drawPrivate (s : State) : BitVec 128 × State :=
  let r := drawWord s
  (r.1, countRequest r.2)

/-- A 256-bit key from the key-generation wire. -/
def drawKey (s : State) : BitVec 256 × State :=
  let a := drawWord s
  let b := drawWord a.2
  (a.1 ++ b.1, countRequest b.2)

/-- Take a word from the background queue (R464). -/
def takeQueue (s : State) : Option (BitVec 128) × State :=
  match s.rng.queue with
  | [] => (none, s)
  | w :: r => (some w, { s with rng.queue := r })

end Sys2Proof.Machine
end

