-- ==== Sys2Proof/Machine/JobOps.lean ====
section
/-! DEFINITION. Operations in flight (R410 to R426): rings, tags, results; and the use of key slots (R489 to R495). -/

namespace Sys2Proof.Machine

/-! ### Rings -/

/-- Entries of a ring by its DEPTH code (R435). -/
def depthOf (c : Nat) : Nat := if 1 ≤ c && c ≤ 5 then 8 * 2 ^ c else 0

def ringGet (s : State) (n : Nat) : Ring := vget s.job.rings n Ring.reset
def ringMod (n : Nat) (f : Ring → Ring) (s : State) : State := { s with job.rings := vmod s.job.rings n f }
def pageGet (s : State) (p : Nat) : Page := vget s.pages p Page.reset
def pageMod (p : Nat) (f : Page → Page) (s : State) : State := { s with pages := vmod s.pages p f }

/-- Class of a ring: JR0 to JR3 are urgent (R422); the reserved code 3 acts as bulk. DESIGN CHOICE, log 129. -/
def ringClass (s : State) (n : Nat) : Nat :=
  if n < 4 then 2 else match (ringGet s n).cls with
  | 3 => 0
  | c => c

/-- The region of checkpoint memory for the pair that feeds a ring: none for a ring the host feeds (R428). -/
def ringFeeder (s : State) (n : Nat) : Option Nat := if n < 4 then some 0 else if (ringGet s n).fedB then some 1 else none

/-- What R428 records of a ring that a pair feeds. -/
def ringItem (n : Nat) (x : CkptItem) (s : State) : State :=
  match ringFeeder s n with
  | some r => ckptItem r x s
  | none => s

/-! ### Grants -/

/-- A span lies in a page's window grant; CPG0 reaches the whole window (R622). An empty span lies in every grant
(DEDUCED, log 14). -/
def inGrant (s : State) (page off len : Nat) : Bool :=
  len = 0 ||
  (if page = 0 then off + len ≤ 0x400000
   else (pageGet s page).base ≤ off && off + len ≤ (pageGet s page).base + (pageGet s page).len)

/-! ### Operations -/

def opFind (s : State) (tag : Nat) : Option Op := s.job.ops.find? (fun o => o.tag = tag)

/-- The operation of a tag, of one kind, that has not ended. -/
def opLive (s : State) (tag kind : Nat) : Option Op :=
  s.job.ops.find? (fun o => o.tag = tag && dsKind o.desc = kind && o.result.isNone)

def opMod (tag : Nat) (f : Op → Op) (s : State) : State :=
  { s with job.ops := s.job.ops.map (fun o => if o.tag = tag then f o else o) }

/-- The operation ends with a status, a late flag and its bytes for DST; the first end counts (R426). -/
def opEnd (tag : Nat) (st : Status) (late : Bool) (out : Bytes) (s : State) : State :=
  opMod tag (fun o => if o.result.isSome then o else { o with result := some (st, late, out) }) s

/-- Tags held by CPG0, by others, and the shared tags in use (R417). -/
def tagsCpg0 (s : State) : Nat := (s.job.ops.filter (·.page = 0)).length
def tagsOf (s : State) (page : Nat) : Nat := (s.job.ops.filter (·.page = page)).length
def tagsShared (s : State) : Nat := (s.job.ops.length - tagsCpg0 s) + (tagsCpg0 s - 32)
def tagsRing (s : State) (n : Nat) : Nat := (s.job.ops.filter (·.ring = n)).length

/-- A tag is available to a page (R417). -/
def tagAvailable (s : State) (page : Nat) : Bool :=
  s.job.free != [] && (if page = 0 then (tagsCpg0 s < 32 || tagsShared s < 480) else tagsShared s < 480 && tagsOf s page < 160)

/-! ### Key slots -/

def slotGet (s : State) (n : Nat) : Slot := vget s.ks.slots n Slot.empty
def slotMod (n : Nat) (f : Slot → Slot) (s : State) : State := { s with ks.slots := vmod s.ks.slots n f }

/-- Fields of an attribute word (R490). -/
def atEnc (a : BitVec 32) : Bool := a.getLsbD 0
def atDec (a : BitVec 32) : Bool := a.getLsbD 1
def atGated (a : BitVec 32) : Bool := a.getLsbD 2
def atKlen (a : BitVec 32) : Nat := (a.toNat >>> 3) % 4
def atDerive (a : BitVec 32) : Bool := a.getLsbD 5
def atPin (a : BitVec 32) : Bool := a.getLsbD 6
def atOnce (a : BitVec 32) : Bool := a.getLsbD 7
def atClients (a : BitVec 32) : Nat := (a.toNat >>> 8) % 256
def atLc (a : BitVec 32) : Nat := (a.toNat >>> 16) % 16
def atClass (a : BitVec 32) : Nat := (a.toNat >>> 22) % 4
def atCounter (a : BitVec 32) : Nat := a.toNat >>> 24

/-- KSn is in the page's key-slot mask (R490). -/
def ksMask (s : State) (page n : Nat) : Bool := n < 64 && (atClients (slotGet s n).attr).testBit page

/-- A persistent slot's record reads as empty though it is present (R492, R495, R504), or no root is in SEC (R107). -/
def slotUnreadable (s : State) (n : Nat) : Bool :=
  let k := slotGet s n
  n < 56 && k.key.isSome &&
    (s.ks.root.isNone || k.rejected || (vget s.ks.classKey (atClass k.attr) none).isNone
      || k.epoch ≠ vget s.ks.epoch (atClass k.attr) 0 || s.tmp.erasePending.getLsbD (atClass k.attr))

/-- The key a job naming the slot gets. -/
def slotKey (s : State) (n : Nat) : Option (BitVec 256) :=
  if n ≥ 64 || slotUnreadable s n then none else (slotGet s n).key

/-- First 16 bytes of a 256-bit key. -/
def key128 (k : BitVec 256) : BitVec 128 := k.extractLsb' 128 128

/-- A slot's 128-bit AES key. -/
def slotKey128 (s : State) (n : Nat) : Option (BitVec 128) := (slotKey s n).map key128

/-! ### Job results that other blocks end -/

/-- Zero the window bytes a block job has written (R448). -/
def zeroOut (o : Op) (s : State) : State :=
  if o.written = 0 then s else winWrite s (dsDst o.desc) (List.replicate o.written 0)

/-- Every operation that `p` selects and that has not ended ends with a status; block outputs are zeroed. -/
def endOps (p : Op → Bool) (st : Status) (s : State) : State :=
  let hit := s.job.ops.filter (fun o => p o && o.result.isNone)
  let s := hit.foldl (fun s o => zeroOut o s) s
  { s with job.ops := s.job.ops.map (fun o =>
      if p o && o.result.isNone then { o with result := some (st, false, []), written := 0 } else o) }

/-- Zero a page's holding buffer and T_h (R441). -/
def gateZero (p : Page) : Page := { p with hb := [], th := 0, written := 0, covered := 0, overrun := false }

end Sys2Proof.Machine
end

