-- ==== Sys2Proof/Machine/TtOps.lean ====
section
/-! DEFINITION. The Burin timetable (R194 to R218): entries, grids, leads, contention, next due instants, re-anchoring. -/

namespace Sys2Proof.Machine

/-! ### Entries -/

def ttGet (s : State) (i : Nat) : Option Entry := vget s.tt.entries i none
def ttPut (i : Nat) (e : Option Entry) (s : State) : State := { s with tt.entries := vset s.tt.entries i e }
def ttMod (i : Nat) (f : Entry → Entry) (s : State) : State :=
  match ttGet s i with
  | some e => ttPut i (some (f e)) s
  | none => s

/-- Entries in use, with their indices. -/
def ttAll (s : State) : List (Nat × Entry) :=
  (List.range 256).filterMap (fun i => (ttGet s i).map (fun e => (i, e)))

/-- Free indices. -/
def ttFree (s : State) : List Nat := (List.range 256).filter (fun i => (ttGet s i).isNone)

/-- The entry is created by the settings in force. -/
def Entry.ofSettings (e : Entry) : Bool := e.owner == .settings

/-- The entry is one that CPG0 created (R39). -/
def Entry.ofCpg0 (e : Entry) : Bool :=
  match e.owner with
  | .settings => false
  | _ => e.page = 0

/-- The entry uses the LF drive. -/
def Entry.isLf (e : Entry) : Bool := e.kind = 1 || e.kind = 2 || e.kind = 3

/-- The entry holds its resources: preparing, running, or waiting after its preparation (R203). -/
def Entry.active (e : Entry) : Bool := e.st == .preparing || e.st == .running || (e.st == .waiting && e.claim)

/-- The power state excludes the entry (R216). Run-time entries exist in Run only. -/
def Entry.excluded (s : State) (e : Entry) : Bool :=
  match s.pwr.st with
  | .heath => e.ofSettings && !e.heath
  | .fallow => true
  | _ => e.ofSettings && !e.run

/-! ### Resources (R196): 0 LF drive, 1 and 2 TRX0 and TRX1, 3 ranging unit, 4 to 9 WRX, 10 to 13 TPO -/

def Entry.claims (e : Entry) : List Nat :=
  if e.isLf then [0]
  else if e.kind = 4 || e.kind = 5 then [1 + e.unit % 2]
  else if e.kind = 6 then [1, 2, 3]
  else if e.kind = 7 then [4 + e.unit % 6]
  else if e.kind = 9 then [10 + e.unit % 4]
  else []

/-- From its step 10 a ranging exchange holds neither transceiver nor the ranging unit: only its result is outstanding (R365). -/
def Entry.released (s : State) (e : Entry) : Bool :=
  e.kind = 6 && e.st == .running && decide (e.endAt ≤ s.xo + tUs 300)

/-- A resource is claimed by another entry that prepares or runs; the LF drive also by the turn-round after a frame, until
the instant of R280 (R249), and by a retest that is due (R255, R258). -/
def busy (s : State) (i : Nat) (e : Entry) : Bool :=
  (ttAll s).any (fun x => x.1 ≠ i && x.2.active && !x.2.released s && x.2.claims.any (fun r => e.claims.contains r))
    || (e.isLf && ((s.lf.round && decide (s48 s.lf.roundDue (now48 s) > 0)) || decide (s.xo < s.lf.retestUntil)))

/-- Serving order of two due entries (R208): the first goes ahead. -/
def ahead (a b : Nat × Entry) : Bool :=
  let da := (a.2.due - b.2.due).toInt
  if a.2.ofCpg0 != b.2.ofCpg0 then a.2.ofCpg0
  else if a.2.prio ≠ b.2.prio then a.2.prio > b.2.prio
  else if da ≠ 0 then da < 0
  else if a.2.ofSettings != b.2.ofSettings then a.2.ofSettings
  else a.1 < b.1

/-- The entry has come due (R204). -/
def Entry.isDue (s : State) (e : Entry) : Bool := decide (s48 e.due (now48 s) ≤ 0)

/-- Another due entry, ahead in the serving order, keeps a resource this one needs (R207, R208). -/
def keptBack (s : State) (i : Nat) (e : Entry) : Bool :=
  (ttAll s).any (fun x => x.1 ≠ i && (x.2.st == .waiting || (x.2.st == .pending && x.2.isDue s)) && ahead x (i, e)
    && x.2.claims.any (fun r => e.claims.contains r))

/-! ### Preparation times (R203, R316) in ns -/

/-- Profile bytes of a UHF action: window plan, telegram block, or the run-time block. -/
def Entry.profile (s : State) (e : Entry) : Bytes :=
  if e.ref ≥ 2 ^ 31 || !e.ofSettings then e.block
  else if e.kind = 4 then winPlan s e.ref else telBlock s e.ref

def trxGet (s : State) (n : Nat) : Trx := vget s.uhf.trx n Trx.reset
def trxMod (n : Nat) (f : Trx → Trx) (s : State) : State := { s with uhf.trx := vmod s.uhf.trx n f }

/-- Transceivers an entry uses. -/
def Entry.trxs (e : Entry) : List Nat :=
  if e.kind = 4 || e.kind = 5 then [e.unit % 2] else if e.kind = 6 then [0, 1] else []

/-- A transceiver awake ends its action or its preparation: Standby, and Sleep 1 ms later (R315). A transmission cut short ramps
down within 8 µs, and the wake receivers of its port are blind for 50 µs more (R92, R333). A calibration in progress runs to its
end first (R319). -/
def trxRest (n : Nat) (s : State) : State :=
  trxMod n (fun t => if t.st == .sleep || t.st == .standby || t.cal.isSome then t else
    { t with st := .standby, sleepAt := some (s.xo + tMs 1), blindUntil := min t.blindUntil (s.xo + tUs 58) }) s

/-- A transceiver goes to Sleep, through Standby (R314). -/
def trxDown (n : Nat) (s : State) : State :=
  trxMod n (fun t => { t with st := .sleep, lock := none, sleepAt := none }) (trxRest n s)

/-- t_uprep of R316 without its calibration term. The table has no row for a transceiver in Synth that is locked on another
band or on none; the model gives it the Standby row's bound for another band. DESIGN CHOICE, log 116. -/
def uprep (t : Trx) (freq : Nat) (rx : Bool) : Nat :=
  let band := (bandOf freq).getD 4
  let same : Bool := match t.lock with | some l => l.1 == band | none => false
  let chan := t.lock == some (band, freq)
  let d := if rx then 0 else 2000
  match t.st with
  | .sleep => 230000 - d
  | .standby => if same then 100000 - d else 170000 - d
  | .synth => if chan then 20000 - d else if same then 50000 - d else 170000 - d
  | .receive => if chan then (if rx then 25000 else 50000) else if same then 55000 - d else 175000 - d
  | .transmit => if chan then (if rx then 50000 else 23000) else if same then 55000 - d else 175000 - d

/-- t_cal when a calibration is due for the band of the action (R316). -/
def calTerm (t : Trx) (freq : Nat) : Nat :=
  match bandOf freq with
  | some b => if t.due.getLsbD b then 400000 else 0
  | none => 0

/-- Lead time of an entry (R203), ns. -/
def lead (s : State) (e : Entry) : Nat :=
  let h := s.pwr.st == .heath
  if e.isLf then (if h then 3500000 else if s.sup.vdrvOn then 0 else 2000000)
  else if e.kind = 4 || e.kind = 5 then
    let t := trxGet s (e.unit % 2)
    let f := prFreq (e.profile s)
    uprep t f (e.kind = 4) + calTerm t f + (if h then 3500000 else 0)
  else if e.kind = 6 then
    let f := 1000000 * u16 (rangingSec s) 2
    max (uprep (trxGet s 0) f true + calTerm (trxGet s 0) f) (uprep (trxGet s 1) f true + calTerm (trxGet s 1) f) + 20000
      + (if h then 3500000 else 0)
  else if e.kind = 7 then 300000
  else 20000

/-! ### Grids (R201) -/

/-- First grid instant at or after a full nanosecond count. -/
def gridAt (e : Entry) (t : Int) : Int :=
  let p : Int := (e.period * 1000 : Nat)
  if p = 0 then t else t + (((e.phase : Int) - t) % p)

/-- Grid instants in [a, b). -/
def gridCount (e : Entry) (a b : Int) : Nat :=
  let p : Int := (e.period * 1000 : Nat)
  if p = 0 then 0 else (((gridAt e b) - (gridAt e a)) / p).toNat

/-- Short time of a full count. -/
def short (t : Int) : BitVec 48 := BitVec.ofInt 48 t

/-- Full count of a short time near now. -/
def fullOf (s : State) (t : BitVec 48) : Int := (fullNs s : Int) + s48 t (now48 s)

/-- A settings entry from its record (R195), pending on its first grid instant (R201). -/
def entryOf (e : Bytes) : Entry :=
  { kind := enKind e, periodic := bit (enFlags e) 0, run := bit (enFlags e) 2, heath := bit (enFlags e) 3,
    catchup := enFlags e / 16 % 4, prio := enFlags e / 64, unit := enUnit e, ref := enRef e, phase := enTime e,
    period := enPeriod e, minPeriod := enMin e, count := enCount e, page := 0, owner := .settings, block := [],
    st := .pending, due := 0, grid := 0, start := 0, late := false, ran := false, endAt := 0, lateCount := 0, passed := 0,
    lag := 0, remain := enCount e, holdUntil := none, recs := [], pats := 0, flags := 0, dropped := 0, k := 1024, sat := 0,
    cut := none, susp := none, claim := false, sig := none }

/-- An entry as it lies between occurrences: pending, or suspended from this instant (R216). -/
def Entry.rest (s : State) (e : Entry) : Entry :=
  if e.excluded s then { e with st := .suspended, susp := some (fullNs s), claim := false, holdUntil := none }
  else { e with st := .pending, susp := none, claim := false, holdUntil := none }

/-- Place an entry on the first grid instant at or after now plus its lead (R201). -/
def anchor (s : State) (e : Entry) : Entry :=
  let d := short (gridAt e ((fullNs s : Int) + lead s e))
  Entry.rest s { e with due := d, grid := d }

/-- Load the settings' entries; counts restart (R201, R226). -/
def ttLoad (s : State) : State :=
  let n := min 240 (ttCount s.set.timetable)
  let es := (List.range 256).map (fun i =>
    if i < n && s.set.timetable != [] then some (anchor s (entryOf (ttRec s.set.timetable i))) else none)
  { s with tt.entries := Vector.ofFn (fun i => (es.getD i.val none)),
           tt.nSettings := if s.set.timetable = [] then 0 else n, tt.exec := true }

/-! ### Run-time entries -/

/-- First free index for a page: sixteen free entries stay for CPG0 (R194). -/
def freeIndex (s : State) (page : Nat) : Option Nat :=
  let l := ttFree s
  if page = 0 || l.length > 16 then l.head? else none

/-- A run-time entry (R198) with its owner and block, due at `due`. -/
def runtimeEntry (page kind unit ref : Nat) (owner : Owner) (block : Bytes) (due : BitVec 48) : Entry :=
  { entryOf [] with kind := kind, periodic := false, run := false, unit := unit, ref := ref, page := page, owner := owner,
                    block := block, due := due, grid := due }

/-- Due instant with NOW set (R199). -/
def nowDue (s : State) (e : Entry) : BitVec 48 := after48 (now48 s) (10000 + lead s e)

/-- Checks of R198 on a job's entry, in order; `ok` is what the kind and block checks say. -/
def entryCheck (s : State) (page : Nat) (b : Bytes) (ok : Bool) : Option Status :=
  let target := BitVec.ofNat 48 (enTime b)
  let now := bit (enFlags b) 1
  let d := s48 target (now48 s)
  if !ok || bit (enFlags b) 0 || enPeriod b ≠ 0 || enMin b ≠ 0 || enCount b ≠ 0 || u8 b 3 ≠ 0 || u32 b 28 ≠ 0
      || (!now && enTime b ≥ 2 ^ 48) then some .badEntry
  else if !now && d < 10000 then some .badTime
  else if !now && d > 2 ^ 46 then some .badTime
  else if (freeIndex s page).isNone then some .tableFull
  else none

/-- Insert a run-time entry at the lowest free index. -/
def ttInsert (page : Nat) (e : Entry) (s : State) : Option Nat × State :=
  match freeIndex s page with
  | some i => (some i, ttPut i (some e) s)
  | none => (none, s)

/-! ### Starting and ending an occurrence -/

/-- t_ttlate of R205, ns. -/
def tTtlate (s : State) : Nat := if s.pwr.st == .heath then 62000 else 1000

/-- Mark the start of an occurrence: now, late when more than t_ttlate after due (R205). -/
def markStart (s : State) (e : Entry) : Entry :=
  { e with st := .running, start := now48 s, late := decide (s48 (now48 s) e.due > tTtlate s), ran := true,
           holdUntil := none, recs := [], pats := 0, flags := e.flags % 4, cut := none, sat := 0, sig := none }

/-- Next due instant and lag of a periodic entry after an occurrence (R209). -/
def nextDue (e : Entry) (end_ : BitVec 48) : Entry :=
  let p := e.period * 1000
  let gn := e.grid + BitVec.ofNat 48 p
  let lag := s48 e.start e.grid
  let c := if e.catchup = 0 then 8 else if e.catchup = 1 then 4 else 2
  let pShort := max (p - p / c) (e.minPeriod * 1000)
  let d1 := if lag > 0 && s48 (e.start + BitVec.ofNat 48 pShort) gn > 0 then e.start + BitVec.ofNat 48 pShort else gn
  let d2 := if s48 end_ d1 > 0 then end_ else d1
  { e with grid := gn, due := d2, lag := min (2 ^ 32 - 1) lag.toNat, late := false }

/-- Status of a completed occurrence: LATE in place of OK (R205). -/
def lateStatus (e : Entry) (st : Status) : Status := if e.late && st == .ok then .late else st

/-! ### Re-anchoring (R212, R215, R216) -/

/-- Re-anchor one periodic entry after a step of `sigma`. Its short times are read at the full count `ref` of the clock before
the step, or at its suspension; the floor of `MIN_PERIOD` counts from the last start expressed on the new clock. -/
def reanchor1 (s : State) (ref : Nat) (sigma : Int) (count : Bool) (e : Entry) : Entry × Nat :=
  let at_ : Int := e.susp.getD ref
  let full (t : BitVec 48) : Int := at_ + s48 t (short at_) + sigma
  let floor := full e.start + (e.minPeriod * 1000 : Nat)
  let base := (fullNs s : Int) + (lead s e : Nat)
  let keep := e.ran && decide (floor > base)
  let nd := gridAt e (if keep then floor else base)
  let n := if count then gridCount e (full e.due) nd else 0
  ({ e with due := short nd, grid := short nd, lag := 0, start := short (full e.start), ran := keep,
            passed := min 65535 (e.passed + n), holdUntil := none, claim := false, sig := none,
            susp := if e.st == .suspended then some (fullNs s) else none,
            st := if e.st == .suspended then .suspended else .pending }, n)

/-- An occurrence ends: lateness is counted, a periodic entry moves on, a one-shot or the last occurrence frees it. -/
def occEnd (i : Nat) (e : Entry) (s : State) : State :=
  let s := if e.late then evTt 0 s else s
  let e' := { e with lateCount := if e.late then satInc 65535 e.lateCount else e.lateCount }
  if !e.periodic then ttPut i none s
  else if e.count ≠ 0 && e.remain ≤ 1 then ttPut i none s
  else
    let e' := { e' with remain := if e.count = 0 then 0 else e.remain - 1 }
    match e.sig with
    | none => ttPut i (some ((nextDue e' (now48 s)).rest s)) s
    | some g =>
      -- a step while the action ran: its end feeds R209 and R212 on the stepped clock
      let m (t : BitVec 48) : BitVec 48 := t + BitVec.ofInt 48 g
      let r := reanchor1 s (fullNs s) 0 (decide (g.natAbs < 2 ^ 46))
        (nextDue { e' with start := m e.start, due := m e.due, grid := m e.grid } (now48 s))
      let s := evTt 1 (ttPut i (some (r.1.rest s)) s)
      if r.2 ≠ 0 then evTt 2 s else s

/-- An occurrence completes without starting: at its due instant, not late (R218). -/
def occSkip (i : Nat) (e : Entry) (s : State) : State :=
  occEnd i { e with start := e.due, late := false, ran := true } s

/-- Condition of R218 that applies to an occurrence. -/
def skipStatus (s : State) (e : Entry) : Option Status :=
  if inRide s && (e.kind ≤ 7 || e.kind = 9 || e.kind = 10) then some .lowEnergy
  else if s.sup.region == .overvolt && e.isLf then some .lowEnergy
  else if s.sup.thermOff && e.kind ≤ 7 then some .notReady
  else none

/-! ### Re-anchoring of the table (R212, R215, R216) -/

/-- Re-anchor the entries that `p` selects by index; transceivers that were prepared for them rest. -/
def reanchor (p : Nat → Bool) (ref : Nat) (sigma : Int) (count : Bool) (s : State) : State :=
  let es := ttAll s
  let hit := es.filter (fun x => x.2.periodic && x.2.st != .running && p x.1)
  let s := hit.foldl (fun s x => if x.2.active then x.2.trxs.foldl (fun s n => trxRest n s) s else s) s
  let rs := hit.map (fun x => (x.1, reanchor1 s ref sigma count x.2))
  let n : Nat := (rs.map (fun r => r.2.2)).sum
  let s := rs.foldl (fun s r => ttPut r.1 (some r.2.1) s) s
  let s := if hit != [] then evTt 1 s else s
  if n ≠ 0 then evTt 2 s else s

/-- A running action keeps the sum of the steps it runs through (R215). -/
def stepRunning (sigma : Int) (s : State) : State :=
  (ttAll s).foldl (fun s x =>
    if x.2.st == .running then ttPut x.1 (some { x.2 with sig := some (x.2.sig.getD 0 + sigma) }) s else s) s

/-- Suspend and resume entries for the present power state (R216). -/
def suspendResume (s : State) : State :=
  let back := (ttAll s).filter (fun x => x.2.st == .suspended && !x.2.excluded s)
  let s := (ttAll s).foldl (fun s x => if x.2.excluded s && x.2.ofSettings && x.2.st != .running && x.2.st != .suspended
                                       then ttPut x.1 (some (x.2.rest s)) s else s) s
  let s := back.foldl (fun s x => ttPut x.1 (some { x.2 with st := .pending }) s) s
  if back = [] then s
  else reanchor (fun i => back.any (fun x => x.1 = i)) (fullNs s) 0 true s

/-- Free every run-time entry (R133, R149). -/
def dropRuntime (s : State) : State :=
  (ttAll s).foldl (fun s x => if x.2.ofSettings then s else ttPut x.1 none s) s

end Sys2Proof.Machine
end

