-- ==== Sys2Proof/Machine/LfOps.lean ====
section
/-! DEFINITION. LF drive operations (R71, R228 to R258, R261 to R281): carrier periods, the common scale factor, frames,
patterns, faults, and the VDRV converter (R85 to R87). -/

namespace Sys2Proof.Machine

/-! ### The VDRV converter -/

/-- Setpoint in 0.1 V (R67, R68, R85). -/
def vdrvSetpoint (s : State) : Nat :=
  if s.pwr.st == .run && s.sup.region == .crank then 80 else antVdrv s.set.antenna

/-- Bound on the start-up of the converter, ns (R85). Below 6.0 V the table has 2 ms for a setpoint of 8.0 V in crank hold
alone; the model takes it for every setpoint there. DESIGN CHOICE, log 114. -/
def vdrvStartNs (s : State) : Nat :=
  if s.sup.vbat < 6000 then 2000000 else 400000 + 3750 * (vdrvSetpoint s - 80)

/-- Regulate towards the setpoint from now on. -/
def vdrvAim (s : State) : State :=
  { s with sup.vdrvSet := vdrvSetpoint s, sup.vdrvReadyAt := s.elapsed + tNs (vdrvStartNs s) }

/-- The converter may run: not in overvoltage, ride-through or above T_OFF (R67, R92). -/
def vdrvAllowed (s : State) : Bool :=
  (s.pwr.st == .run || s.pwr.st == .heath) && s.sup.region != .overvolt && s.sup.region != .ride && !s.sup.thermOff

/-- Start the converter (R86). DEDUCED, log 63. -/
def vdrvStart (s : State) : State :=
  if s.sup.vdrvOn then { s with sup.vdrvStopAt := none }
  else if vdrvAllowed s then
    vdrvAim { s with sup.vdrvOn := true, sup.vdrvMeas := min 255 (s.sup.vbat / 100), sup.vdrvStopAt := none }
  else s

/-- The converter stops switching. -/
def vdrvOff (s : State) : State :=
  { s with sup.vdrvOn := false, sup.vdrvSet := 0, sup.vdrvStopAt := none, sup.vdrvLimit := false }

/-- VDRV as measured now, 0.1 V: at rest it holds the VBAT level (R48). -/
def vdrvNow (s : State) : Nat :=
  if !s.sup.vdrvOn then min 255 (s.sup.vbat / 100)
  else if reached s s.sup.vdrvReadyAt then min 255 s.sup.vdrvSet
  else s.sup.vdrvMeas

/-- VDRV lies within 90 % to 110 % of the setpoint (R87). -/
def vdrvInWindow (s : State) : Bool :=
  s.sup.vdrvOn && (9 * s.sup.vdrvSet ≤ 10 * vdrvNow s && 10 * vdrvNow s ≤ 11 * s.sup.vdrvSet)

/-- Some LF entry is due within 2 ms and may run in this power state (R86). -/
def lfDueSoon (s : State) : Bool :=
  (ttAll s).any (fun x => x.2.isLf && x.2.st != .suspended && decide (s48 x.2.due (now48 s) ≤ 2000000))

/-! ### Channels -/

def chGet (s : State) (n : Nat) : Channel := vget s.lf.ch n Channel.reset
def chMod (n : Nat) (f : Channel → Channel) (s : State) : State := { s with lf.ch := vmod s.lf.ch n f }

/-- The channel is in service. -/
def chInService (s : State) (n : Nat) : Bool := (chGet s n).st = 1

/-- A channel's mode drives its coil (R228). -/
def ChMode.driven (m : ChMode) : Bool := m == .drive || m == .downlink || m == .listen

/-- Channels now driven. -/
def drivenMask (s : State) : BitVec 16 := BitVec.ofNat 16 (bitsOf (fun n => (chGet s n).mode.driven) 16)

/-- Every channel takes its mode (R228, R229). -/
def lfModes (f : Nat → ChMode) (s : State) : State :=
  { s with lf.ch := Vector.ofFn (fun (i : Fin 16) => { chGet s i.val with mode := f i.val }) }

/-- Duration of carrier periods in ns. -/
def periodsNs (s : State) (n : Nat) : Nat := n * 100000000 / s.lf.carrier

/-- The carrier of the next action: the override in force or the section's (R230). -/
def carrierNext (s : State) : Nat :=
  match s.ov.carrier with
  | some c => c
  | none => if s.set.antenna = [] then s.lf.carrier else antCarrier s.set.antenna

/-- |Z| of a channel at the carrier in use, µΩ: measured at the tuned carrier, recomputed from the resonance, Q and
Rloop at another (R230). -/
def chZ (s : State) (n : Nat) : Nat :=
  let c := chGet s n
  if s.lf.carrier = antCarrier s.set.antenna || c.fRes = 0 then c.zmag
  else
    let f := 10 * s.lf.carrier
    let d := if f ≥ c.fRes then f * f - c.fRes * c.fRes else c.fRes * c.fRes - f * f
    let t := c.q * d * 1000 / (4 * f * c.fRes)
    isqrt (c.rloop * c.rloop * (1000000 + t * t) / 1000000)

/-! ### The scale factor k (R71, R233) -/

/-- A channel as one bit of a mask. -/
def chBit (n : Nat) : Nat := 2 ^ n

def maskOf (l : List ChWord) : Nat := (l.map (fun w => chBit w.ch)).sum

/-- Crank-hold LF limits apply (R71; in Heath below V_CHE, R144). -/
def crankLimits (s : State) : Bool :=
  (s.pwr.st == .run && s.sup.region == .crank) || (s.pwr.st == .heath && decide (s.sup.vbat < Config.vChe))

/-- The current of word `w` at scale k, in mA × 1024 × 1023. -/
def cur (ifs k : Nat) (w : ChWord) : Nat := k * ifs * w.a

/-- One current is within a cap in mA. -/
def capMa (ifs k cap : Nat) (w : ChWord) : Bool := cur ifs k w ≤ cap * 1024 * 1023

/-- One current is within the voltage cap (mV) over an impedance in µΩ. -/
def capMv (ifs k mv z : Nat) (w : ChWord) : Bool :=
  cur ifs k w * z * piF ≤ mv * 4 * 1000000 * 1024 * 1023 * 2 ^ 60

/-- The power of the currents within `mw`. -/
def capMw (s : State) (ifs k mw : Nat) (l : List ChWord) : Bool :=
  (l.map (fun w => cur ifs k w * cur ifs k w * (chGet s w.ch).rloop)).sum ≤ 2 * mw * 10 ^ 9 * (1024 * 1023) ^ 2

/-- Every limit of R233 and R71 holds at k for the channels kept; `n` counts the channels named with A above 0. -/
def kOk (s : State) (ifs n : Nat) (l : List ChWord) (k : Nat) : Bool :=
  let full :=
    l.all (fun w => capMa ifs k (min (antILimit s.set.antenna w.ch) (if n ≤ 4 then 2000 else 500)) w
      && capMv ifs k (90 * antVdrv s.set.antenna - 1000) (chZ s w.ch) w) && capMw s ifs k 9000 l
  let crank :=
    l.all (fun w => capMa ifs k 1000 w && capMv ifs k (100 * vdrvSetpoint s - 1000) (chGet s w.ch).rloop w) && capMw s ifs k 1800 l
  let therm :=
    l.all (fun w => capMa ifs k 500 w
      && capMv ifs k (90 * antVdrv s.set.antenna - 1000) (chZ s w.ch) w) && capMw s ifs k 4500 l
  (if crankLimits s then crank else full) && (!s.sup.thermDer || therm)

/-- Largest k up to `n` that holds; the limits only tighten as k grows. -/
def kFind (p : Nat → Bool) : Nat → Nat
  | 0 => 0
  | n + 1 => if p (n + 1) then n + 1 else kFind p n

/-- What a frame, pattern or ping drives. -/
structure Drive where
  /-- words driven -/
  kept : List ChWord
  /-- channels named and not driven (R246) -/
  dropped : Nat
  /-- k in 1/1024 -/
  k : Nat
deriving DecidableEq, Repr

/-- Insert by channel number. -/
def insCh (w : ChWord) : List ChWord → List ChWord
  | [] => [w]
  | x :: r => if w.ch ≤ x.ch then w :: x :: r else x :: insCh w r

/-- Channels driven and their k (R71, R233): excluded channels are dropped, then crank hold cuts to four. -/
def driveOf (s : State) (ifs : Nat) (words : List ChWord) (listen : Nat) : Drive :=
  let named := drivenWords words
  let ins := (named.filter (fun w => chInService s w.ch)).foldr insCh []
  let kept :=
    if crankLimits s && ins.length > 4 then
      match ins.find? (fun w => w.ch = listen) with
      | some l => l :: (ins.filter (fun w => w.ch ≠ listen)).take 3
      | none => ins.take 4
    else ins
  { kept := kept, dropped := maskOf (named.filter (fun w => !(kept.any (fun x => x.ch = w.ch)))),
    k := kFind (kOk s ifs named.length kept) 1024 }

/-- FLAGS of a frame or pattern record (R246, R278). -/
def driveFlags (d : Drive) (limited : Bool) : Nat :=
  b2n (d.dropped ≠ 0) + 2 * b2n limited + 4 * b2n (d.k < 1024)

/-- Channels driven without the headroom of R232, which carry SAT in a frame's record (R250). -/
def headroomSat (s : State) (ifs : Nat) (d : Drive) : BitVec 16 :=
  BitVec.ofNat 16 (maskOf (d.kept.filter (fun w => !(capMv (2 * ifs) d.k (90 * vdrvSetpoint s - 1000) (chZ s w.ch) w))))

/-- SCALED_EVT: a frame, pattern or ping runs with k below 1 (R259). -/
def noteScaled (k : Nat) (s : State) : State := if k < 1024 then evLf 3 s else s

/-- A frame or pattern starts with k: LF_SCALE takes it (R96). -/
def noteK (k : Nat) (s : State) : State := noteScaled k { s with sup.lfScale := k }

/-- SAT_EVT: a channel saturates (R232). -/
def noteSat (sat : BitVec 16) (s : State) : State := if sat ≠ 0 then evLf 4 s else s

/-! ### Frames -/

/-- The frame block of an LF frame entry. -/
def frameBlock (s : State) (e : Entry) : Bytes :=
  if e.ofSettings then klFrame s.set.keylink e.ref else e.block

/-- Slots of a downlink frame (R263). -/
def frameSlots (f : Bytes) : Nat := if fbType f = 1 then 32 else 8 * fbLen f + 18

/-- A downlink frame as it goes on the air: TYPE, payload, CRC (R263, R264). -/
def frameAir (f : Bytes) : Bytes :=
  [BitVec.ofNat 8 (fbType f)] ++ fbPayload f ++
    (if fbType f = 1 then [BitVec.ofNat 8 (crc8Wake (fbWake f))] else beBytes 2 (crc16 (fbPayload f)))

/-- `n` bits of a number, most significant first (R263). -/
def bitsMsb : Nat → Nat → List Bool
  | 0, _ => []
  | n + 1, v => v.testBit n :: bitsMsb n v

/-- Bits of a downlink frame between SOF and EOF: payload and CRC-16, or wake code and CRC-8 (R263, R264). -/
def frameBits (f : Bytes) : List Bool :=
  if fbType f = 1 then bitsMsb 22 (fbWake f) ++ bitsMsb 8 (crc8Wake (fbWake f))
  else (fbPayload f ++ beBytes 2 (crc16 (fbPayload f))).flatMap (fun b => bitsMsb 8 b.toNat)

/-- Pause of each data slot from slot `i` on, then of the EOF slot (R262). -/
def slotPauses : Nat → List Bool → List Nat
  | i, [] => [32 * i + 8]
  | i, b :: r => (32 * i + if b then 16 else 0) :: slotPauses (i + 1) r

/-- Starts of the commanded pauses, in carrier periods from the frame's start: SOF has two; every driven channel stops and
quenches for t_pause, 4 periods, at each (R261, R262, R277). -/
def framePauses (f : Bytes) : List Nat := 0 :: 12 :: slotPauses 1 (frameBits f)

/-- The channels of the drive go OFF; a round ends (R281). -/
def lfOff (s : State) : State :=
  lfModes (fun _ => .off) { s with lf.round := false }

/-- Reversal applies P + 128 (R231); the phase a word drives. -/
def phaseOf (s : State) (w : ChWord) : Nat := if (chGet s w.ch).revBit then (w.p + 128) % 256 else w.p

/-- The converter stops 1 ms after the last action unless another is due within 2 ms (R86); its demand ends with the action. -/
def lfActionEnd (s : State) : State :=
  if s.sup.vdrvOn then { s with sup.vdrvStopAt := some (s.elapsed + tMs 1), sup.vdrvLimit := false } else s

/-- A channel's fault class to its DTC (R257). -/
def chDtc (kind n : Nat) : Nat := if kind = 3 then 0xB72100 + n else 0xB72200 + n

/-- Exclude a channel for a fault of a RESULT code 3 to 6 (R254, R256); in ride-through, where its action has ended already,
its retest is due (R258). -/
def chFault (n kind : Nat) (s : State) : State :=
  let s := chMod n (fun c => { c with mode := .off, st := 2, lastFault := kind, faults := satInc 255 c.faults,
                                      retest := c.retest || inRide s, dtcHeld := s.pwr.st == .heath || c.dtcHeld }) s
  let s := evLf 0 s
  if s.pwr.st == .heath then s else dtcLf (chDtc kind n) s

/-- A channel's retest may begin: due, and 100 ms after its last (R255). -/
def retestReady (s : State) (n : Nat) : Bool := (chGet s n).st = 2 && (chGet s n).retest && reached s (chGet s n).retestAfter

/-- Retests that may begin keep the LF drive for up to 130 µs (R255, R258). -/
def retestHold (s : State) : State :=
  { s with lf.retestUntil := if (List.range 16).any (retestReady s) then s.xo + tUs 130 else 0 }

/-- An action that named excluded channels has ended: their retests fall due (R255). -/
def markRetests (named : Nat) (s : State) : State :=
  retestHold ((List.range 16).foldl (fun s n =>
    if named.testBit n && (chGet s n).st = 2 then chMod n (fun c => { c with retest := true }) s else s) s)

end Sys2Proof.Machine
end

