-- ==== Sys2Proof/Machine/RangeOps.lean ====
section
/-! DEFINITION. The ranging exchange (R362 to R371): frames, phase fit, distances, exclusions, status and result. -/

namespace Sys2Proof.Machine

/-! ### The RANGING section (R362) -/

def rgF0 (b : Bytes) : Nat := u16 b 0
def rgCtrl (b : Bytes) : Nat := u16 b 2
def rgPower (b : Bytes) : Int := s8 b 8
def rgLin (b : Bytes) : Nat := u8 b 9
def rgCoarse (b : Bytes) : Nat := u16 b 10
def rgAgree (b : Bytes) : Nat := u16 b 12
def rgDist (b : Bytes) (i : Nat) : Nat := u16 b (14 + 2 * i)
def rgCalAA (b : Bytes) : Int := s32 b 20
def rgCalAB (b : Bytes) : Int := s32 b 24
def rgAnt (b : Bytes) (port : Nat) : Int × Int × Int :=
  (s16 b (28 + 6 * port), s16 b (30 + 6 * port), s16 b (32 + 6 * port))

/-- B4 is fitted on both ports (R329, R375). -/
def b4Both (s : State) : Bool := fitted s 0 3 && fitted s 1 3

/-! ### Frames (R364), big-endian on the air (R7) -/

/-- RS: TYPE, SEQ, NONCE. -/
def rsFrame (block : Bytes) : Bytes := [0x01, BitVec.ofNat 8 (u8 block 1)] ++ sl block 4 8

/-- A received copy with its CRC split off: its payload when the CRC passes. -/
def crcPass (len : Nat) (type : Nat) (b : Bytes) : Option Bytes :=
  let p := b.take len
  if b.length = len + 2 && u8 b 0 = type && beNat (b.drop len) = crc16 p then some p else none

/-- A copy of the frame reached the port. -/
def present (type : Nat) : Option Bytes → Bool
  | some b => u8 b 0 = type
  | none => false

/-- Either copy that passes its CRC (R365). -/
def eitherCopy (len type : Nat) (a b : Option Bytes) : Option Bytes :=
  match a.bind (crcPass len type) with
  | some p => some p
  | none => b.bind (crcPass len type)

/-! ### Phase fit (R367); phases in 2^-16 turn -/

/-- Unwrap: each step in (−2^15, 2^15]. -/
def unwrapGo : Int → Int → List (Nat × Int) → List (Nat × Int)
  | _, _, [] => []
  | last, acc, (k, p) :: r =>
    let d := sgn 16 (toU 16 (p - last))
    let d := if d = -32768 then 32768 else d
    (k, acc + d) :: unwrapGo p (acc + d) r

def unwrap : List (Nat × Int) → List (Nat × Int)
  | [] => []
  | (k, p) :: r => (k, p) :: unwrapGo p p r

/-- Sums of the least-squares fit: n, D = n Σk² − (Σk)², C = n Σkθ − Σk Σθ, E = n Σθ² − (Σθ)². -/
structure FitSums where
  /-- points -/
  n : Int
  /-- spread of k -/
  d : Int
  /-- covariance -/
  c : Int
  /-- spread of θ -/
  e : Int
deriving DecidableEq, Repr

def fitSums (l : List (Nat × Int)) : FitSums :=
  let n : Int := l.length
  let sk : Int := (l.map (fun x => (x.1 : Int))).sum
  let st := (l.map (fun x => x.2)).sum
  let skk : Int := (l.map (fun x => (x.1 * x.1 : Int))).sum
  let skt := (l.map (fun x => (x.1 : Int) * x.2)).sum
  let stt := (l.map (fun x => x.2 * x.2)).sum
  { n := n, d := n * skk - sk * sk, c := n * skt - sk * st, e := n * stt - st * st }

/-- One port's measurement (R367, R368). -/
structure PortFit where
  /-- valid tones -/
  valid : Nat
  /-- residual, 1.40625° units, nearest, saturating at 255 -/
  res : Nat
  /-- excluded -/
  excl : Bool
  /-- l_p in nm -/
  l : Int
deriving DecidableEq, Repr

/-- Length of the longest run of invalid tones. -/
def invalidRun (v : List Bool) : Nat :=
  (v.foldl (fun (a : Nat × Nat) ok => if ok then (0, a.2) else (a.1 + 1, max a.2 (a.1 + 1))) (0, 0)).2

/-- The fit of one port: phases and levels of 72 tones, the key's VALID and phases, the calibration delay in ps. -/
def portFit (sec : Bytes) (phases levels : List Int) (pr : Bytes) (cal : Int) : PortFit :=
  let vmask := beNat (sl pr 2 9)
  let ok := (List.range 72).map (fun k => vmask.testBit k && decide (levels.getD k (-1000) ≥ -180))
  let pts := ((List.range 72).filter (fun k => ok.getD k false)).map (fun k =>
    (k, sgn 16 (toU 16 (phases.getD k 0 + 256 * (u8 pr (11 + k) : Int)))))
  let f := fitSums (unwrap pts)
  let num := f.e * f.d - f.c * f.c
  let den := f.n * f.n * f.d
  let lim : Int := (256 * rgLin sec : Nat)
  { valid := pts.length,
    res := if den ≤ 0 then 255 else min 255 (isqrt (4 * num.toNat / (den.toNat * 65536)) / 2 + isqrt (4 * num.toNat / (den.toNat * 65536)) % 2),
    excl := decide (pts.length < 64) || decide (invalidRun ok > 2) || decide (den ≤ 0) || decide (num > lim * lim * den),
    l := if f.d = 0 then 0 else -(f.c * 299792458000) / (f.d * 65536) - cal * 299792458 / 1000 }

/-- Distances and exclusions of a whole exchange, in nm. -/
structure RangeCalc where
  /-- port A -/
  a : PortFit
  /-- port B -/
  b : PortFit
  /-- r_a -/
  ra : Int
  /-- r_b -/
  rb : Int
  /-- d_c -/
  dc : Int
deriving DecidableEq, Repr

def rangeCalc (sec : Bytes) (env : RangingEnv) (pr : Bytes) (tKey : Nat) : RangeCalc :=
  let a := portFit sec env.phaseA env.levelA pr (rgCalAA sec)
  let b := portFit sec env.phaseB env.levelB pr (rgCalAB sec)
  let ra := if a.excl then b.l / 2 else a.l / 2
  { a := a, b := b, ra := ra, rb := b.l - ra,
    dc := (299792458 * (4 * ((env.tRa : Int) - env.tRs) - tKey) / 4 - rgCalAA sec * 299792458 / 1000) / 2 }

/-- Squared distance between two points in cm. -/
def dist2 (p q : Int × Int × Int) : Int :=
  (p.1 - q.1) ^ 2 + (p.2.1 - q.2.1) ^ 2 + (p.2.2 - q.2.2) ^ 2

/-- Checks of R370's INCONSISTENT row: coarse, then triangle with both ports in use. -/
def coarseFail (sec : Bytes) (c : RangeCalc) : Bool := decide ((c.dc - c.ra).natAbs > rgCoarse sec * 100000000)
def triangleFail (sec : Bytes) (c : RangeCalc) : Bool :=
  !c.a.excl && !c.b.excl &&
    (let x : Int := (c.ra - c.rb).natAbs - 750000000
     decide (x > 0) && decide (x * x > dist2 (rgAnt sec 0) (rgAnt sec 1) * 100000000000000))

/-- nm to cm in a u16 field: nearest, from 0 to 65,534 (DESIGN CHOICE, log 15). -/
def cmField (v : Int) : Nat := min 65534 (roundDiv v 10000000).toNat

/-- Mean level of the tones received at −90 dBm or more, 0.5 dBm units, rounded down; the spec says neither which tones count nor how
the mean is rounded. DESIGN CHOICE, log 15. -/
def meanLevel (l : List Int) : Int :=
  let v := l.filter (· ≥ -180)
  if v = [] then 0 else v.sum / v.length

/-- Outcome of an exchange: status, result bytes, and LOC_EVT bits to set. -/
structure RangeOut where
  /-- status of R370 before LATE -/
  st : Status
  /-- R371 -/
  bytes : Bytes
  /-- bits of LOC_EVT -/
  evts : List Nat
deriving DecidableEq, Repr

/-- The 32-byte result (R371). -/
def rangeBytes (c : Option (Bytes × RangeCalc)) (env : RangingEnv) (late : Bool) (start : BitVec 48) (tKey rtt : Nat) :
    Bytes :=
  match c with
  | none => leBytes 2 0xFFFF ++ leBytes 2 0xFFFF ++ leBytes 2 0 ++ [255, 255] ++ [0, 0] ++ leBytes 2 (16 * b2n late)
      ++ leBytes 4 0 ++ leBytes 4 tKey ++ leBytes 4 rtt ++ leBytes 8 start.toNat
  | some (sec, c) =>
    let dc := roundDiv c.dc 100000000
    let dcs : Int := if dc > 32767 then 32767 else if dc < -32768 then -32768 else dc
    let both := c.a.excl && c.b.excl
    leBytes 2 (if both then 0xFFFF else cmField c.ra) ++ leBytes 2 (if c.b.excl then 0xFFFF else cmField c.rb)
      ++ leBytes 2 (toU 16 dcs) ++ leBytes 1 c.a.res ++ leBytes 1 c.b.res ++ leBytes 1 c.a.valid ++ leBytes 1 c.b.valid
      ++ leBytes 2 (b2n c.a.excl + 2 * b2n c.b.excl + 4 * b2n (!both && coarseFail sec c)
          + 8 * b2n (!both && triangleFail sec c) + 16 * b2n late)
      ++ leBytes 2 (toU 16 (meanLevel env.levelA)) ++ leBytes 2 (toU 16 (meanLevel env.levelB))
      ++ leBytes 4 tKey ++ leBytes 4 rtt ++ leBytes 8 start.toNat

/-- MAC input of the PR frame (R364): NONCE, SEQ, T_KEY, VALID, phases. -/
def rangeMacInput (block pr : Bytes) (tKey : Bytes) : Bytes := sl block 4 8 ++ sl pr 1 1 ++ tKey ++ sl pr 2 81

/-- AES key length of a slot in bytes: its KLEN, 16 where any is allowed (DESIGN CHOICE, log 16). -/
def slotKlen (a : BitVec 32) : Nat := if atKlen a = 1 then 24 else if atKlen a = 2 then 32 else 16

/-- The whole exchange (R365 to R371) under the key found when the PR MAC is verified. -/
def rangeOut (s : State) (e : Entry) (env : RangingEnv) : RangeOut :=
  let sec := rangingSec s
  let raSeen := (present 2 env.raA || present 2 env.raB) && 134000 ≤ env.raSync && env.raSync ≤ 140000
  let rtt := if raSeen then toU 32 ((env.tRa : Int) - env.tRs) else 0
  let none0 (st : Status) (ev : List Nat) (tk : Nat) : RangeOut :=
    { st := st, bytes := rangeBytes none env e.late e.start tk rtt, evts := ev }
  let prSeen := (present 3 env.prA || present 3 env.prB) && 4280000 ≤ env.prSync && env.prSync ≤ 4288000
  if inRide s || !b4Both s || !raSeen || !prSeen then none0 .timeout [] 0
  else if sec = [] then none0 .notReady [] 0
  else match eitherCopy 6 2 env.raA env.raB, eitherCopy 91 3 env.prA env.prB with
    | some ra, some pr =>
      let tKey := beNat (sl ra 2 4)
      let slot := u8 e.block 0
      match slotKey s slot with
      | none => none0 .keyGone [] tKey
      | some key =>
        let good := u8 ra 1 = u8 e.block 1 && u8 pr 1 = u8 e.block 1 &&
          (blockBytes (cmac (slotKlen (slotGet s slot).attr) key (rangeMacInput e.block pr (sl ra 2 4)))).take 8 = sl pr 83 8
        if !good then none0 .tagMismatch [6] tKey
        else
          let c := rangeCalc sec env pr tKey
          let bytes := rangeBytes (some (sec, c)) env e.late e.start tKey rtt
          let ex := if c.a.excl || c.b.excl then [7] else []
          if c.a.excl && c.b.excl then { st := .multipath, bytes := bytes, evts := 5 :: ex }
          else if coarseFail sec c || triangleFail sec c then { st := .inconsistent, bytes := bytes, evts := 4 :: ex }
          else { st := .ok, bytes := bytes, evts := ex }
    | _, _ => none0 .crcError [] 0

end Sys2Proof.Machine
end

