-- ==== Sys2Proof/Machine/Solver.lean ====
section
/-! DEFINITION. The field solver (R345 to R360) in fixed point with 60 fractional bits, far inside the tolerance of R355:
report body, coil model, iteration, covariance and zones. -/

namespace Sys2Proof.Machine

/-! ### Fixed point, 2^60 per unit -/

def fxOne : Int := (2 ^ 60 : Nat)
def fxMul (a b : Int) : Int := a * b / fxOne
def fxDiv (a b : Int) : Int := if b = 0 then 0 else a * fxOne / b
def fxSqrt (a : Int) : Int := (isqrt (a.toNat * 2 ^ 60) : Nat)
/-- Q16.16 to 2^60. -/
def fxQ (a : Int) : Int := a * (2 ^ 44 : Nat)

/-- exp of a number from −40 to 40, by its series after reduction by ln 2. -/
def expSeries : Nat → Int → Int → Int → Int
  | 0, _, _, acc => acc
  | n + 1, r, term, acc => expSeries n r (fxMul term r / (32 - n : Nat)) (acc + term)
def fxExp (y : Int) : Int :=
  let ln2 : Int := 799144290325165979
  let n := y / ln2
  let e := expSeries 32 (y - n * ln2) fxOne 0
  if n ≥ 0 then e * (2 ^ n.toNat : Nat) else e / (2 ^ (-n).toNat : Nat)

/-- 20 log10 of a ratio of positive numbers. -/
def dB (a b : Nat) : Int :=
  let l : Int := if a ≥ b then (log2Ratio a b : Nat) else -(log2Ratio b a : Nat)
  l * 6941279110654196415 / (2 ^ 50 : Nat)

/-! ### The report body (R347 to R351) -/

/-- Nibbles of the stream, high first. -/
def nibbles (b : Bytes) : List Nat := (b.map (fun x => [x.toNat / 16, x.toNat % 16])).flatten

/-- Codes of `n` symbols, each against the code three symbols back; the rest of the stream (R349). -/
def readCodes : Nat → List Nat → List Nat → Option (List Nat × List Nat)
  | 0, ns, prev => some (prev.drop 3, ns)
  | n + 1, ns, prev =>
    let last := prev.getD (prev.length - 3) 128
    match ns with
    | 8 :: a :: b :: r => readCodes n r (prev ++ [16 * a + b])
    | d :: r =>
      if d = 8 then none
      else if d < 8 then (if last + d ≤ 255 then readCodes n r (prev ++ [last + d]) else none)
      else if last ≥ 16 - d then readCodes n r (prev ++ [last - (16 - d)]) else none
    | [] => none

/-- A report body read (R348): slots, PRESENT, saturation entries, codes of the coded patterns in order. -/
structure Report where
  /-- SCAN_SEQ -/
  seq : Nat
  /-- N -/
  n : Nat
  /-- PRESENT -/
  present : Nat
  /-- pattern, axis, high -/
  sat : List (Nat × Nat × Bool)
  /-- three codes per coded pattern -/
  codes : List Nat
deriving DecidableEq, Repr

/-- No two entries name one axis of one pattern. -/
def satDistinct : List (Nat × Nat × Bool) → Bool
  | [] => true
  | x :: r => r.all (fun y => !(x.1 = y.1 && x.2.1 = y.2.1)) && satDistinct r

/-- The report body, none when R351 rejects it. -/
def reportOf (b : Bytes) : Option Report :=
  let n := u8 b 1
  let pres := beNat (sl b 2 8)
  let k := u8 b 10
  if b.length > 192 || b.length < 11 + 2 * k || n = 0 || n > 64 || pres ≥ 2 ^ n then none
  else
    let sat := (List.range k).map (fun i => (u8 b (11 + 2 * i), u8 b (12 + 2 * i) % 4, bit (u8 b (12 + 2 * i)) 2))
    let bad := (List.range k).any (fun i =>
      !pres.testBit (u8 b (11 + 2 * i)) || u8 b (11 + 2 * i) ≥ 64 || u8 b (12 + 2 * i) % 4 = 3 || u8 b (12 + 2 * i) ≥ 8)
    if bad || !satDistinct sat then none
    else
      match readCodes (3 * popc pres 64) (nibbles (b.drop (11 + 2 * k))) [128, 128, 128] with
      | some (codes, rest) =>
        if rest = [] || rest = [0] then some { seq := u8 b 0, n := n, present := pres, sat := sat, codes := codes } else none
      | none => none

/-- Amplitude of a code in nT (R347). -/
def codeNt (c : Nat) : Int := fxExp ((2 * c + 1 : Nat) * 24887811280312423)

/-! ### The coil model (R352, R353) -/

abbrev V3 := Int × Int × Int
def vAdd (a b : V3) : V3 := (a.1 + b.1, a.2.1 + b.2.1, a.2.2 + b.2.2)
def vSub (a b : V3) : V3 := (a.1 - b.1, a.2.1 - b.2.1, a.2.2 - b.2.2)
def vDot (a b : V3) : Int := fxMul a.1 b.1 + fxMul a.2.1 b.2.1 + fxMul a.2.2 b.2.2
def vScale (k : Int) (a : V3) : V3 := (fxMul k a.1, fxMul k a.2.1, fxMul k a.2.2)
def vNorm (a : V3) : Int := fxSqrt (vDot a a)
def vUnit (a : V3) : V3 := let n := vNorm a; (fxDiv a.1 n, fxDiv a.2.1 n, fxDiv a.2.2 n)
def vCross (a b : V3) : V3 :=
  (fxMul a.2.1 b.2.2 - fxMul a.2.2 b.2.1, fxMul a.2.2 b.1 - fxMul a.1 b.2.2, fxMul a.1 b.2.1 - fxMul a.2.1 b.1)

/-- Cosine and sine of an angle in Q16.16 turns. -/
def csQ (a : Int) : Int × Int := cosSin a

/-- The coil of a mapped channel (R353). -/
def coilC (b : Bytes) (ch : Nat) : V3 :=
  let p := antPos b ch
  (p.1 * fxOne / 100 + fxQ (antCoef b ch 1), p.2.1 * fxOne / 100 + fxQ (antCoef b ch 2),
   p.2.2 * fxOne / 100 + fxQ (antCoef b ch 3))

def coilU (b : Bytes) (ch : Nat) : V3 :=
  let az := csQ (antAz b ch + antCoef b ch 4)
  let el := csQ (antEl b ch + antCoef b ch 5)
  (fxMul el.1 az.1, fxMul el.1 az.2, el.2)

def coilM (b : Bytes) (ch : Nat) : V3 :=
  let u := coilU b ch
  let zu := vCross (0, 0, fxOne) u
  let v := if vNorm zu < (2 ^ 30 : Nat) then (fxOne, 0, 0) else vUnit zu
  let w := vCross u v
  vScale (fxQ (antCoef b ch 0)) (vAdd u (vAdd (vScale (fxQ (antCoef b ch 6)) v) (vScale (fxQ (antCoef b ch 7)) w)))

/-- dip(m, r, d) and its three partial derivatives (R353). -/
def dip (m r u : V3) (rmin : Int) : V3 × V3 × V3 × V3 :=
  let n := vNorm r
  let tiny := n < (2 ^ 44 : Nat)
  let rh := if tiny then u else (fxDiv r.1 n, fxDiv r.2.1 n, fxDiv r.2.2 n)
  let d := max n rmin
  let d3 := fxMul d (fxMul d d)
  let mr := vDot m rh
  let num := vSub (vScale (3 * mr) rh) m
  let g := (fxDiv num.1 d3, fxDiv num.2.1 d3, fxDiv num.2.2 d3)
  if tiny then (g, (0, 0, 0), (0, 0, 0), (0, 0, 0))
  else
    let deriv (mk rk : Int) (e : V3) : V3 :=
      -- d/dp_k of 3 (m.rh) rh / d^3 with the radial term, over |r|
      let ang := vAdd (vAdd (vScale (3 * mk) rh) (vScale (3 * mr) e)) (vScale (-6 * fxMul mr rk) rh)
      let rad := if n > rmin then vScale (-3 * rk) num else (0, 0, 0)
      let t := vAdd ang rad
      (fxDiv (fxDiv t.1 d3) n, fxDiv (fxDiv t.2.1 d3) n, fxDiv (fxDiv t.2.2 d3) n)
    (g, deriv m.1 rh.1 (fxOne, 0, 0), deriv m.2.1 rh.2.1 (0, fxOne, 0), deriv m.2.2 rh.2.2 (0, 0, fxOne))

/-- g of a channel at p and its partial derivatives, before the phase (R353). -/
def coilG (b : Bytes) (ch : Nat) (p : V3) : V3 × V3 × V3 × V3 :=
  let cf (j : Nat) : Int := fxQ (antCoef b ch j)
  let c := coilC b ch
  let u := coilU b ch
  let m := coilM b ch
  let r := vSub p c
  let n := vNorm r
  if n > cf 14 then ((0, 0, 0), (0, 0, 0), (0, 0, 0), (0, 0, 0))
  else
    let g1 := dip m r u (cf 12)
    let g2 :=
      if cf 11 = 0 then ((0, 0, 0), (0, 0, 0), (0, 0, 0), (0, 0, 0))
      else dip (vScale (cf 11) (-m.1, -m.2.1, m.2.2)) (vSub p (c.1, c.2.1, 2 * cf 10 - c.2.2)) u (cf 12)
    let g := vAdd g1.1 g2.1
    let past := n - cf 9
    let att := if past > 0 then fxExp (-(fxMul (cf 8) past)) else fxOne
    let datt (rk : Int) : Int := if past > 0 && n ≠ 0 then -(fxMul (fxMul (cf 8) att) (fxDiv rk n)) else 0
    (vScale att g,
     vAdd (vScale att (vAdd g1.2.1 g2.2.1)) (vScale (datt r.1) g),
     vAdd (vScale att (vAdd g1.2.2.1 g2.2.2.1)) (vScale (datt r.2.1) g),
     vAdd (vScale att (vAdd g1.2.2.2 g2.2.2.2)) (vScale (datt r.2.2) g))

/-- One used pattern. -/
structure Used where
  /-- index -/
  i : Nat
  /-- channel, amplitude in A, phase cosine, phase sine -/
  drv : List (Nat × Int × Int × Int)
  /-- measured level -/
  m : Int
  /-- magnitude squared, nT² -/
  mag2 : Int
  /-- largest COEF15 -/
  sm : Int
  /-- words with A -/
  words : List ChWord

/-- Model level and gradient of a pattern at p; none when the field is zero. -/
def levelGrad (b : Bytes) (u : Used) (p : V3) : Int × V3 × Int :=
  let terms := u.drv.map (fun d => (d, coilG b d.1 p))
  let sumV (f : (Nat × Int × Int × Int) → Int) (sel : V3 × V3 × V3 × V3 → V3) : V3 :=
    terms.foldl (fun a t => vAdd a (vScale (f t.1) (sel t.2))) (0, 0, 0)
  let fr := fun (d : Nat × Int × Int × Int) => fxMul d.2.1 d.2.2.1
  let fi := fun (d : Nat × Int × Int × Int) => fxMul d.2.1 d.2.2.2
  let re := sumV fr (·.1)
  let im := sumV fi (·.1)
  let n2 := vDot re re + vDot im im
  let dk (sel : V3 × V3 × V3 × V3 → V3) : Int :=
    fxDiv (fxMul 10014148950366963453 (vDot re (sumV fr sel) + vDot im (sumV fi sel))) n2
  let big := [re.1, re.2.1, re.2.2, im.1, im.2.1, im.2.2].foldl (fun a x => max a x.natAbs) 0
  -- a level of no field lies below the range of Q16.16 and saturates
  if n2 ≤ 0 then (-(2 ^ 75 : Nat), (0, 0, 0), 2 ^ 75)
  else (dB (isqrt (n2.toNat * 2 ^ 60) * 1000) (2 ^ 60), (dk (·.2.1), dk (·.2.2.1), dk (·.2.2.2)), big)

/-- A symmetric 3 × 3 matrix: xx, xy, xz, yy, yz, zz. -/
structure Sym where
  /-- entries -/
  xx : Int
  /-- entry -/
  xy : Int
  /-- entry -/
  xz : Int
  /-- entry -/
  yy : Int
  /-- entry -/
  yz : Int
  /-- entry -/
  zz : Int
deriving DecidableEq, Repr

/-- Smallest eigenvalue at least 2^-16: h − 2^-16 I has positive leading minors. -/
def Sym.solid (h : Sym) : Bool :=
  let l : Int := (2 ^ 44 : Nat)
  let a := h.xx - l
  let d := h.yy - l
  let f := h.zz - l
  decide (a > 0) && decide (a * d - h.xy * h.xy > 0)
    && decide (a * (d * f - h.yz * h.yz) - h.xy * (h.xy * f - h.yz * h.xz) + h.xz * (h.xy * h.yz - d * h.xz) > 0)

/-- Cofactors and determinant: the inverse is cof / det. -/
def Sym.inv (h : Sym) : Sym :=
  let cxx := h.yy * h.zz - h.yz * h.yz
  let cxy := h.xz * h.yz - h.xy * h.zz
  let cxz := h.xy * h.yz - h.xz * h.yy
  let cyy := h.xx * h.zz - h.xz * h.xz
  let cyz := h.xy * h.xz - h.xx * h.yz
  let czz := h.xx * h.yy - h.xy * h.xy
  let det := h.xx * cxx + h.xy * cxy + h.xz * cxz
  let q (x : Int) : Int := if det = 0 then 0 else x * fxOne * fxOne / det
  { xx := q cxx, xy := q cxy, xz := q cxz, yy := q cyy, yz := q cyz, zz := q czz }

/-- One evaluation of r, h and g at p (R355); the flag reports a Q16.16 intermediate out of range (log 17). -/
structure Eval where
  /-- residuals -/
  r : List Int
  /-- h -/
  h : Sym
  /-- g -/
  g : V3
  /-- Σ w r² -/
  chi : Int
  /-- saturation -/
  ov : Bool

def big15 (x : Int) : Bool := x.natAbs ≥ 2 ^ 75

def evalAt (b : Bytes) (us : List Used) (p : V3) : Eval :=
  us.foldl (fun a u =>
    let lg := levelGrad b u p
    let r := lg.1 - u.m
    let j := lg.2.1
    let w := fxDiv fxOne (fxOne * 2617 / 10000 + fxMul u.sm u.sm)
    let wx := fxMul w j.1
    let wy := fxMul w j.2.1
    let wz := fxMul w j.2.2
    { r := a.r ++ [r],
      h := { xx := a.h.xx + fxMul wx j.1, xy := a.h.xy + fxMul wx j.2.1, xz := a.h.xz + fxMul wx j.2.2,
             yy := a.h.yy + fxMul wy j.2.1, yz := a.h.yz + fxMul wy j.2.2, zz := a.h.zz + fxMul wz j.2.2 },
      g := vAdd a.g (fxMul wx r, fxMul wy r, fxMul wz r),
      chi := a.chi + fxMul w (fxMul r r),
      ov := a.ov || lg.2.2 ≥ 2 ^ 75 || big15 j.1 || big15 j.2.1 || big15 j.2.2 || big15 (a.h.xx + fxMul wx j.1)
        || big15 (a.h.yy + fxMul wy j.2.1) || big15 (a.h.zz + fxMul wz j.2.2) })
    { r := [], h := { xx := 0, xy := 0, xz := 0, yy := 0, yz := 0, zz := 0 }, g := (0, 0, 0), chi := 0, ov := false }

/-- End of the iteration. -/
inductive Iter where
  /-- last step, OVERFLOW -/
  | noFix (step : Int) (ov : Bool)
  /-- p, iterations, converged, last step, OVERFLOW -/
  | at_ (p : V3) (it : Nat) (conv : Bool) (step : Int) (ov : Bool)

/-- The loop of R355 with `n` iterations left. -/
def solveLoop (b : Bytes) (us : List Used) : Nat → Nat → V3 → Int → Bool → Iter
  | 0, it, p, step, ov => .at_ p it false step ov
  | n + 1, it, p, step, ov =>
    let e := evalAt b us p
    if !e.h.solid then .noFix step (ov || e.ov)
    else
      let v := e.h.inv
      let d0 : V3 := (-(fxMul v.xx e.g.1 + fxMul v.xy e.g.2.1 + fxMul v.xz e.g.2.2),
        -(fxMul v.xy e.g.1 + fxMul v.yy e.g.2.1 + fxMul v.yz e.g.2.2),
        -(fxMul v.xz e.g.1 + fxMul v.yz e.g.2.1 + fxMul v.zz e.g.2.2))
      let len := vNorm d0
      let d := if len > fxOne then vUnit d0 else d0
      let len' := vNorm d
      let p' := vAdd p d
      if len' < fxOne / 100 then .at_ p' (it + 1) true len' (ov || e.ov)
      else solveLoop b us n (it + 1) p' len' (ov || e.ov)

/-! ### Eigenvalues by rotations -/

/-- One rotation in the plane (x, y) of a matrix and of the three rows of its eigenvector matrix. -/
def jacobi (a : Sym) (v : V3 × V3 × V3) : Sym × (V3 × V3 × V3) :=
  if a.xy = 0 then (a, v)
  else
    let th := fxDiv (a.yy - a.xx) (2 * a.xy)
    let t0 := fxDiv fxOne ((th.natAbs : Int) + fxSqrt (fxMul th th + fxOne))
    let t := if th ≥ 0 then t0 else -t0
    let c := fxDiv fxOne (fxSqrt (fxMul t t + fxOne))
    let s := fxMul t c
    let rot (r : V3) : V3 := (fxMul c r.1 - fxMul s r.2.1, fxMul s r.1 + fxMul c r.2.1, r.2.2)
    ({ xx := a.xx - fxMul t a.xy, xy := 0, xz := fxMul c a.xz - fxMul s a.yz,
       yy := a.yy + fxMul t a.xy, yz := fxMul s a.xz + fxMul c a.yz, zz := a.zz }, (rot v.1, rot v.2.1, rot v.2.2))

/-- Cyclic renaming x → y → z → x, so that `jacobi` meets every plane. -/
def symRoll (a : Sym) : Sym := { xx := a.yy, xy := a.yz, xz := a.xy, yy := a.zz, yz := a.xz, zz := a.xx }
def vRoll (v : V3) : V3 := (v.2.1, v.2.2, v.1)

/-- `n` rotations; a multiple of three restores the naming. -/
def jacobiN : Nat → Sym → V3 × V3 × V3 → Sym × (V3 × V3 × V3)
  | 0, a, v => (a, v)
  | n + 1, a, v =>
    let r := jacobi a v
    jacobiN n (symRoll r.1) (vRoll r.2.1, vRoll r.2.2.1, vRoll r.2.2.2)

/-- Eigenvalues with eigenvectors, largest first. -/
def eigen (a : Sym) : List (Int × V3) :=
  let r := jacobiN 30 a ((fxOne, 0, 0), (0, fxOne, 0), (0, 0, fxOne))
  let e : List (Int × V3) :=
    [(r.1.xx, (r.2.1.1, r.2.2.1.1, r.2.2.2.1)), (r.1.yy, (r.2.1.2.1, r.2.2.1.2.1, r.2.2.2.2.1)),
     (r.1.zz, (r.2.1.2.2, r.2.2.1.2.2, r.2.2.2.2.2))]
  e.mergeSort (fun x y => decide (x.1 ≥ y.1))

/-! ### Zones (R360); lengths in cm, 2^60 -/

/-- Vertices of a zone. -/
def znVerts (z : Bytes) : List (Int × Int) :=
  (List.range (u8 z 1)).map (fun i => (s16 z (8 + 4 * i) * fxOne, s16 z (10 + 4 * i) * fxOne))

/-- Edges of a polygon. -/
def edges (v : List (Int × Int)) : List ((Int × Int) × (Int × Int)) := v.zip (v.drop 1 ++ v.take 1)

/-- Squared distance of a point to a segment, 2^60. -/
def segDist2 (x y : Int) (e : (Int × Int) × (Int × Int)) : Int :=
  let dx := e.2.1 - e.1.1
  let dy := e.2.2 - e.1.2
  let l := fxMul dx dx + fxMul dy dy
  let t0 := fxDiv (fxMul (x - e.1.1) dx + fxMul (y - e.1.2) dy) l
  let t := max 0 (min fxOne t0)
  let qx := x - e.1.1 - fxMul t dx
  let qy := y - e.1.2 - fxMul t dy
  fxMul qx qx + fxMul qy qy

/-- Squared distance to the polygon's boundary. -/
def polyDist2 (x y : Int) (v : List (Int × Int)) : Int :=
  match (edges v).map (segDist2 x y) with
  | [] => 0
  | d :: r => r.foldl min d

/-- The point lies in the polygon; its boundary belongs to it. -/
def inPoly (x y : Int) (v : List (Int × Int)) : Bool :=
  polyDist2 x y v = 0 ||
  (edges v).foldl (fun a e =>
    let y1 := e.1.2
    let y2 := e.2.2
    if decide (y1 > y) != decide (y2 > y) then
      -- the edge crosses the ray to +x when x < x1 + (y − y1)(x2 − x1)/(y2 − y1)
      let lhs := (x - e.1.1) * (y2 - y1)
      let rhs := (y - y1) * (e.2.1 - e.1.1)
      if (y2 > y1 && lhs < rhs) || (y2 < y1 && lhs > rhs) then !a else a
    else a) false

def znMin (z : Bytes) : Int := s16 z 4 * fxOne
def znMax (z : Bytes) : Int := s16 z 6 * fxOne

/-- The prism contains the point. -/
def znHas (p : V3) (z : Bytes) : Bool :=
  inPoly p.1 p.2.1 (znVerts z) && decide (znMin z ≤ p.2.2) && decide (p.2.2 ≤ znMax z)

/-- Distance to the nearest face from inside. -/
def znInside (p : V3) (z : Bytes) : Int :=
  min (fxSqrt (polyDist2 p.1 p.2.1 (znVerts z))) (min (p.2.2 - znMin z) (znMax z - p.2.2))

/-- Distance to the prism from outside. -/
def znOutside (p : V3) (z : Bytes) : Int :=
  let dz := max 0 (max (znMin z - p.2.2) (p.2.2 - znMax z))
  let d2 := if inPoly p.1 p.2.1 (znVerts z) then 0 else polyDist2 p.1 p.2.1 (znVerts z)
  fxSqrt (d2 + fxMul dz dz)

/-- The zones in force with their numbers. -/
def zonesOf (s : State) : List (Nat × Bytes) :=
  if s.set.zones = [] then [] else (List.range (min 32 (znCount s.set.zones))).map (fun i => (i, znRec s.set.zones i))

/-- ZONE and MARGIN of a point (R360). -/
def zoneOf (s : State) (p : V3) : Nat × Nat :=
  let zs := zonesOf s
  let hit := zs.filter (fun z => znHas p z.2)
  let m (d : Int) : Nat := min 65535 (roundDiv d (2 ^ 60)).toNat
  match hit with
  | z :: r =>
    let b := r.foldl (fun a x => if u8 x.2 2 > u8 a.2 2 then x else a) z
    (b.1, m (znInside p b.2))
  | [] =>
    match zs.map (fun z => znOutside p z.2) with
    | [] => (255, 65535)
    | d :: r => (255, m (r.foldl min d))

/-! ### The job (R354 to R358) -/

/-- Class of a pattern (R354). -/
inductive PatClass where
  | drop | noise | excluded | satSeen | cand
deriving DecidableEq, Repr

/-- A pattern as reported: class, axis amplitudes, driven words. -/
structure Pat where
  /-- index -/
  i : Nat
  /-- class before the noise test -/
  cls : PatClass
  /-- magnitude squared, nT² -/
  mag2 : Int
  /-- words driven -/
  drv : List ChWord
  /-- K_SCALE -/
  k : Nat

/-- Position of a pattern among the coded ones. -/
def codedIndex (r : Report) (i : Nat) : Nat := popc r.present i

def patOf (b scan res : Bytes) (r : Report) (i : Nat) : Pat :=
  let words := (scanPatterns scan).getD i []
  let rec_ := sl res (4 + 8 * i) 8
  let named := drivenWords words
  let drv := named.filter (fun w => !(u16 rec_ 2).testBit w.ch && antMapped b w.ch)
  let satOf (a : Nat) := r.sat.find? (fun x => x.1 = i && x.2.1 = a)
  let amp (a : Nat) : Int := codeNt (r.codes.getD (3 * codedIndex r i + a) 0)
  let isHigh (a : Nat) : Bool := match satOf a with | some x => x.2.2 | none => false
  let isLow (a : Nat) : Bool := match satOf a with | some x => !x.2.2 | none => false
  let noise := drv = []
  let val (a : Nat) : Int :=
    if isLow a then 0 else if isHigh a then (63096 * fxOne) else amp a
  let mag2 := fxMul (val 0) (val 0) + fxMul (val 1) (val 1) + fxMul (val 2) (val 2)
  let allLow := isLow 0 && isLow 1 && isLow 2
  let cls :=
    if !r.present.testBit i then PatClass.drop
    else if noise then .noise
    else if u16 rec_ 4 ≠ 0 then .excluded
    else if isHigh 0 || isHigh 1 || isHigh 2 then .satSeen
    else if (isLow 0 || isLow 1 || isLow 2) && mag2 < 100 * fxOne then .satSeen
    else .cand
  { i := i, cls := cls, mag2 := if noise && allLow then fxOne else mag2, drv := drv, k := u16 rec_ 0 }

def usedOf (b scan : Bytes) (p : Pat) : Used :=
  { i := p.i, m := dB (isqrt (p.mag2.toNat * 2 ^ 60)) (2 ^ 60), mag2 := p.mag2,
    sm := p.drv.foldl (fun a w => max a (fxQ (antCoef b w.ch 15))) 0, words := p.drv,
    drv := p.drv.map (fun w =>
      let t := cosSin ((w.p * 256 : Nat) + antCoef b w.ch 13)
      (w.ch, (p.k * scanIfs scan * w.a : Nat) * fxOne / ((1024 * 1000 * 1023 : Nat) : Int), t.1, t.2)) }

/-- p0: the mean of the mapped channels' POS weighted by A × 10^(m/10) (R355). -/
def startPoint (b : Bytes) (scan : Bytes) (us : List Used) : V3 :=
  let ws := (antChannels b).map (fun ch => (ch, (us.map (fun u =>
    (((scanPatterns scan).getD u.i []).filter (fun w => w.ch = ch)).foldl (fun a w => a + (w.a : Int) * u.mag2) 0)).sum))
  let tot := (ws.map (·.2)).sum
  let co (f : Int × Int × Int → Int) : Int :=
    if tot = 0 then 0 else (ws.map (fun w => w.2 * f (antPos b w.1))).sum * fxOne / (100 * tot)
  (co (·.1), co (·.2.1), co (·.2.2))

/-- cm, nearest, as s16. -/
def posCm (v : Int) : Int :=
  let c := roundDiv (v * 100) (2 ^ 60)
  if c > 32767 then 32767 else if c < -32768 then -32768 else c

/-- 1σ of a variance in m², cm, rounded up. -/
def sigmaCm (v : Int) : Nat :=
  let c := fxSqrt (v * 10000)
  min 65535 (((c + fxOne - 1) / fxOne).toNat)

/-- Direction of the major axis (R358). -/
def majorDir (v : V3) : Int × Int :=
  let az := angle16 v.1 v.2.1
  let el := angle16 (fxSqrt (fxMul v.1 v.1 + fxMul v.2.1 v.2.1)) v.2.2
  let (az, el) := if el < 0 then (sgn 16 (toU 16 (az + 32768)), -el) else (az, el)
  let az := if el = 0 && az < 0 then sgn 16 (toU 16 (az + 32768)) else az
  (if el = 16384 then 0 else az, el)

/-- A solver job (R354 to R360): status, result and LOC_EVT bits. -/
def solve (s : State) (scan res body : Bytes) : RangeOut :=
  let b := s.set.antenna
  let lastStep (d : Int) : Bytes := leBytes 2 (min 65535 (roundDiv (d * 1000) (2 ^ 60)).toNat)
  -- R358 gives no content for FRAME_ERROR: the same zeros. DESIGN CHOICE, log 125
  let empty (st : Status) (excl flags : Nat) (step : Int) (ev : List Nat) : RangeOut :=
    { st := st, evts := ev, bytes := List.replicate 20 0 ++ [255, 0, 0, 0] ++ leBytes 8 excl
        ++ leBytes 2 flags ++ lastStep step ++ List.replicate 12 0 }
  if b = [] || antMask b = 0 then empty .notReady 0 0 0 []
  else match reportOf body with
    | none => empty .frameError 0 0 0 []
    | some r =>
      let n := min r.n (min (u8 res 0) (scanCount scan))
      let pats := (List.range n).map (patOf b scan res r)
      let noise := (pats.filter (·.cls == .noise)).foldl (fun a p => max a p.mag2) 0
      let use := pats.filter (fun p => p.cls == .cand && decide (p.mag2 ≥ 4 * noise))
      let us := use.map (usedOf b scan)
      let excl := (List.range (scanCount scan)).foldl (fun a i => if !(use.any (·.i = i)) then a + 2 ^ i else a) 0
      let drop := pats.any (·.cls == .drop)
      let satS := pats.any (·.cls == .satSeen)
      let base := 8 * b2n drop + 16 * b2n satS + 32 * b2n (use.any (·.k < 1024))
        + 64 * b2n (use.any (fun p => p.drv.any (fun w => (chGet s w.ch).rev = 2)))
      let ev0 := if drop then [3] else []
      if us.length < 4 then empty .noFix excl base 0 (0 :: ev0)
      else match solveLoop b us 8 0 (startPoint b scan us) 0 false with
        | .noFix step ov => empty .noFix excl (base + 4 * b2n ov) step (0 :: ev0)
        | .at_ p it conv step ov0 =>
          let e := evalAt b us p
          let ov := ov0 || e.ov
          let open_ (i : Nat) : Int := Config.solverOpen (scan ++ res ++ body) i
          let pos := if ov then (open_ 0, open_ 1, open_ 2) else p
          if !e.h.solid then
            empty .noFix excl (base + 4 * b2n ov + b2n (!conv)) step (0 :: (if conv then [] else [1]) ++ ev0)
          else
            let dof : Int := us.length - 3
            let red := e.chi / dof
            let s2 := max fxOne red
            let iv := e.h.inv
            let cov : Sym := { xx := fxMul s2 iv.xx, xy := fxMul s2 iv.xy, xz := fxMul s2 iv.xz, yy := fxMul s2 iv.yy,
                               yz := fxMul s2 iv.yz, zz := fxMul s2 iv.zz }
            let eg := eigen cov
            let sg (i : Nat) : Nat := sigmaCm ((eg.getD i (0, (0, 0, 0))).1)
            let dir := majorDir ((eg.getD 0 (0, (fxOne, 0, 0))).2)
            let rms := fxSqrt ((e.r.map (fun x => fxMul x x)).sum / us.length)
            let pc : V3 := (p.1 * 100, p.2.1 * 100, p.2.2 * 100)
            let z := zoneOf s pc
            let high := decide (red > 9 * fxOne)
            let conf := decide (z.2 ≥ 2 * sg 0)
            let flags := b2n (!conv) + 2 * b2n high + 4 * b2n ov + base + 128 * b2n conf
            { st := .ok, evts := (if conv then [] else [1]) ++ (if high then [2] else []) ++ ev0,
              bytes := leBytes 2 (toU 16 (posCm pos.1)) ++ leBytes 2 (toU 16 (posCm pos.2.1))
                ++ leBytes 2 (toU 16 (posCm pos.2.2))
                ++ leBytes 2 (sg 0) ++ leBytes 2 (sg 1) ++ leBytes 2 (sg 2)
                ++ leBytes 2 (toU 16 dir.1) ++ leBytes 2 (toU 16 dir.2)
                ++ leBytes 2 (min 65535 (roundDiv (rms * 100) (2 ^ 60)).toNat) ++ leBytes 1 it ++ leBytes 1 us.length
                ++ leBytes 1 z.1 ++ [0] ++ leBytes 2 z.2 ++ leBytes 8 excl ++ leBytes 2 flags
                ++ lastStep step ++ List.replicate 12 0 }

end Sys2Proof.Machine
end

