-- ==== Sys2Proof/Machine/KeyOps.lean ====
section
/-! DEFINITION. Key-store and generator operations (R464 to R473, R477 to R508): slot commits, class erase, zeroise,
discarding and seeding the generator. -/

namespace Sys2Proof.Machine

/-! ### Generator -/

/-- Discard the DRBG state, the pool, the private wires and the queue (R468). -/
def rngDiscard (s : State) : State := { s with rng.queue := [] }

/-- The generator holds a new state: an instantiate has completed (R467, R469). The private wires are filled: four masking
requests and one each for challenges and keys count (R459, R463). -/
def rngFresh (s : State) : State :=
  { s with rng.seeded := true, rng.recovering := false, rng.reinst := false, rng.failRun := 0, rng.requests := 6 }

/-- Order a re-instantiation (R633): a recovery in progress or the latch stays as it is. -/
def rngReinst (s : State) : State :=
  let s := rngDiscard s
  if s.rng.latched || s.rng.recovering || !s.rng.seeded then s else { s with rng.reinst := true }

/-! ### Records of the key store; the payload layout is the model's (DESIGN CHOICE, log 18) -/

/-- Record of a persistent slot (R492). -/
def slotRecord (s : State) (k : Slot) : Bytes :=
  leBytes 4 k.attr.toNat ++ [BitVec.ofNat 8 k.gen, if k.key.isSome then 1 else 0, 0, 0] ++ leBytes 4 k.epoch ++ leBytes 4 k.ctr
    ++ (match k.key, vget s.ks.classKey (atClass k.attr) none with
        | some key, some c => padTo 48 (Config.wrapKey c key)
        | _, _ => List.replicate 48 0)

/-- Record of a class (R492, R496). -/
def classRecord (s : State) (c : Nat) : Bytes :=
  leBytes 4 (vget s.ks.epoch c 0) ++ [if (vget s.ks.classKey c none).isSome then 1 else 0, 0, 0, 0]
    ++ (match vget s.ks.classKey c none, s.ks.root with
        | some k, some r => padTo 40 (Config.wrapRoot r k.toNat)
        | _, _ => List.replicate 40 0)

/-- Write both copies of a record; the second write goes to the other bank (R520). -/
def recWriteBoth (tam : Bool) (rid : Nat) (data : Bytes) (s : State) : Bool × State :=
  let a := recWrite tam rid data s
  if !a.1.isOk then (false, a.2)
  else
    let b := recWrite tam rid data a.2
    (b.1.isOk, b.2)

/-- Erase a class (R496): both copies of its record, no key, the epoch plus 1. The first write refused leaves it. -/
def classErase (c : Nat) (s : State) : Bool × State :=
  let e := { s with ks.classKey := vset s.ks.classKey c none, ks.epoch := vmod s.ks.epoch c (· + 1) }
  let r := recWriteBoth true (0x20 + c) (classRecord e c) s
  if r.1 then
    (true, evKs 4 { r.2 with ks.classKey := vset r.2.ks.classKey c none, ks.epoch := vmod r.2.ks.epoch c (· + 1) })
  else (false, r.2)

/-- A class that holds no key gets a fresh one from the key-generation wire (R496). -/
def classFresh (c : Nat) (s : State) : Bool × State :=
  if (vget s.ks.classKey c none).isSome then (true, s)
  else
    let k := drawKey s
    let s' := { k.2 with ks.classKey := vset k.2.ks.classKey c (some k.1) }
    let r := recWrite false (0x20 + c) (classRecord s' c) s'
    (r.1.isOk, if r.1.isOk then r.2 else { r.2 with ks.classKey := vset r.2.ks.classKey c none })

/-- Result of a slot commit: the record is written with the linked counter's value plus 1, then the counter is
incremented (R494, R495). `key` none erases. -/
def slotCommit (n : Nat) (attr : BitVec 32) (key : Option (BitVec 256)) (s : State) : Status × State :=
  let old := slotGet s n
  let gen := (old.gen + 1) % 256
  if n ≥ 56 then
    (.ok, slotMod n (fun _ => { Slot.empty with attr := attr, gen := gen, key := key }) s)
  else
    let cls := atClass attr
    let a := if key.isSome then classFresh cls s else (true, s)
    if !a.1 then (.lowEnergy, a.2)
    else
      let s := a.2
      let linked := key.isSome && atCounter attr < 128
      let cv := if linked then (ctrRead (atCounter attr) s).1.getD 0 else 0
      let k : Slot := { attr := attr, gen := gen, key := key, epoch := vget s.ks.epoch cls 0,
                        ctr := if linked then cv + 1 else 0, rejected := false }
      let w := recWrite false (0x40 + n) (slotRecord s k) s
      if !w.1.isOk then (.lowEnergy, w.2)
      else
        let s := slotMod n (fun _ => k) w.2
        if linked then (.ok, (ctrIncrement (atCounter attr) s).2) else (.ok, s)

/-- Opening a record with a linked counter (R495): equal or one ahead is accepted; anything else reads empty. -/
def slotOpen (n : Nat) (s : State) : State :=
  let k := slotGet s n
  if n ≥ 56 || k.key.isNone || atCounter k.attr ≥ 128 then s
  else
    match (ctrRead (atCounter k.attr) s).1 with
    | some v =>
      if k.ctr = v then s
      else if k.ctr = v + 1 then (ctrIncrement (atCounter k.attr) s).2
      else dtc 0xB75101 (evKs 2 (slotMod n (fun k => { k with rejected := true }) s))
    | none => dtc 0xB75101 (evKs 2 (slotMod n (fun k => { k with rejected := true }) s))

/-! ### Zeroise (R502, R456) -/

/-- Erase a volatile slot. -/
def slotVoid (n : Nat) (s : State) : State := slotMod n (fun k => { k with key := none }) s

/-- Cipher and HPK jobs in flight end with TAMPER, outputs zeroed (R456). -/
def tamperJobs (s : State) : State :=
  let hit := s.job.ops.any (fun o => dsKind o.desc = 1 && o.result.isNone)
  let s := endOps (fun o => dsKind o.desc = 1 || dsKind o.desc = 2 || dsKind o.desc = 3) .tamper s
  if hit then evAes 4 s else s

/-- Zero every holding buffer and T_h (R441). -/
def gateZeroAll (s : State) : State := { s with pages := s.pages.map gateZero }

/-- Zeroise: volatile slots, holding buffers, T_h, ASP session keys; the DRBG is re-instantiated (R502). -/
def zeroise (s : State) : State :=
  let s := tamperJobs s
  let s := (List.range 8).foldl (fun s i => slotVoid (56 + i) s) s
  let s := gateZeroAll s
  let s := { s with pages := s.pages.map (fun p => { p with aspKey := none, subs := 0, evPend := [] }) }
  rngReinst s

end Sys2Proof.Machine
end

