-- ==== Sys2Proof/Machine/Cipher.lean ====
section
/-! DEFINITION. The cipher engine (R436 to R449, R456): block jobs, the release gate, suspension, parity faults are in
Tamper. A job's blocks are computed whole within its command. -/

namespace Sys2Proof.Machine

/-! ### PARAMS of kind 1 (R436) -/

def caFunc (p : Bytes) : Nat := u8 p 0
def caDec (p : Bytes) : Bool := bit (u8 p 1) 0
def caKlen (p : Bytes) : Nat := u8 p 1 / 2 % 4
def caX (p : Bytes) (i : Nat) : Bool := bit (u8 p 2) (i - 1)
def caPost (p : Bytes) : Nat := u8 p 3
def caDest (p : Bytes) : Nat := u8 p 4
def caLast (p : Bytes) : Nat := u8 p 5
def caCount (p : Bytes) : Nat := u16 p 6
def caHbIn (p : Bytes) : Nat := u16 p 8
def caHbPost (p : Bytes) : Nat := u16 p 10
def caHbOut (p : Bytes) : Nat := u16 p 12
def caPostOff (p : Bytes) : Nat := u32 p 16

/-- The job names its page's holding buffer or T_h (R442). -/
def namesGate (o : Op) : Bool :=
  let p := dsParams o.desc
  dsKind o.desc = 1 && (caFunc p = 1 || caX p 2 || caX p 3 || caPost p = 2 || caDest p = 1 || caDest p = 2)

/-- Class limit in blocks (R423). -/
def classBlocks (cls : Nat) : Nat := if cls = 0 then 256 else 16

/-- Refusals of R439 for a block job, in order. -/
def blockCheck (s : State) (o : Op) : Option Status :=
  let p := dsParams o.desc
  let n := caCount p
  let a := (slotGet s (dsSlot o.desc)).attr
  let badVal := u8 p 1 ≥ 8 || u8 p 2 ≥ 8 || caPost p > 2 || caDest p > 2 || !allZero (sl p 14 2) || !allZero (sl p 20 12)
    || caPostOff p ≥ 2 ^ 23 || caKlen p = 3 || caLast p = 0 || caLast p > 16 || caFunc p > 1
    || caHbIn p % 16 ≠ 0 || caHbPost p % 16 ≠ 0 || caHbOut p % 16 ≠ 0 || n > classBlocks o.cls
  if badVal then some .badDesc
  else if dsSrcLen o.desc ≠ (if caX p 1 then 16 * n else 0) then some .badDesc
  else if (caX p 3 || caDest p = 2) && n ≠ 1 then some .badDesc
  else if (caX p 2 && caHbIn p + 16 * n > 4096) || (caPost p = 2 && caHbPost p + 16 * n > 4096)
      || (caDest p = 1 && caHbOut p + 16 * n > 4096) then some .badDesc
  else if caPost p = 1 && !inGrant s o.page (caPostOff p) (16 * n) then some .denied
  else if (caX p 2 || caPost p = 2 || caX p 3) && caDest p = 0 then some .denied
  else if atGated a && caDest p = 0 then some .denied
  else if (if caDec p then !atDec a else !atEnc a) || (atKlen a ≠ 3 && atKlen a ≠ caKlen p) || atDerive a || atPin a then
    some .denied
  else none

/-- Pair A's next job goes into the first of its rings with nothing in flight. -/
def accRing (s : State) : Option Nat :=
  (List.range 4).find? (fun n => (ringGet s n).pi = (ringGet s n).fi && (ringGet s n).cqPi = (ringGet s n).cqCi)

/-- One job that pair A places in JR0 to JR3 and whose completion it takes, within the command that needs the result: its tag,
its ring's indices and what R428 records of it. The bytes of its descriptor and of its entry stand in memory of pair A that
the spec does not lay out. DESIGN CHOICE, log 115. -/
def accJob (s : State) : State :=
  match s.job.free, accRing s with
  | t :: rest, some n =>
    let q := (ringGet s n).expect.getD 0
    let s := { (ringMod n (fun r => { r with pi := r.pi + 1, fi := r.fi + 1, cqPi := r.cqPi + 1, cqCi := r.cqCi + 1, expect := some (q + 1) }) s) with
      job.free := rest ++ [t], job.fetched := s.job.fetched + 1 }
    ckptItem 0 (.cqCi n (ringGet s n).cqCi) (ckptItem 0 (.complete t .ok) (ckptItem 0 (.fetch t q) s))
  | _, _ => s

/-- Refusals of R439 for a gate job. -/
def gateCheck (_s : State) (o : Op) : Option Status :=
  let p := dsParams o.desc
  if dsSrcLen o.desc < 8 || dsSrcLen o.desc > 16 || caCount p > 4096 || dsSlot o.desc ≠ 0 then some .badDesc else none

/-! ### Blocks (R437, R441) -/

/-- A 16-byte block of bytes as a 128-bit value, byte 0 most significant. -/
def blockOf (b : Bytes) : BitVec 128 := BitVec.ofNat 128 (beNat (padTo 16 b))

/-- Holding-buffer bytes. -/
def hbRead (p : Page) (off n : Nat) : Bytes := memGetBytes 0 p.hb off n

/-- Write a holding-buffer block: OVERRUN when WRITTEN is already set; WRITTEN set, COVERED cleared (R441). -/
def hbWrite (off : Nat) (y : Bytes) (p : Page) : Page :=
  let i := off / 16
  { p with hb := memSetBytes 0 p.hb off y, overrun := p.overrun || p.written.getLsbD i,
           written := p.written ||| onBit 256 i, covered := p.covered &&& ~~~(onBit 256 i) }

/-- Block i of a job under its key snapshot (R437). -/
def aesOne (o : Op) (key : BitVec 256) (i : Nat) (s : State) : State :=
  let d := o.desc
  let p := dsParams d
  let g := pageGet s o.page
  let x0 : BitVec 128 := if caX p 1 then blockOf (winRead s (dsSrc d + 16 * i) 16) else 0
  let x1 := if caX p 2 then x0 ^^^ blockOf (hbRead g (caHbIn p + 16 * i) 16) else x0
  let x2 := if caX p 3 then x1 ^^^ g.th else x1
  let y0 := aesBlock (caDec p) (16 + 8 * caKlen p) key x2
  let y1 := if caPost p = 1 then y0 ^^^ blockOf (winRead s (caPostOff p + 16 * i) 16)
    else if caPost p = 2 then y0 ^^^ blockOf (hbRead g (caHbPost p + 16 * i) 16) else y0
  let y := blockBytes y1
  let y := if i + 1 = caCount p then padTo 16 (y.take (caLast p)) else y
  if caDest p = 0 then
    opMod o.tag (fun o => { o with written := 16 * (i + 1) }) (winWrite s (dsDst d + 16 * i) y)
  else if caDest p = 1 then pageMod o.page (hbWrite (caHbOut p + 16 * i) y) s
  else
    pageMod o.page (fun g =>
      let g := if caX p 3 then g else { g with covered := 0 }
      let g := if caX p 2 then { g with covered := g.covered ||| onBit 256 (caHbIn p / 16) } else g
      { g with th := blockOf y }) s

/-- Blocks from i, n of them. -/
def aesBlocks (o : Op) (key : BitVec 256) : Nat → Nat → State → State
  | _, 0, s => s
  | i, n + 1, s => aesBlocks o key (i + 1) n (aesOne o key i s)

/-- A waiting CPG_GATE_CLEAR takes effect once the jobs fetched before it have ended (R456). -/
def gateSettle (page : Nat) (s : State) : State :=
  match (pageGet s page).clearAt with
  | some k =>
    if s.job.ops.any (fun o => namesGate o && o.page = page && o.order < k && o.result.isNone) then s
    else pageMod page (fun g => { gateZero g with clearAt := none }) s
  | none => s

/-- The same for every page. -/
def gateSettleAll (s : State) : State := (List.range 8).foldl (fun s p => gateSettle p s) s

/-! ### Which job the engine takes (R422 to R424, R442) -/

/-- An earlier job of the page that names the gate has not ended (R442). -/
def gateHeld (s : State) (o : Op) : Bool :=
  namesGate o && s.job.ops.any (fun x => namesGate x && x.page = o.page && x.order < o.order && x.result.isNone)

/-- Rank of a waiting job: urgent CPG0, urgent, suspended, normal, bulk. After 16 urgent jobs in a row a suspended job
comes first (R424). -/
def aesRank (s : State) (o : Op) : Nat :=
  if o.suspended then (if s.job.urgentRun ≥ 16 then 0 else 3)
  else if o.cls = 2 then (if o.page = 0 then 1 else 2)
  else if o.cls = 1 then 4 else 5

/-- Kind 1 jobs that may start now. -/
def aesReady (s : State) : List Op :=
  s.job.ops.filter (fun o => dsKind o.desc = 1 && o.result.isNone && !gateHeld s o)

/-- The engine takes this job next. -/
def aesNext (s : State) (o : Op) : Bool :=
  (aesReady s).all (fun x => x.tag = o.tag || aesRank s o < aesRank s x || (aesRank s o = aesRank s x && o.order < x.order))

/-- The engine takes this job from its queue: a bulk job may have been taken before an urgent one fetched later arrived, which
then suspends it (R423; which block that is, the command says: DESIGN CHOICE, log 27). -/
def aesTakes (s : State) (o : Op) : Bool :=
  (aesReady s).all (fun x => x.tag = o.tag || (o.cls = 0 && x.cls = 2 && o.order < x.order) || aesRank s o < aesRank s x
    || (aesRank s o = aesRank s x && o.order < x.order))

/-- An urgent job waits beside this one. -/
def urgentWaits (s : State) (o : Op) : Bool :=
  (aesReady s).any (fun x => x.tag ≠ o.tag && x.cls = 2)

/-- A sequence or round of the access engine runs: an urgent job of pair A may reach the engine during a bulk job (R41).
DESIGN CHOICE, log 115. -/
def accWorks (s : State) : Bool := s.acc.seqn.isSome || s.acc.round.isSome

/-- Key of a job at dispatch (R445): none is KEY_GONE. -/
def jobKey (s : State) (o : Op) : Option (BitVec 256) :=
  if bit (dsFlags o.desc) 1 && (slotGet s (dsSlot o.desc)).gen ≠ dsGen o.desc then none
  else slotKey s (dsSlot o.desc)

/-- Count urgent jobs run past a suspended one (R424). -/
def noteRun (o : Op) (s0 : State) : State :=
  let s := { s0 with cip.running := some o.tag }
  if o.suspended then { s with job.urgentRun := 0 }
  else if o.cls = 2 && s.job.ops.any (·.suspended) then { s with job.urgentRun := s.job.urgentRun + 1 }
  else { s with job.urgentRun := 0 }

/-- Run blocks of a job from its present block; `n` blocks before an urgent job suspends a bulk job (R423, R424). -/
def aesRun (o : Op) (key : BitVec 256) (n : Nat) (s : State) : State :=
  let total := caCount (dsParams o.desc)
  let left := total - o.blocks
  let yield_ := o.cls = 0 && (urgentWaits s o || accWorks s) && n < left
  let k := if yield_ then n else left
  let s := countRequests k (noteRun o (aesBlocks o key o.blocks k s))
  if yield_ then
    opMod o.tag (fun o => { o with blocks := o.blocks + k, suspended := true, wasSuspended := true, key := some key })
      { s with cip.running := none }
  else opEnd o.tag .ok false [] (opMod o.tag (fun o => { o with blocks := total, suspended := false, key := none }) s)

/-- After 16 urgent jobs in a row a suspended job runs one block (R424). -/
def suspendedTurn (s : State) : State :=
  match s.job.ops.find? (fun o => o.suspended && o.result.isNone) with
  | none => s
  | some o =>
    match o.key with
    | none => s
    | some key =>
      if s.job.urgentRun < 16 then s
      else
        let s := countRequests 1 (aesOne o key o.blocks { s with job.urgentRun := 0 })
        if o.blocks + 1 < caCount (dsParams o.desc) then opMod o.tag (fun o => { o with blocks := o.blocks + 1 }) s
        else opEnd o.tag .ok false [] (opMod o.tag (fun o => { o with blocks := o.blocks + 1, suspended := false, key := none }) s)

/-- `n` single-block urgent jobs of pair A on the cipher engine, past any suspended job (R41, R381, R424). -/
def accAes : Nat → State → State
  | 0, s => s
  | n + 1, s =>
    let s := suspendedTurn s
    let s := if s.job.ops.any (·.suspended) then { s with job.urgentRun := s.job.urgentRun + 1 } else s
    accAes n (countRequests 1 (accJob s))

/-- AES_BLOCK_JOB (R437, R439, R445, R449): refusals, KEY_GONE, a generator that cannot serve, then the blocks. -/
def aesBlockJob (tag blocks : Nat) (s : State) : State :=
  match opLive s tag 1 with
  | none => s
  | some o =>
    let p := dsParams o.desc
    if caFunc p = 1 || o.suspended || gateHeld s o then s
    else match blockCheck s o with
      | some st => opEnd tag st false [] s
      | none =>
        if caCount p = 0 then opEnd tag .ok false [] s
        else if s.rng.latched then opEnd tag .entropyFail false [] (evAes 3 s)
        else if !rngServes s || !aesTakes s o then s
        else match jobKey s o with
          | none => opEnd tag .keyGone false [] s
          | some key => aesRun o key (max 1 blocks) s

def execAesBlockJob (tag : Fin 512) (blocks : Nat) (s : State) : Host.Outcome State Fault Refusal :=
  done s (gateSettleAll (aesBlockJob tag.val blocks s))

/-- AES_JOB_RESUME (R424): from its snapshot; one block when 16 urgent jobs have run past it. -/
def aesJobResume (tag blocks : Nat) (s : State) : State :=
  match opLive s tag 1 with
  | none => s
  | some o =>
    match o.key with
    | none => s
    | some key =>
      if !o.suspended || !rngServes s || !aesNext s o then s
      else aesRun o key (if s.job.urgentRun ≥ 16 then 1 else max 1 blocks) s

def execAesJobResume (tag : Fin 512) (blocks : Nat) (s : State) : Host.Outcome State Fault Refusal :=
  done s (gateSettleAll (aesJobResume tag.val blocks s))

/-! ### The gate (R443) -/

/-- Every block below the released length is WRITTEN and COVERED. -/
def gateCovered (g : Page) (len : Nat) : Bool :=
  (List.range ((len + 15) / 16)).all (fun i => g.written.getLsbD i && g.covered.getLsbD i)

/-- GATE_JOB: compare, then release (R443); the buffer, T_h and every bit end zero. -/
def gateJob (tag : Nat) (s : State) : State :=
  match opLive s tag 1 with
  | none => s
  | some o =>
    let p := dsParams o.desc
    if caFunc p ≠ 1 || gateHeld s o || !aesNext s o then s
    else match gateCheck s o with
      | some st => opEnd tag st false [] s
      | none =>
        let g := pageGet s o.page
        let n := dsSrcLen o.desc
        let len := caCount p
        let z := noteRun o (pageMod o.page gateZero s)
        if (blockBytes g.th).take n ≠ winRead s (dsSrc o.desc) n then opEnd tag .tagMismatch false [] (evAes 1 z)
        else if g.overrun || len = 0 then opEnd tag .ok false [] z
        else if !gateCovered g len then opEnd tag .denied false [] (evAes 2 z)
        else opEnd tag .ok false (hbRead g 0 len) z

def execGateJob (tag : Fin 512) (s : State) : Host.Outcome State Fault Refusal := done s (gateSettleAll (gateJob tag.val s))

/-- CPG_GATE_CLEAR bit 0 zeroes the page's buffer and T_h (R441, R457) after the jobs already fetched (R456). -/
def gateClear (page : Nat) (word : Word) (s : State) : State :=
  if !word.getLsbD 0 then s else gateSettle page (pageMod page (fun g => { g with clearAt := some s.job.fetched }) s)

def execCpgGateClear (page : Fin 8) (word : Word) (s : State) : Host.Outcome State Fault Refusal :=
  done s (gateClear page.val word s)

end Sys2Proof.Machine
end

