-- ==== Sys2Proof/Machine/Hash.lean ====
section
/-! DEFINITION. The hash and public-key unit (R451 to R455): SHA-512 jobs, signature verification, attestation and
certificate read. -/

namespace Sys2Proof.Machine

/-! ### The unit's queue (R422) -/

/-- Kind 2 and 3 jobs that may start: an attestation waits for the generator (R454). DESIGN CHOICE, log 81. -/
def hpkReady (s : State) (o : Op) : Bool :=
  (dsKind o.desc = 2 || dsKind o.desc = 3) && o.result.isNone &&
    !(dsKind o.desc = 3 && u8 (dsParams o.desc) 0 = 2 && !rngServes s && !s.rng.latched)

/-- Rank in class order, CPG0 first within the urgent class. -/
def clsRank (o : Op) : Nat := if o.cls = 2 then (if o.page = 0 then 0 else 1) else if o.cls = 1 then 2 else 3

/-- The unit takes this job next. -/
def hpkNext (s : State) (o : Op) : Bool :=
  hpkReady s o &&
    s.job.ops.all (fun x => !hpkReady s x || x.tag = o.tag || clsRank o < clsRank x || (clsRank o = clsRank x && o.order < x.order))

/-- The job of a tag, when the unit may start it. -/
def hpkStart (s : State) (tag kind : Nat) (p : Bytes → Bool) : Option Op :=
  match opLive s tag kind with
  | some o => if p (dsParams o.desc) && hpkNext s o then some o else none
  | none => none

/-- The unit ends a job. -/
def hpkEnd (o : Op) (st : Status) (out : Bytes) (s : State) : State :=
  opEnd o.tag st false out { s with cip.hpkRunning := some o.tag }

/-! ### SHA-512 jobs (R451) -/

/-- Refusals of R451 for a hash job. -/
def hashBad (s : State) (o : Op) : Bool :=
  let p := dsParams o.desc
  u8 p 0 ≠ 0 || u8 p 1 ≥ 4 || !allZero (p.drop 2) || (!bit (u8 p 1) 0 && (pageGet s o.page).hash.isNone)
    || (!bit (u8 p 1) 1 && dsSrcLen o.desc % 128 ≠ 0) || dsSrcLen o.desc > 65536

/-- HASH_JOB: FIRST opens a context, LAST closes it with the digest. -/
def hashJob (tag : Nat) (s : State) : State :=
  match hpkStart s tag 2 (fun _ => true) with
  | none => s
  | some o =>
    if hashBad s o then hpkEnd o .badDesc [] s
    else
      let p := dsParams o.desc
      let m := winRead s (dsSrc o.desc) (dsSrcLen o.desc)
      let c := if bit (u8 p 1) 0 then (shaInit, 0) else (pageGet s o.page).hash.getD (shaInit, 0)
      let n := m.length / 128
      let h := shaBlocks n c.1 m
      if bit (u8 p 1) 1 then
        hpkEnd o .ok (shaFinish h (c.2 + 128 * n) (m.drop (128 * n))) (pageMod o.page (fun g => { g with hash := none }) s)
      else hpkEnd o .ok [] (pageMod o.page (fun g => { g with hash := some (h, c.2 + m.length) }) s)

def execHashJob (tag : Fin 512) (s : State) : Host.Outcome State Fault Refusal := done s (hashJob tag.val s)

/-! ### PARAMS of kind 3 (R452) -/

def rsOp (p : Bytes) : Nat := u8 p 0
def rsPin (p : Bytes) : Bool := bit (u8 p 1) 0
def rsSalt (p : Bytes) : Nat := u16 p 2
def rsKeyOff (p : Bytes) : Nat := u32 p 4
def rsSigOff (p : Bytes) : Nat := u32 p 8
def rsNonceOff (p : Bytes) : Nat := u32 p 12

/-- Fields outside their ranges (R452); an operation's own fields alone are held to the grant (DEDUCED, log 20). -/
def rsaFields (s : State) (o : Op) : Option Status :=
  let p := dsParams o.desc
  if rsOp p > 3 || u8 p 1 > 1 || rsSalt p > 446 || !allZero (sl p 16 16) || rsKeyOff p ≥ 2 ^ 23 || rsSigOff p ≥ 2 ^ 23
      || rsNonceOff p ≥ 2 ^ 23 then some .badDesc
  else if rsOp p ≤ 1 && !(inGrant s o.page (rsKeyOff p) 516 && inGrant s o.page (rsSigOff p) 512) then some .denied
  else if rsOp p = 2 && !inGrant s o.page (rsNonceOff p) 64 then some .denied
  else none

/-- The public key bytes: e, then the modulus. -/
def rsaKeyBytes (s : State) (o : Op) : Bytes := winRead s (rsKeyOff (dsParams o.desc)) 516

/-- Key and length refusals of R452, and a pin naming a slot that is none (DESIGN CHOICE, log 21). -/
def rsaCheck (s : State) (o : Op) : Option Status :=
  let k := rsaKeyBytes s o
  match rsaFields s o with
  | some st => some st
  | none =>
    if u32 k 0 % 2 = 0 || u32 k 0 < 3 || u8 k 4 < 128 || (rsOp (dsParams o.desc) = 1 && dsSrcLen o.desc ≠ 64)
        || (rsOp (dsParams o.desc) = 0 && dsSrcLen o.desc > 65536) then some .badDesc
    else if rsPin (dsParams o.desc) && !atPin (slotGet s (dsSlot o.desc)).attr then some .denied
    else if rsPin (dsParams o.desc) && (jobKey s o).isNone then some .keyGone
    else none

/-- The pinned slot agrees with the key bytes; with PIN clear there is nothing to agree with. -/
def pinAgrees (s : State) (o : Op) : Bool :=
  !rsPin (dsParams o.desc) ||
    (match jobKey s o with
     | some k => (sha512 (rsaKeyBytes s o)).take 32 == beBytes 32 k.toNat
     | none => false)

/-- A verification over a digest (R452): OK, or TAG_MISMATCH with its event. -/
def verifyEnd (o : Op) (digest : Bytes) (s : State) : State :=
  let k := rsaKeyBytes s o
  let sig := winRead s (rsSigOff (dsParams o.desc)) 512
  if pinAgrees s o && pssVerifyDigest (beNat (k.drop 4)) (u32 k 0) (rsSalt (dsParams o.desc)) digest sig then
    hpkEnd o .ok [] s
  else hpkEnd o .tagMismatch [] (evHpk 0 s)

/-- RSA_VERIFY: the message at SRC is hashed. -/
def rsaVerify (tag : Nat) (s : State) : State :=
  match hpkStart s tag 3 (fun p => rsOp p = 0 || rsOp p > 3) with
  | none => s
  | some o =>
    match rsaCheck s o with
    | some st => hpkEnd o st [] s
    | none => verifyEnd o (sha512 (winRead s (dsSrc o.desc) (dsSrcLen o.desc))) s

def execRsaVerify (tag : Fin 512) (s : State) : Host.Outcome State Fault Refusal := done s (rsaVerify tag.val s)

/-- RSA_VERIFY_DIGEST: the 64-byte digest is at SRC. -/
def rsaVerifyDigest (tag : Nat) (s : State) : State :=
  match hpkStart s tag 3 (fun p => rsOp p = 1) with
  | none => s
  | some o =>
    match rsaCheck s o with
    | some st => hpkEnd o st [] s
    | none => verifyEnd o (winRead s (dsSrc o.desc) 64) s

def execRsaVerifyDigest (tag : Fin 512) (s : State) : Host.Outcome State Fault Refusal :=
  done s (rsaVerifyDigest tag.val s)

/-! ### Attestation (R453, R454) -/

/-- The 160-byte statement of R453. -/
def attestStatement (s : State) (page : Nat) (nonce : Bytes) : Bytes :=
  [0x48, 0x46, 0x4B, 0x41] ++ leBytes 2 1 ++ leBytes 1 s.ks.lc.code
    ++ leBytes 1 (b2n s.ks.sealed + 2 * b2n s.tmp.latch + 4 * b2n s.boot.pufFail + 8 * b2n s.boot.retBad + 16 * s.boot.src)
    ++ leBytes 2 s.boot.secVersion ++ leBytes 2 s.boot.keyVersion ++ leBytes 2 Config.romRev.toNat ++ leBytes 2 page
    ++ leBytes 8 Config.uid.toNat ++ leBytes 6 (now48 s).toNat ++ [0, 0]
    ++ s.boot.digest ++ nonce

/-- Blinding words and the 64-byte salt come from the queue, two words and four (DESIGN CHOICE, log 22). -/
def attestSalt (s : State) : Bytes := ((s.rng.queue.drop 2).take 4).flatMap blockBytes

/-- ATTEST: NOT_READY without identity, KEY_GONE with PUF_FAIL, ENTROPY_FAIL when latched, and waiting for words. -/
def attest (tag : Nat) (s : State) : State :=
  match hpkStart s tag 3 (fun p => rsOp p = 2) with
  | none => s
  | some o =>
    match rsaFields s o with
    | some st => hpkEnd o st [] s
    | none =>
      match s.ks.identity with
      | none => hpkEnd o .notReady [] s
      | some id =>
        if s.boot.pufFail || s.ks.root.isNone then hpkEnd o .keyGone [] s
        else if s.rng.latched then hpkEnd o .entropyFail [] s
        else if s.rng.queue.length < 6 then s
        else
          let st := attestStatement s o.page (winRead s (rsNonceOff (dsParams o.desc)) 64)
          let em := pssEncode (sha512 st) (attestSalt s)
          let sig := rsaCrt id.1.p id.1.q id.1.dP id.1.dQ id.1.qInv (beNat em)
          hpkEnd o .ok (st ++ beBytes 512 sig) (evHpk 1 { s with rng.queue := s.rng.queue.drop 6 })

def execAttest (tag : Fin 512) (s : State) : Host.Outcome State Fault Refusal := done s (attest tag.val s)

/-- CERT_READ: the device certificate, or NOT_READY without one (R453). -/
def certRead (tag : Nat) (s : State) : State :=
  match hpkStart s tag 3 (fun p => rsOp p = 3) with
  | none => s
  | some o =>
    match rsaFields s o with
    | some st => hpkEnd o st [] s
    | none =>
      match s.ks.identity with
      | none => hpkEnd o .notReady [] s
      | some id => hpkEnd o .ok id.2 s

def execCertRead (tag : Fin 512) (s : State) : Host.Outcome State Fault Refusal := done s (certRead tag.val s)

end Sys2Proof.Machine
end

