-- ==== Sys2Proof/Machine/TimeOps.lean ====
section
/-! DEFINITION. Shared operations of the time block: the learned rate (R177, R178) and how the domains start (R170, R181). -/

namespace Sys2Proof.Machine

/-- The learned bin nearest to a temperature; the earlier bin on a tie (R178). -/
def nearestBin (t : Int) : List (Int × Int) → Option (Int × Int)
  | [] => none
  | b :: r => match nearestBin t r with
    | none => some b
    | some c => if (c.1 - t).natAbs < (b.1 - t).natAbs then some c else some b

/-- The learned rate at the present die temperature, 2^-16 ppb; 0 when no bin is learned (R178). -/
def learned (s : State) : Int :=
  match nearestBin s.uhf.temp s.clk.table with
  | some b => b.2
  | none => 0

/-- Mode HOLDOVER: the clock runs at the learned rate with no servo correction (R177). -/
def holdover (s : State) : State := { s with clk.mode := .holdover, clk.freqAdj := learned s }

def domGet (s : State) (d : Dom) : Domain := match d with | .pri => s.clk.pri | .red => s.clk.red

def domMod (d : Dom) (f : Domain → Domain) (s : State) : State :=
  match d with
  | .pri => { s with clk.pri := f s.clk.pri }
  | .red => { s with clk.red := f s.clk.red }

/-- The primary domain is a grandmaster (R162). -/
def grandmaster (s : State) : Bool := tiRole s .pri = 2

/-- A domain as it starts: OFF when absent, LOCKED as grandmaster, ACQUIRING otherwise (R170, R181). -/
def domFresh (s : State) (d : Dom) : Domain :=
  if tiDomain s d = 255 then Domain.reset
  else if tiRole s d = 2 then { Domain.reset with st := .locked, syncAt := s.elapsed, lockedSince := some s.elapsed }
  else { Domain.reset with st := .acquiring, syncAt := s.elapsed }

/-- Both domains start and none is selected; a grandmaster is selected at once with mode MASTER (R171, R181). Nothing realigns a
grandmaster, so STALE stays as it is (R182). -/
def domainsStart (s : State) : State :=
  let s := { s with clk.pri := domFresh s .pri, clk.red := domFresh s .red, clk.sel := none,
                    clk.ports := Vector.replicate 6 PortTime.reset, clk.learning := none }
  if grandmaster s then { s with clk.sel := some .pri, clk.mode := .master, clk.freqAdj := 0 } else s

def domOther : Dom → Dom
  | .pri => .red
  | .red => .pri

/-- The mode drops to HOLDOVER while the selected domain gives no time (R171, R173, R177). -/
def modeHold (s : State) : State := if s.clk.mode == .following then { holdover s with clk.learning := none } else s

/-- A switchover (R171, R172). DEDUCED, log 56. -/
def switchTo (d : Dom) (s : State) : State :=
  ckptItem 1 (.domain (some d)) (evTim 1 { s with clk.sel := some d, clk.learning := none })

/-- The primary has been LOCKED for `REVERT_TIME` without interruption (R171). -/
def revertDue (s : State) : Bool :=
  tiRevert s ≠ 0 && s.clk.pri.st == .locked && (match s.clk.pri.lockedSince with
    | some t => reached s (t + tS (tiRevert s)) | none => false)

/-- The selection table, top down (R171). -/
def selectDom (s : State) : State :=
  if grandmaster s then s
  else match s.clk.sel with
  | none => s
  | some c =>
    let cd := domGet s c
    let s :=
      if (domGet s (domOther c)).st == .locked
          && (cd.st == .lost || cd.st == .rerouted || (cd.st == .acquiring && cd.gmNew)) then switchTo (domOther c) s
      else if c = .red && revertDue s then switchTo .pri s
      else s
    let st := match s.clk.sel with | some c => (domGet s c).st | none => .off
    if st == .acquiring || st == .locked then s else modeHold s

/-- The domain is configured, awake and no grandmaster (R170). DEDUCED, log 55. -/
def domLive (s : State) (d : Dom) : Bool := (domGet s d).st != .off && tiRole s d ≠ 2

/-- A domain becomes LOST (R170). A REROUTED domain leaves its state for LOCKED alone (R175). HOLDOVER_ENTER is set when no
other domain is left (R172). -/
def domLost (d : Dom) (s : State) : State :=
  let st := (domGet s d).st
  if !domLive s d || st == .lost || st == .rerouted then s
  else
    let s := domMod d (fun x => { x with st := .lost, hist := [], lockedSince := none, suspectUntil := none, outCount := 0,
                                         gmNew := false }) s
    let o := (domGet s (domOther d)).st
    selectDom (if o == .lost || o == .off then evTim 6 s else s)

/-- The domains whose slave port is `p` lose it (R170). -/
def slaveLost (p : Nat) (s : State) : State :=
  [Dom.pri, Dom.red].foldl (fun s d => if tiSlave s d = p then domLost d s else s) s

/-- Nominal tick of the RTC, 10^9 / 32,768 ns in 2^-16 ns, by the last measured ratio and the learned rate (R180). -/
def tickOf (s : State) : Nat :=
  let base : Nat := match s.clk.ratio with
    | some (c, t) => if t = 0 then 2000000000 else c * 25 * 65536 / t
    | none => 2000000000
  ((base : Int) * (65536000000000 + learned s) / 65536000000000).toNat

/-- Both domains are OFF: Heath, Fallow, start-up (R170). -/
def domainsOff (s : State) : State :=
  { s with clk.pri := Domain.reset, clk.red := Domain.reset, clk.sel := none, clk.ports := Vector.replicate 6 PortTime.reset }

end Sys2Proof.Machine
end

