-- ==== Sys2Proof/Machine/PwrOps.lean ====
section
/-! DEFINITION. Operations on power, ports and the permit shared by the families: ports that go down (R540), entry to Run
from Heath or Fallow (R131 to R144), crank hold (R68), withdraw and close of the permit session (R394 to R399), and the
overrides of R582. -/

namespace Sys2Proof.Machine

/-! ### Ports -/

def portGet (s : State) (p : Nat) : Port := vget s.sw.ports p Port.reset
def portMod (p : Nat) (f : Port → Port) (s : State) : State := { s with sw.ports := vmod s.sw.ports p f }

def portShed (s : State) (p : Nat) : Bool := p < 8 && (shedMask s).testBit p

/-- Saturating 32-bit count. -/
def sat32 (a n : Nat) : Nat := min (2 ^ 32 - 1) (a + n)

/-- A queued frame-send entry ends with a status: its job gets the result (R559). -/
def sendEnd (st : Status) (i : Nat) (s : State) : State :=
  match ttGet s i with
  | some e =>
    if e.kind ≠ 10 then s
    else
      let s := match e.owner with
        | .job t => opEnd t (lateStatus e st) e.late [] s
        | _ => s
      let s := if e.late then evTt 0 s else s
      ttPut i none s
  | none => s

/-- The frames in a port's queues. -/
def portFrames (p : Port) : List Frame := p.queues.toList.flatten

/-- Frames that would leave a port with no link: dropped and counted, the queues emptied (R540); a queued permit copy sets
PERMIT_DROP_EVT (R568) and a frame-send job ends NOT_READY (R559). -/
def portEmpty (p : Nat) (s : State) : State :=
  let fs := portFrames (portGet s p)
  let s := portMod p (fun x => { x with queues := Vector.replicate 8 [], dropDown := sat32 x.dropDown fs.length }) s
  let s := if fs.any (·.permit) then evSw 5 s else s
  fs.foldl (fun s f => match f.entry with | some i => sendEnd .notReady i s | none => s) s

/-- A port goes down (R540, R568). -/
def portDown (p : Nat) (s : State) : State :=
  if (portGet s p).rate = 0 then portEmpty p s
  else
    slaveLost p (evSw 0 { (portMod p (fun x => { x with rate := 0, plca := false }) (portEmpty p s)) with
      clk.ports := vmod s.clk.ports p (fun t => { t with capable := false, hist := [], prev := none }) })

/-- Every port that `f` selects, of P0 to P7, goes down. -/
def portsDown (f : Nat → Bool) (s : State) : State :=
  (List.range 8).foldl (fun s p => if f p then portDown p s else s) s

/-- Every port now shed goes down. -/
def shedApply (s : State) : State := portsDown (portShed s) s

/-- A shed mask of the policy over P0 to P7, without the permit egress ports (R69, R137). -/
def shedFrom (s : State) (mask : Nat) : BitVec 9 :=
  BitVec.ofNat 9 (mask % 256) &&& ~~~(BitVec.ofNat 9 (nwPermitPorts (netSec s) % 256))

/-- P0 and P1 follow VIO: shed below 3.8 V (R70). -/
def vioMask (s : State) : BitVec 9 := if s.sup.vbat < 3800 then 3 else 0

/-! ### Crank hold (R68, R631) -/

/-- Crank hold is entered: VDRV at 8.0 V, policy ports shed, CRANK_EVT. -/
def crankEnter (s : State) : State :=
  let s := { s with sup.region := .crank, sup.shedCrank := shedFrom s (poShedCrank (policySec s)), sup.shedVio := vioMask s }
  let s := if s.sup.vdrvOn then vdrvAim s else s
  shedApply (evSup 0 s)

/-! ### Entry to Run from Heath or Fallow -/

/-- DTCs of channel faults that arose in Heath are raised at the next entry to Run (R256). -/
def heldDtcs (s : State) : State :=
  (List.range 16).foldl (fun s n =>
    let c := chGet s n
    if c.dtcHeld then dtcLf (chDtc c.lastFault n) (chMod n (fun c => { c with dtcHeld := false }) s) else s) s

/-- Run is entered; `from_` is 1 from Heath and 2 from Fallow (R151). Entries that the state had excluded are re-anchored
(R216); every ring is empty (R132). -/
def enterRun (from_ : Nat) (s : State) : State :=
  suspendResume <| heldDtcs <| domainsStart <| holdover { s with
    pwr.st := .run, pwr.wokeFrom := from_, pwr.req := 0, pwr.idleSince := s.elapsed, tmp.meshDue := true }

/-- A Heath event of an enabled source that leads to Run (R138, R143): 9 a remote telegram, 10 an LF result. -/
def heathToRun (bitNo : Nat) (s : State) : State := if s.pwr.st == .heath && wakeEnabled s bitNo then enterRun 1 s else s

/-- A Heath event of an enabled source is handled: its bit, and the timer of R135 restarts (R138, R153). -/
def heathEvent (bitNo : Nat) (s : State) : State :=
  if s.pwr.st == .heath && wakeEnabled s bitNo then evWake bitNo { s with pwr.heathSince := s.elapsed } else s

/-! ### Overrides (R43, R582) -/

/-- Apply a checked override. -/
def ovApply (k : Nat) (d : Bytes) (s : State) : State :=
  if k = 1 then { s with ov.carrier := some (beNat (d.take 2)) }
  else if k = 2 then { s with ov.windows := s.ov.windows.filter (fun w => !(w.1 = u8 d 0)) ++ [(u8 d 0, d.drop 1)] }
  else if k = 3 then { s with ov.telegrams := s.ov.telegrams.filter (fun w => !(w.1 = u8 d 0)) ++ [(u8 d 0, d.drop 1)] }
  else { s with ov.ranging := some (d.take 11) }

/-- Overrides that waited take effect once no sequence runs; a revert among them clears all (kind 0). -/
def ovFlush (s : State) : State :=
  if s.acc.seqn.isSome then s
  else s.ov.waiting.foldl (fun s w => if w.1 = 0 then { s with ov := Overrides.none } else ovApply w.1 w.2 s)
    { s with ov.waiting := [] }

/-! ### The permit session (R394 to R399) -/

/-- A grant or withdraw decision written to checkpoint memory by pair A (R25, R34, R606). -/
def decide_ (grant : Bool) (s : State) : State :=
  ckptItem 0 (.permit grant s.acc.session) { s with acc.decisions := s.acc.decisions + 1 }

/-- A deny of R34 that is no withdraw closes the session: no deny token follows (R395, R399). -/
def sessionClose (s : State) : State :=
  latchDenyNow { s with acc.sessOpen := false, acc.holdUntil := none, acc.eligible := false, acc.denyLeft := 0, acc.slot := none }

/-- A withdraw decision (R395, R399): the session closes, three deny tokens follow. -/
def withdraw (s : State) : State :=
  if !s.acc.sessOpen then s
  else evAcc 1 (decide_ false (latchDenyNow { s with
    acc.sessOpen := false, acc.holdUntil := none, acc.eligible := false, acc.denyLeft := 3 }))

/-- Hold time from now (R394). -/
def holdStart (s : State) : State := { s with acc.holdUntil := some (s.elapsed + tS (pfHold s.acc.profile)) }

/-- The token slot grid of the session (R397). -/
def slotEntry (s : State) : Entry :=
  { entryOf [] with kind := 10, periodic := true, run := true, catchup := 2, period := 10000, minPeriod := 5000,
                    phase := pfTokenPhase s.acc.profile * 1000, owner := .token }

/-- A grant starts the slots at the first slot at least 0.5 ms after it, unless they already run (R397). -/
def slotStart (s : State) : State :=
  let d := short (gridAt (slotEntry s) ((fullNs s : Int) + 500000))
  { s with acc.slot := some { slotEntry s with due := d, grid := d } }

end Sys2Proof.Machine
end

