-- ==== Sys2Proof/Machine/Permits.lean ====
section
/-! DEFINITION. Credentials (R376 to R380), outcomes (R393), the grant (R394), tokens (R396 to R399) and remote telegrams
(R392). -/

namespace Sys2Proof.Machine

/-! ### The profile (R376, R377) -/

/-- The pin or approach record names frames, scans and plans in force, and a fitted port. -/
def recUsable (s : State) (r : Bytes) : Bool :=
  let band (p : Bytes) : Bool := match bandOf (prFreq p) with | some b => fitted s (prTrx r) b | none => false
  prFrame r < klFrames s.set.keylink && fbType (klFrame s.set.keylink (prFrame r)) = 1
    && (prScan r = 255 || (s.set.antenna != [] && prScan r < antScans s.set.antenna))
    && prRx r < raWins s.set.radio && prTx r < raTels s.set.radio
    && band (winPlan s (prRx r)) && band (telBlock s (prTx r))

/-- Records that are in use: pins with a role, and the approach record when it has its role. -/
def recsUsed (p : Bytes) : List Bytes := ((List.range 9).map (pfRec p)).filter (fun r => prRole r ≠ 0)

/-- PROFILE_OK (R408). -/
def profileOk (s : State) : Bool := s.acc.profile != [] && (recsUsed s.acc.profile).all (recUsable s)

/-! ### Credentials -/

def credGet (s : State) (i : Nat) : Cred := vget s.acc.creds i Cred.empty
def credMod (i : Nat) (f : Cred → Cred) (s : State) : State := { s with acc.creds := vmod s.acc.creds i f }

/-- The credential that an ID names (R384). -/
def credOfId (s : State) (id : BitVec 64) : Option Nat :=
  (List.range 256).find? (fun i => (credGet s i).st ≠ 0 && (credGet s i).id = id)

/-- K of a credential (R379). -/
def credKey (s : State) (c : Cred) : Option (BitVec 128) :=
  match slotKey s c.slot with
  | none => none
  | some k =>
    if c.attr.getLsbD 0 then
      some (aesBlock false 32 k (BitVec.ofNat 128 (c.id.toNat * 2 ^ 64 + c.keyGen * 2 ^ 56)))
    else some (key128 k)

/-- Place a derived key or a session key in a slot of the access engine (R379, R381). DESIGN CHOICE, log 75. -/
def accSlot (n : Nat) (k : BitVec 128) (s : State) : State :=
  slotMod n (fun x => { x with attr := 0x101, gen := (x.gen + 1) % 256, key := some (k ++ (0 : BitVec 128)) }) s

/-- The clock is good enough for time-limited credentials (R380). -/
def clockGood (s : State) : Bool :=
  match s.clk.mode with
  | .following => true
  | .master => true
  | .holdover => !s.clk.stale
  | .free => false

/-- R380 for an ATTR bit: none when the credential does not serve. -/
def credServes (s : State) (c : Cred) (attrBit : Nat) : Option (BitVec 128) :=
  let now := s.clk.sec % 2 ^ 32
  let ctrOk : Bool := c.counter > 127 ||
    (match (ctrRead c.counter s).1 with | some v => decide (v < 2 ^ 32 - 1) | none => false)
  let timeOk := (c.notBefore = 0 && c.notAfter = 0) ||
    (clockGood s && (c.notBefore = 0 || c.notBefore ≤ now) && (c.notAfter = 0 || now ≤ c.notAfter))
  if c.st = 1 && c.attr.getLsbD attrBit && ctrOk && timeOk then credKey s c else none

/-- Increment the counter a credential names (R394): OK, LOCKED or LOW_ENERGY. -/
def credCount (c : Cred) (s : State) : Status × State :=
  if c.counter > 127 then (.ok, s)
  else
    let r := ctrIncrement c.counter (accJob s)
    match r.1 with
    | .ok _ => (.ok, r.2)
    | .lowEnergy => (.lowEnergy, r.2)
    | _ => (.locked, r.2)

/-! ### Outcomes (R393, R409) -/

/-- Record an outcome; it is an access event (R385). -/
def outcome (kind cred : Nat) (st : Status) (cmd : Nat) (inside : Bool) (s : State) : State :=
  let s := { s with acc.lastKind := kind, acc.lastCred := cred, acc.lastStatus := st, acc.lastCmd := cmd,
                    acc.keyInside := inside, pwr.idleSince := s.elapsed }
  if st.good then s else evAcc 2 s

/-- A learning routine runs. -/
def learning (s : State) : Bool :=
  match s.diag.routine with
  | some r => r.running && r.rid = 0xF110
  | none => false

/-- The first rows of R393: TAMPER, NOT_READY, LOCKED not tied to a credential, ENTROPY_FAIL.
DESIGN CHOICE, log 24; DEDUCED, log 72. -/
def preCheck (s : State) : Option Status :=
  if s.tmp.latch then some .tamper
  else if !s.boot.ready || !hasRole s 0 || s.sup.thermOff then some .notReady
  else if s.boot.src = 3 || s.boot.pufFail || learning s then some .locked
  else if rngFails s then some .entropyFail
  else none

/-! ### The grant (R394) -/

/-- At T_OFF new access decisions are refused (R92). -/
def decisionsOff (s : State) : Bool := s.sup.thermOff

/-- Writes of a grant in their order; NOT_READY at T_OFF; the status says which row of R393 applies. DESIGN CHOICE, log 23. -/
def grant (cred : Nat) (backup : Bool) (s : State) : Status × State :=
  -- the number of a session to be opened stands from the grant on: without one it is never used
  let a : Status × Option Nat × State :=
    if decisionsOff s then (.notReady, none, s)
    else if s.acc.sessOpen then (.ok, none, s)
    else
      let r := ctrIncrement (pfSessionMc s.acc.profile) (accJob s)
      match r.1 with
      | .ok v => (.ok, some v, r.2)
      | .lowEnergy => (.lowEnergy, none, r.2)
      | _ => (.locked, none, r.2)
  if a.1 != .ok then (a.1, a.2.2)
  else
    let c := credCount (credGet a.2.2 cred) a.2.2
    if c.1 != .ok then c
    else
      let s := match a.2.1 with | some v => { c.2 with acc.session := v, acc.seq := 0 } | none => c.2
      let slots := s.acc.sessOpen && s.acc.slot.isSome
      let s := decide_ true { s with
        acc.sessOpen := true, acc.grantCred := cred, acc.grantBackup := backup, acc.regrant := false, acc.denyLeft := 0 }
      let s := latchGrant (holdStart s)
      let s := if s.acc.seq = 0 then { s with acc.issuedAt := s.elapsed } else s
      let s := if s.permit.pdBelow then { s with acc.eligible := true } else s
      (.ok, evAcc 0 (if slots then s else slotStart s))

/-- Re-grant of R82 once VBAT is above V_RTX. DEDUCED, log 73. -/
def regrant (s : State) : State :=
  let ok := s.permit.pdDenied && s.acc.eligible && s.acc.sessOpen && !s.tmp.latch && decide (s.elapsed ≤ s.acc.issuedAt + tMs 200)
  let s := { s with permit.pdDenied := false, acc.eligible := false }
  if ok then
    let s := decide_ true { s with acc.regrant := true }
    evAcc 9 (evAcc 0 (latchGrant (holdStart (if s.acc.slot.isSome then s else slotStart s))))
  else s

/-! ### Tokens (R396 to R399) -/

/-- The 20 bytes before the MAC. -/
def tokenHead (s : State) (permit : Bool) (at_ : BitVec 48) : Bytes :=
  let unsync := !(s.clk.mode == .following || s.clk.mode == .master) || s.clk.stale
  [1, if permit then 0x5A else 0xA5] ++ beBytes 2 (pfDevice s.acc.profile) ++ beBytes 4 s.acc.session ++ beBytes 4 s.acc.seq
    ++ beBytes 6 at_.toNat ++ leBytes 1 s.acc.grantCred
    ++ leBytes 1 (b2n s.acc.regrant + 2 * b2n s.acc.grantBackup + 4 * b2n unsync + 8 * b2n (s.sup.region == .crank))

/-- The MAC job of a token under PERMIT_SLOT; none when the slot reads empty. -/
def tokenBytes (s : State) (permit : Bool) (at_ : BitVec 48) : Option Bytes :=
  let n := pfPermitSlot s.acc.profile
  let h := tokenHead s permit at_
  (slotKey s n).map (fun k => h ++ (blockBytes (cmac (slotKlen (slotGet s n).attr) k h)).take 12)

/-- A token is generated: SEQ advances and its frame-send entry is created (R397). -/
def tokenMake (permit : Bool) (e : Entry) (s : State) : State :=
  match tokenBytes s permit e.due with
  | none => s
  | some t =>
    if !rngServes s then s
    else
      let late := decide (s48 e.due (now48 s) < 10000)
      let run := runtimeEntry 0 10 0 0 .token t e.due
      let run := if late then { run with due := nowDue s run, grid := nowDue s run } else run
      let s := (ttInsert 0 run s).2
      accAes 3 { s with acc.token := t, acc.tokenSeq := s.acc.seq, acc.seq := (s.acc.seq + 1) % 2 ^ 32,
                        acc.issuedAt := s.elapsed, permit.tokenAt := s.xo }

/-- The slot of the grid arrives (R397), from 0.5 ms before its instant: a token in permit, or one of the three deny
tokens after a withdraw; the grid goes on. -/
def tokenSlot (s : State) : State :=
  match s.acc.slot with
  | none => s
  | some e =>
    if s48 e.due (now48 s) > 500000 then s
    else
      let t := s.acc.token
      let start := if s48 (now48 s) e.due > 0 then now48 s else e.due
      let first := decide (s.xo + tNs (s48 e.due (now48 s)).toNat ≥ s.permit.tokenAt + tUs 500)
      let s := if s.permit.latch then (if first then tokenMake true e s else s)
        else if s.acc.denyLeft > 0 && !s.acc.sessOpen then
          let s' := tokenMake false e s
          if s'.acc.token = t then s' else { s' with acc.denyLeft := s.acc.denyLeft - 1 }
        else s
      if !s.acc.sessOpen && s.acc.denyLeft = 0 then { s with acc.slot := none }
      else { s with acc.slot := some (nextDue { e with start := start, ran := true } start) }

def execTokenSlot (s : State) : Host.Outcome State Fault Refusal := done s (tokenSlot s)

/-- t_tokloss passes on the 40 MHz reference without a token: deny, TOKEN_LOSS_EVT, the session closes (R398). -/
def tokenLoss (s : State) : State :=
  if s.permit.latch && reachedXo s (s.permit.tokenAt + tMs 30) then evAcc 3 (sessionClose s) else s

def execTokenLoss (s : State) : Host.Outcome State Fault Refusal := done s (tokenLoss s)

/-- HOLD_S expires: withdraw (R395). -/
def holdExpiry (s : State) : State := if expired s s.acc.holdUntil then withdraw s else s

def execHoldExpiry (s : State) : Host.Outcome State Fault Refusal := done s (holdExpiry s)

/-! ### Remote telegrams (R392) -/

/-- R392's maker and standard commands. -/
def remoteCmd (c : Nat) : Bool := (1 ≤ c && c ≤ 5) || c ≥ 0x80

/-- An accepted remote telegram: LAST_KC, the counter, then the command. -/
def remoteAccept (i kc cmd : Nat) (resync : Bool) (s : State) : State :=
  let c := { credGet s i with lastKc := kc }
  let w := recWrite false (0x100 + i) (credBytes i c) (accJob s)
  match w.1 with
  | .lowEnergy => outcome 4 i .lowEnergy cmd false w.2
  | .eccError => outcome 4 i .eccError cmd false w.2
  | .ok _ _ =>
    let s := credMod i (fun c => { c with lastKc := kc, lastCmd := some (cmd, w.2.elapsed) }) w.2
    let s := { s with acc.resync := s.acc.resync.filter (fun r => r.cred ≠ i) }
    let r := credCount (credGet s i) s
    if r.1 != .ok then outcome 4 i r.1 cmd false r.2
    else
      let s := if resync then evAcc 6 r.2 else r.2
      heathToRun 9 (evAcc 4 (outcome 4 i .ok cmd false s))

/-- One REMOTE payload of 20 bytes; one whose acceptance would write waits for the VHOLD measurement (R104). -/
def remote (t : Bytes) (s0 : State) : State :=
  let s := s0
  if s.acc.profile = [] then outcome 4 255 (if s.tmp.latch then .tamper else .notReady) 0 false s
  else if !bit (pfEnable s.acc.profile) 3 then s
  else
    let cmd := u8 t 1
    let kc := beNat (sl t 10 4)
    match preCheck s with
    | some st => outcome 4 255 st cmd false s
    | none =>
      match credOfId s (BitVec.ofNat 64 (beNat (sl t 2 8))) with
      | none => outcome 4 255 .unknownKey cmd false s
      | some i =>
        let c := credGet s i
        match credServes s c 4 with
        | none => outcome 4 i .locked cmd false s
        | some k =>
          let s := accAes 2 s
          if mac128 k 6 (t.take 14) ≠ sl t 14 6 then outcome 4 i .tagMismatch cmd false s
          else
            let again : Bool := match c.lastCmd with
              | some (pc, at_) => pc = cmd && kc = c.lastKc && decide (s.elapsed ≤ at_ + tS 1)
              | none => false
            if again then s
            else if kc ≤ c.lastKc then outcome 4 i .replayed cmd false s
            else if !remoteCmd cmd then outcome 4 i .frameError cmd false s
            else
              let near := decide (kc ≤ c.lastKc + pfRkeWindow s.acc.profile)
              if near || s.acc.resync.any (fun r => r.cred = i && kc = r.kc + 1 && decide (s.elapsed ≤ r.until_)) then
                if s.sup.measured then remoteAccept i kc cmd (!near) s else { s0 with acc.remotes := s0.acc.remotes ++ [t] }
              else { s with acc.resync := s.acc.resync.filter (fun r => r.cred ≠ i)
                         ++ [{ cred := i, kc := kc, until_ := s.elapsed + tS 10 }] }

/-- A telegram of a follow-on window: while the generator cannot serve the MAC job, or behind one that waits, it waits (R392,
R463). -/
def remoteIn (t : Bytes) (s : State) : State :=
  if u8 t 0 ≠ 0x21 || t.length ≠ 20 then s
  else if (!rngServes s && !rngFails s) || s.acc.remotes != [] then { s with acc.remotes := s.acc.remotes ++ [t] }
  else remote t s

/-- A held candidate expires unmatched (R392). -/
def resyncExpiry (i : Nat) (s : State) : State :=
  { s with acc.resync := s.acc.resync.filter (fun r => !(r.cred = i && decide (r.until_ ≤ s.elapsed))) }

def execResyncCandidateExpiry (cred : Fin 256) (s : State) : Host.Outcome State Fault Refusal :=
  done s (resyncExpiry cred.val s)

end Sys2Proof.Machine
end

