-- ==== Sys2Proof/Machine/Rounds.lean ====
section
/-! DEFINITION. Entries and rounds of the access engine (R280 to R301, R390, R391, R405): slot frames, singulation, AUTH,
page access, and the learning routine's steps. -/

namespace Sys2Proof.Machine

/-! ### Run-time entries of the access engine (R28, R198, R199) -/

/-- A one-shot of CPG0; `due` none means NOW. TABLE_FULL and BAD_TIME are the refusals of R198. -/
def accEntry (kind unit exch code : Nat) (block : Bytes) (due : Option (BitVec 48)) (s : State) :
    Option Status × BitVec 48 × State :=
  let e := runtimeEntry 0 kind unit (64 * exch + code) .access block 0
  let d := due.getD (nowDue s e)
  if s48 d (now48 s) < 10000 then (some .badTime, d, s)
  else
    let r := ttInsert 0 { e with due := d, grid := d } s
    (if r.1.isNone then some .tableFull else none, d, r.2)

/-! ### Frames of a round (R276, R287) -/

/-- A command frame at the start coil with I_FS of the profile. -/
def coilFrame (p : Bytes) (listen : Bool) (rmin rmax : Nat) (ext : Bool) (pay : Bytes) : Bytes :=
  [0, BitVec.ofNat 8 (if listen then pfStartCoil p else 255)] ++ leBytes 2 (pfCoilI p) ++ leBytes 1 pay.length
    ++ leBytes 1 rmin ++ leBytes 1 rmax ++ leBytes 1 (b2n ext) ++ [1, 0, 0, 0]
    ++ leBytes 4 (pfStartCoil p + 1023 * 4096) ++ pay

/-- A wake frame at the start coil (R405, step 5). -/
def coilWake (p : Bytes) (code : Nat) : Bytes :=
  [1, 255] ++ leBytes 2 (pfCoilI p) ++ [3, 0, 0, 0, 1, 0, 0, 0] ++ leBytes 4 (pfStartCoil p + 1023 * 4096) ++ beBytes 3 code

def frQuery (p : Bytes) (q : Nat) : Bytes := coilFrame p true 2 2 false [1, BitVec.ofNat 8 (16 * q)]
def frQadj (p : Bytes) (q : Nat) : Bytes := coilFrame p true 2 2 false [2, BitVec.ofNat 8 (16 * q)]
def frNext (p : Bytes) : Bytes := coilFrame p true 2 2 false [3]
def frAck (p : Bytes) (r16 : BitVec 16) : Bytes := coilFrame p true 9 9 false ([4] ++ beBytes 2 r16.toNat)
def frNak (p : Bytes) : Bytes := coilFrame p false 0 0 false [5]
def frAuth (p : Bytes) (c : BitVec 128) : Bytes := coilFrame p true 1 8 true ([0x10] ++ blockBytes c)
def frRead (p : Bytes) (page : Nat) : Bytes := coilFrame p true 1 16 true [0x20, BitVec.ofNat 8 page]
def frWrite (p : Bytes) (page : Nat) (d : Bytes) : Bytes := coilFrame p true 1 1 true ([0x21, BitVec.ofNat 8 page] ++ padTo 16 d)
def frLock (p : Bytes) (page : Nat) : Bytes := coilFrame p true 1 1 true [0x22, BitVec.ofNat 8 page]

/-! ### Round state -/

def Round.fresh (u : RoundUse) : Round :=
  { use := u, at_ := .slot, q := 1, frames := 1, slot := 0, e := 0, s := 0, c := 0, r16 := 0, id := 0, caps := 0,
    found := [], chal := 0, last := .noKey, cred := none, locks := 0, first := true, exch := 0, coil := 16 }

def exchNext (s : State) : State := { s with acc.exch := (s.acc.exch + 1) % 64 }

/-- Send a frame of the round and await its result: the first with NOW, the rest at the instant of R280. -/
def roundSend (first : Bool) (at_ : RoundFrame) (frame : Bytes) (r : Round) (s : State) : Option Status × State :=
  let x := accEntry 1 0 r.exch 30 frame (if first then none else some s.lf.roundDue)
    { s with acc.round := some { r with at_ := at_, first := first } }
  (x.1, x.2.2)

/-- Learning has left full function: it ends LOCKED before its next tag command (R618). DEDUCED, log 69. -/
def learnCut (u : RoundUse) (s : State) : Bool := u == .learn && s.sup.region != .full

/-- Open a round with QUERY. DEDUCED, log 67. -/
def roundStart (u : RoundUse) (s : State) : Option Status × State :=
  if learnCut u s then (some .locked, s)
  else
    let s := exchNext s
    roundSend true .slot (frQuery s.acc.profile 1) { Round.fresh u with exch := s.acc.exch } s

/-! ### Routines (R594) -/

def rtMod (f : Routine → Routine) (s : State) : State := { s with diag.routine := s.diag.routine.map f }

/-- The page's routine is done with a status and a result; the buffer that held K_tag is overwritten (R405), S3 of its
connection starts (R589), and with its connection closed (3) the result is discarded (R600). -/
def rtEnd (st : Status) (res : Bytes) (s : State) : State :=
  match s.diag.routine with
  | none => s
  | some r =>
    if !r.running then s
    else
      { s with
        diag.conns := vmod s.diag.conns r.conn (fun c => { c with s3 := s.elapsed })
        diag.routine := if r.conn ≥ 3 then none else
          some { r with running := false, status := st, result := res, opt := List.replicate r.opt.length 0 } }

/-- The option record of the running routine. -/
def rtOpt (s : State) : Bytes :=
  match s.diag.routine with
  | some r => r.opt
  | none => []

def rtStep (s : State) : Nat :=
  match s.diag.routine with
  | some r => r.step
  | none => 0

def rtSetStep (n : Nat) (s : State) : State := rtMod (fun r => { r with step := n }) s

/-- The credential a learning routine stores: STATE 1, LAST_KC 0 (R405, step 7). -/
def learnCred (s : State) : Cred := { credOf (rtOpt s) with st := 1, lastKc := 0 }
def learnIndex (s : State) : Nat := u8 (rtOpt s) 0
def learnTagKey (s : State) : Bytes := sl (rtOpt s) 32 16
def learnLock (s : State) : Bool := u8 (rtOpt s) 48 ≠ 0

/-- The learning routine ends; its outcome is recorded (R405, R409). -/
def learnEnd (st : Status) (s : State) : State :=
  let i := learnIndex s
  rtEnd st [] (outcome 6 i st 0 false { s with acc.round := none, acc.seqn := none })

/-- Step 7: the credential record (R405). -/
def learnStore (s : State) : State :=
  let i := learnIndex s
  let c := learnCred s
  let w := recWrite false (0x100 + i) (credBytes i c) (accJob s)
  match w.1 with
  | .ok _ _ => learnEnd .ok (evAcc 8 (credMod i (fun _ => c) w.2))
  | .lowEnergy => learnEnd .lowEnergy w.2
  | .eccError => learnEnd .eccError w.2

/-- The record of the start button: the first pin with ROLE 1. -/
def startRec (p : Bytes) : Option Bytes := ((List.range 8).map (pfRec p)).find? (fun r => prRole r = 1)

/-- The vehicle's WAKE_ID, from the start button's wake frame, or the first record's (R303, R405). -/
def vehicleWake (s : State) : Nat :=
  let f (r : Bytes) : Nat := fbWake (klFrame s.set.keylink (prFrame r)) % 2 ^ 18
  match startRec s.acc.profile with
  | some r => f r
  | none => match recsUsed s.acc.profile with
    | r :: _ => f r
    | [] => 0

/-- Page 2 as learning writes it: WAKE_ID and the kinds that the credential's ATTR uses (R291, R303, R405). -/
def learnPage2 (s : State) : Bytes :=
  let a := (learnCred s).attr
  let kinds := b2n (a.getLsbD 5) + 2 * b2n (a.getLsbD 1) + 4 * b2n (a.getLsbD 2) + 8 * b2n (a.getLsbD 1 || a.getLsbD 2 || a.getLsbD 5)
  beBytes 3 (vehicleWake s) ++ leBytes 1 kinds ++ List.replicate 12 0

/-- After the UHF exchange, or without one: locks in a new round, or the record. -/
def learnLocks (s : State) : State :=
  if !learnLock s then learnStore s
  else
    let r := roundStart .learn (rtSetStep 6 s)
    match r.1 with
    | some st => learnEnd st r.2
    | none => r.2

/-- A credential with ENTRY, START or APPROACH runs the exchange of step 5. -/
def learnNeedsUhf (s : State) : Bool :=
  let a := (learnCred s).attr
  a.getLsbD 1 || a.getLsbD 2 || a.getLsbD 5

/-! ### Ends of a sequence -/

/-- Erase the slots that held K and S (R381). -/
def seqKeysVoid (s : State) : State := slotVoid 57 (slotVoid 56 s)

/-- A sequence closes: its keys go, and overrides that waited take effect (R43, R381). -/
def seqClose (s : State) : State := ovFlush (seqKeysVoid { s with acc.seqn := none })

def Seqn.fresh (kind pin exch : Nat) : Seqn :=
  { kind := kind, pin := pin, stage := .wake, window := 0, repeated := false, ids := [], served := [], cred := none, chal := 0,
    sKey := 0, scanSeq := 0, wakeEnd := 0, msgEnd := 0, scanEnd := 0, scan := [], scanLate := false, fix := none, range := none,
    rangeDue := 0, rangeAgain := false, nonce := 0, rseq := 0, exch := exch, closed := 0, msgAt := 0, last := .noKey,
    drawn := false, expect := 0 }

/-- The open sequence changes. -/
def seqMod (f : Seqn → Seqn) (s : State) : State := { s with acc.seqn := s.acc.seqn.map f }

/-- A backup sequence ends (R390). -/
def backupEnd (cred : Nat) (st : Status) (s : State) : State :=
  seqClose (outcome 3 cred st 0 false { s with acc.round := none })

/-- Immobiliser backup opens its round (R390). -/
def backupOpen (pin : Nat) (s : State) : State :=
  let s := { s with acc.seqn := some { Seqn.fresh 3 pin s.acc.exch with stage := .backup } }
  let r := roundStart .backup s
  match r.1 with
  | some st => backupEnd 255 st r.2
  | none => r.2

/-- R390: the outcome lets a passive start go on with backup; `tied` says that LOCKED came from a credential. -/
def backupAllowed (s : State) (st : Status) (tied : Bool) : Bool :=
  bit (pfEnable s.acc.profile) 2 && pfStartCoil s.acc.profile ≠ 255 &&
    !(st == .tamper || st == .notReady || st == .entropyFail || (st == .locked && !tied))

/-- The open sequence ends with a status (R393); a refused start goes on with backup, learning ends its routine. -/
def seqEnd (st : Status) (tied inside : Bool) (s : State) : State :=
  match s.acc.seqn with
  | none => s
  | some q =>
    if q.kind = 6 then seqClose (learnEnd st s)
    else if q.kind = 3 then backupEnd ((q.cred.orElse (fun _ => s.acc.round.bind (·.cred))).getD 255) st s
    else
      let s := outcome q.kind (q.cred.getD 255) st 0 inside s
      if q.kind = 2 && !st.good && backupAllowed s st tied then backupOpen q.pin (seqKeysVoid { s with acc.seqn := none })
      else seqClose s

/-- A wake frame of the sequence with NOW. -/
def wakeSend (frame : Bytes) (s : State) : State :=
  match s.acc.seqn with
  | none => s
  | some q =>
    let s := exchNext s
    let x := accEntry 1 0 s.acc.exch 1 frame none (seqMod (fun q => { q with exch := s.acc.exch, stage := .wake }) s)
    match x.1 with
    | some st => seqEnd st false false x.2.2
    | none => let _ := q; x.2.2

/-- Step 5 of learning: a START wake frame on START_COIL, then ID, CHAL and RESP (R405). -/
def learnUhf (s : State) : State :=
  match startRec s.acc.profile with
  | none => learnEnd .notReady s
  | some _ =>
    if learnCut .learn s then learnEnd .locked s else
    let s := rtSetStep 5 { s with acc.round := none, acc.seqn := some (Seqn.fresh 6 9 s.acc.exch) }
    wakeSend (coilWake s.acc.profile (2 * 2 ^ 18 + vehicleWake s)) s

/-! ### The loop of R301 -/

/-- A tag routine's or round's owner is told that the round is over with a status. -/
def roundOver (st : Status) (res : Bytes) (r : Round) (s : State) : State :=
  let s := { s with acc.round := none }
  match r.use with
  | .backup => backupEnd (r.cred.getD 255) st s
  | .coilCheck => s
  | .learn => learnEnd st s
  | .inventory => rtEnd st res s
  | .tagRead => rtEnd st res s
  | .tagWrite => rtEnd st res s
  | .tagLock => rtEnd st res s

/-- The round has run to its end (R301): complete, or incomplete and reported as COLLISION. -/
def roundDone (complete : Bool) (r : Round) (s : State) : State :=
  match r.use with
  | .backup => roundOver r.last [] r s
  | .coilCheck => roundOver .ok [] r s
  | .inventory =>
    if complete then
      roundOver .ok (leBytes 1 (min 8 r.found.length) ++ (r.found.take 8).flatMap (fun i => beBytes 8 i.toNat)) r s
    else roundOver .collision [] r s
  | .learn =>
    if rtStep s = 1 || !complete then
      let named := (learnCred s).id
      if !complete || r.found.length > 1 then roundOver .collision [] r s
      else match r.found with
        | [i] =>
          if named = 0 || named = i then
            rtMod (fun t => { t with step := 2, opt := t.opt.take 8 ++ beBytes 8 i.toNat ++ t.opt.drop 16 })
              { s with acc.round := none }
          else roundOver .noKey [] r s
        | _ => roundOver .noKey [] r s
    else roundOver .noKey [] r s
  | .tagRead => roundOver (if complete then .noKey else .collision) [] r s
  | .tagWrite => roundOver (if complete then .noKey else .collision) [] r s
  | .tagLock => roundOver (if complete then .noKey else .collision) [] r s

/-- A round that ends while its owner still has a frame to send: it begins anew with QUERY, and a tag routine ends with
NO_FIELD (R282, R594). -/
def roundBroken (s : State) : State :=
  match s.acc.round with
  | none => if learning s && rtStep s = 2 && s.acc.seqn.isNone then
      let r := roundStart .learn (rtSetStep 3 s)
      match r.1 with
      | some st => learnEnd st r.2
      | none => r.2
    else s
  | some r =>
    let s := evKl 3 s
    match r.use with
    | .inventory => roundOver .noField [] r s
    | .tagRead => roundOver .noField [] r s
    | .tagWrite => roundOver .noField [] r s
    | .tagLock => roundOver .noField [] r s
    | u =>
      let x := roundStart u s
      match x.1 with
      | some st => roundOver st [] r x.2
      | none => { x.2 with acc.round := x.2.acc.round.map (fun n => { n with coil := r.coil }) }

/-- Send the next frame; one that would come too late for the instant of R280 finds the round ended (R282), another refusal
ends it with its status. -/
def roundGo (at_ : RoundFrame) (frame : Bytes) (r : Round) (s : State) : State :=
  if learnCut r.use s then roundOver .locked [] r s
  else
    let x := roundSend false at_ frame r s
    match x.1 with
    | some .badTime => roundBroken (lfActionEnd (lfOff x.2))
    | some st => roundOver st [] r x.2
    | none => x.2

/-- Smallest u8 x up to 8 with 2^x at or above n. -/
def qFor (n : Nat) : Nat := ((List.range 9).find? (fun x => n ≤ 2 ^ x)).getD 8

/-- The slot is over: NEXT, or the end of the frame under R301. -/
def roundAdvance (r : Round) (s : State) : State :=
  let p := s.acc.profile
  if r.slot + 1 < 2 ^ r.q then roundGo .slot (frNext p) { r with slot := r.slot + 1 } s
  else if r.c = 0 && r.s = 0 then roundDone true r s
  else if r.frames ≥ 16 then roundDone (r.c = 0) r s
  else
    let q := if r.c = 0 then r.q - 1 else qFor ((r.c * 612 + 255) / 256)
    roundGo .slot (frQadj p q) { r with q := q, frames := r.frames + 1, slot := 0, e := 0, s := 0, c := 0 } s

/-- The routine's tag is in the field: what it does with it. -/
def tagTarget (s : State) : BitVec 64 := BitVec.ofNat 64 (beNat ((rtOpt s).take 8))

/-- AUTH with a fresh challenge; a generator that fails refuses, one that waits leaves the round to end (R38, R282). -/
def roundAuth (r : Round) (s : State) : State :=
  if rngFails s then roundOver .entropyFail [] r s
  else if !rngServes s then { s with acc.round := some r }
  else
    let d := drawPrivate s
    roundGo .auth (frAuth s.acc.profile d.1) { r with chal := d.1 } d.2

/-- A tag is singulated: serve it (R300, R390, R405); `again` when the round has met it before, so that AUTH is sent at most once
to it (R297). -/
def roundServe (again : Bool) (r : Round) (s : State) : State :=
  let p := s.acc.profile
  match r.use with
  | .backup =>
    if again then roundAdvance r s else match credOfId s r.id with
    | none => roundAdvance r s
    | some i =>
      if (credServes s (credGet s i) 3).isNone then roundOver .locked [] { r with cred := some i } s
      else roundAuth { r with cred := some i } s
  | .coilCheck =>
    if again then roundAdvance r s else match credOfId s r.id with
    | none => roundAdvance r s
    | some i =>
      if (credServes s (credGet s i) 3).isNone then roundAdvance r s else roundAuth { r with cred := some i } s
  | .inventory => roundAdvance r s
  | .tagRead =>
    if r.id = tagTarget s then roundGo .readPage (frRead p (u8 (rtOpt s) 8)) r s else roundAdvance r s
  | .tagWrite =>
    if r.id = tagTarget s then roundGo .writePage (frWrite p (u8 (rtOpt s) 8) (sl (rtOpt s) 9 16)) r s else roundAdvance r s
  | .tagLock =>
    if r.id = tagTarget s then roundGo .lockPage (frLock p (u8 (rtOpt s) 8)) r s else roundAdvance r s
  | .learn =>
    if rtStep s = 1 || r.id ≠ (learnCred s).id then roundAdvance r s
    else if rtStep s = 6 then roundGo .lockKey (frLock p 1) r s
    else roundGo .readPage (frRead p 2) r s

/-- Learning continues after page 2 has been read: WRITE of page 2, WRITE of page 1, AUTH (R405, steps 2 to 4). -/
def learnStep (n : Nat) (r : Round) (s : State) : State :=
  let p := s.acc.profile
  if n ≤ 2 && !r.locks.testBit 2 then roundGo .writeConfig (frWrite p 2 (learnPage2 s)) r s
  else if n ≤ 3 && !r.locks.testBit 1 then roundGo .writeKey (frWrite p 1 (learnTagKey s)) r s
  else roundAuth r s

/-! ### Frame results (R278, R299, R300) -/

def frPay (res : Bytes) : Bytes := sl res 16 32
/-- Reply bytes: REPLY_BITS without the CRC. DEDUCED, log 66. -/
def frBytes (res : Bytes) : Nat := (u16 res 10 - 16) / 8
def frExt (res : Bytes) : Nat := u8 res 7

/-- The response of AUTH: 8 bytes equal to the leading bytes of O, within EXT_NEED (R296, R297). -/
def authOk (k : BitVec 128) (r : Round) (st : Status) (res : Bytes) : Bool :=
  st.good && frBytes res = 8 && (frPay res).take 8 = (blockBytes (aes128 k r.chal)).take 8 && frExt res ≤ r.caps.toNat % 16

/-- A write or lock of a learning round took effect. -/
def tcDone (st : Status) (res : Bytes) : Bool := st.good && frBytes res = 1 && u8 (frPay res) 0 = 0

/-- Status that ends learning at a write or lock: the frame's, or LOCKED with a tag code. -/
def tcStatus (st : Status) : Status := if st.good then .locked else st

/-- The grant of a backup round (R390, R394). -/
def backupGrant (i : Nat) (s : State) : State :=
  let g := grant i true s
  backupEnd i g.1 g.2

/-- A backup grant that waited for the VHOLD measurement, since its increments are NVM writes (R104). -/
def grantResume (s : State) : State :=
  match s.acc.seqn with
  | some q => if q.kind = 3 && q.stage == .fuse then backupGrant (q.cred.getD 255) s else s
  | none => s

/-- The result of AUTH; with the generator latched failed every authentication is refused (R38). -/
def roundAuthed (r : Round) (st : Status) (res : Bytes) (s : State) : State :=
  if s.rng.latched then roundOver .entropyFail [] r s
  else match r.use with
  | .learn =>
    match credKey s (learnCred s) with
    | none => roundOver .locked [] r s
    | some k =>
      let s := accAes 1 s
      if !authOk k r st res then roundOver .tagMismatch [] r s
      else if learnNeedsUhf s then learnUhf s
      else if learnLock s then roundGo .lockKey (frLock s.acc.profile 1) r (rtSetStep 6 s)
      else learnStore s
  | _ =>
    match r.cred with
    | none => roundAdvance r s
    | some i =>
      match credServes s (credGet s i) 3 with
      | none => if r.use == .backup then roundOver .locked [] r s else roundAdvance r s
      | some k =>
        let s := accAes 1 s
        if !authOk k r st res then roundAdvance { r with last := .tagMismatch, cred := none } s
        else if r.use == .coilCheck then evAcc 7 { s with acc.round := none }
        else if !s.sup.measured then
          seqMod (fun q => { q with stage := .fuse, cred := some i }) { s with acc.round := none }
        else backupGrant i s

/-- A tag's ID reply: it is singulated and served. -/
def roundId (r : Round) (res : Bytes) (s : State) : State :=
  let i := BitVec.ofNat 64 (beNat ((frPay res).take 8))
  let again := r.found.contains i
  roundServe again { r with s := r.s + 1, id := i, caps := (frPay res).getD 8 0,
                            found := if again then r.found else r.found ++ [i] } s

/-- A frame of the round has ended; one of a round that is over says nothing. -/
def roundResult (exch : Nat) (st : Status) (res : Bytes) (s : State) : State :=
  match s.acc.round with
  | none => s
  | some r =>
    let p := s.acc.profile
    if exch ≠ r.exch then s
    else if st == .lowEnergy || st == .notReady || st == .channelFault || st == .badTime then roundOver st [] r s
    else match r.at_ with
      | .slot =>
        if st.good then
          let v := BitVec.ofNat 16 (beNat ((frPay res).take 2))
          roundGo .ack (frAck p v) { r with r16 := v } s
        else if st == .timeout && !bit (u8 res 6) 3 then roundAdvance { r with e := r.e + 1 } s
        else roundAdvance { r with c := r.c + 1 } s
      | .ack =>
        if st.good then roundId r res s
        else if st == .collision then roundGo .nak (frNak p) r s
        else roundGo .ackAgain (frAck p r.r16) r s
      | .ackAgain =>
        if st.good then roundId r res s
        else roundGo .nak (frNak p) r s
      | .nak => roundAdvance { r with c := r.c + 1 } s
      | .auth => roundAuthed r st res s
      | .readPage =>
        if r.use == .learn then
          if st.good && frBytes res = 16 then
            let l := beNat (sl (frPay res) 4 4)
            learnStep 2 { r with locks := l } s
          else roundOver (tcStatus st) [] r s
        else roundOver st (if st.good then (frPay res).take (frBytes res) else []) r s
      | .writeConfig => if tcDone st res then learnStep 3 r s else roundOver (tcStatus st) [] r s
      | .writeKey => if tcDone st res then learnStep 4 r s else roundOver (tcStatus st) [] r s
      | .lockKey => if tcDone st res then roundGo .lockConfig (frLock p 2) r s else roundOver (tcStatus st) [] r s
      | .lockConfig => if tcDone st res then learnStore { s with acc.round := none } else roundOver (tcStatus st) [] r s
      | .writePage => roundOver st (if st.good then (frPay res).take 1 else []) r s
      | .lockPage => roundOver st (if st.good then (frPay res).take 1 else []) r s

/-! ### The end of a round (R281, R282) -/

/-- ROUND_END: no frame is due at the instant of R280, or the one due has missed it, so the channels go OFF. -/
def roundEnd (s : State) : State :=
  let due := decide (s48 (now48 s) s.lf.roundDue ≤ 50)
    && (ttAll s).any (fun x => x.2.kind = 1 && x.2.st != .suspended && decide (x.2.due = s.lf.roundDue))
  let running := (ttAll s).any (fun x => x.2.isLf && x.2.st == .running)
  if !s.lf.round || due || running || decide (s48 s.lf.roundDue (now48 s) > 0) then s
  else roundBroken (lfActionEnd (lfOff s))

def execRoundEnd (s : State) : Host.Outcome State Fault Refusal := done s (roundEnd s)

end Sys2Proof.Machine
end

