-- ==== Sys2Proof/Machine/Access.lean ====
section
/-! DEFINITION. The access engine's sequences (R381 to R393): triggers, wake frame, ID, CHAL, RESP, scan, REPORT, ranging,
fusion, and the repeat of R389. -/

namespace Sys2Proof.Machine

/-! ### Records and times of a sequence -/

/-- The record the sequence uses: a pin's, the approach record, or the start button's for learning. -/
def seqRec (s : State) (q : Seqn) : Bytes :=
  if q.kind = 6 then (startRec s.acc.profile).getD [] else pfRec s.acc.profile q.pin

/-- D of R383, ns. -/
def seqDelay (q : Seqn) : Nat := if q.kind = 5 then 4000000 else 800000

/-- Duration of a telegram of L bytes under a profile, ns (R311). -/
def telNs (p : Bytes) (l : Nat) : Nat :=
  if prRate p = 0 then 0 else (prPre p + prSyncLen p + 24 + 8 * l) * 1000000000 / prRate p

/-- A window block: the profile of RX_PLAN, WIN_LEN in µs, MAX_LEN. -/
def winBlock (s : State) (r : Bytes) (len max : Nat) : Bytes :=
  (winPlan s (prRx r)).take 24 ++ leBytes 4 len ++ leBytes 1 max ++ [0, 0, 0]

/-- A transmit block: the profile of TX_PLAN with a payload. -/
def telOf (s : State) (r pay : Bytes) : Bytes :=
  (telBlock s (prTx r)).take 24 ++ leBytes 4 0 ++ leBytes 1 pay.length ++ [0, 0, 0] ++ pay

/-- Duration of a scan, ns (R245). -/
def scanNs (s : State) (b : Bytes) : Nat :=
  let pre := if scanPreamble b = 0xFFFF then 0 else 32 * frameSlots (klFrame s.set.keylink (scanPreamble b)) + 16
  (pre + scanCount b * (18 + scanDwell b)) * 100000000 / carrierNext s

/-- The scan block of a sequence, none when SCAN is 255 or for learning. -/
def seqScan (s : State) (q : Seqn) : Option Bytes :=
  let r := seqRec s q
  if q.kind = 6 || prScan r = 255 then none else some (antScan s.set.antenna (prScan r))

/-! ### Refusals -/

/-- A key served is refused: a further key may be served under R389, otherwise the sequence ends. -/
def keyRefused (st : Status) (inside : Bool) (s : State) : State :=
  match s.acc.seqn with
  | none => s
  | some q =>
    if (q.kind = 1 || q.kind = 2) && q.served.length < pfMaxKeys s.acc.profile then
      seqMod (fun q => { q with stage := .repeatGap, last := st }) (seqKeysVoid s)
    else seqEnd st true inside s

/-! ### ID (R384, R387) -/

/-- C for the next key: drawn before the wake frame when the private wire serves (R46, R381); while it does not, the draw waits
until a key needs it (R38). -/
def chalDraw (s : State) : State :=
  match s.acc.seqn with
  | none => s
  | some q =>
    if q.drawn || !rngServes s then s
    else
      let d := drawPrivate s
      seqMod (fun q => { q with chal := d.1, drawn := true }) d.2

/-- An ID window: i from 0, after the wake frame's end (R387). -/
def idWindow (i : Nat) (s : State) : State :=
  match s.acc.seqn with
  | none => s
  | some q =>
    let r := seqRec s q
    let off := seqDelay q + 500000 * i - 50000
    let b := winBlock s r (if q.kind = 5 then 1650 else 150) 22
    let x := accEntry 4 (prTrx r) q.exch (10 + i) b (some (after48 q.wakeEnd off)) s
    match x.1 with
    | some st => seqEnd st false false x.2.2
    | none => seqMod (fun q => { q with window := i }) x.2.2

/-- Short time of an instant of the 40 MHz reference not long past: the actual end of an LF action (R387). -/
def endTime (s : State) (at_ : Nat) : BitVec 48 := now48 s - BitVec.ofNat 48 ((s.xo - at_) / 64)

/-- The wake frame of the sequence has ended at `fin`. -/
def wakeDone (st : Status) (fin : BitVec 48) (s : State) : State :=
  if !st.good then seqEnd st false false s
  else
    let s := seqMod (fun q => { q with stage := .id, wakeEnd := fin, closed := 0, ids := [] }) s
    match s.acc.seqn with
    | none => s
    | some q =>
      if q.repeated && q.kind ≠ 5 then (List.range 4).foldl (fun s i => idWindow i s) s else idWindow 0 s

/-- Stop at the first refusal while entries are created one after the other. -/
def andThen (x : Option Status × BitVec 48 × State) (f : State → State) : State :=
  match x.1 with
  | some st => seqEnd st false false x.2.2
  | none => f x.2.2

/-- CHAL, RESP window, scan and REPORT window of an accepted key (R382, R387). -/
def chalSend (id : BitVec 64) (s : State) : State :=
  match s.acc.seqn with
  | none => s
  | some q =>
    let r := seqRec s q
    let scan := seqScan s q
    let pay := [0x32] ++ beBytes 8 id.toNat ++ blockBytes q.chal ++ leBytes 1 q.scanSeq
      ++ (match scan with
          | some b => beBytes 2 2000 ++ leBytes 1 (scanCount b) ++ leBytes 1 (scanDwell b)
          | none => [0xFF, 0xFF, 0, 0])
    let tx := telOf s r pay
    let x := accEntry 5 (prTrx r) q.exch 20 tx none s
    andThen x (fun s =>
      let fin := after48 x.2.1 (telNs tx 30)
      andThen (accEntry 4 (prTrx r) q.exch 21 (winBlock s r 1550 25) (some (after48 fin 50000)) s) (fun s =>
        match scan with
        | none => s
        | some b =>
          andThen (accEntry 3 0 q.exch 22 b (some (after48 fin 2000000)) s) (fun s =>
            andThen (accEntry 4 (prTrx r) q.exch 23 (winBlock s r 500 201)
              (some (after48 fin (2000000 + scanNs s b))) s) (fun s => s))))

/-- Which ATTR bit a sequence needs (R380); learning tests the record being learnt. -/
def seqAttr (q : Seqn) : Nat := if q.kind = 1 then 1 else if q.kind = 2 then 2 else 5

/-- Credential and K of an ID in a sequence. -/
def idCred (s : State) (q : Seqn) (id : BitVec 64) : Status × Nat × Option (BitVec 128) :=
  if q.kind = 6 then
    if (learnCred s).id = id then (.ok, learnIndex s, credKey s (learnCred s)) else (.unknownKey, 255, none)
  else match credOfId s id with
    | none => (.unknownKey, 255, none)
    | some i => (.ok, i, credServes s (credGet s i) (seqAttr q))

/-- Serve one ID telegram (R384). -/
def idServe (t : Bytes) (s : State) : State :=
  match s.acc.seqn with
  | none => s
  | some q =>
    let id := BitVec.ofNat 64 (beNat (sl t 2 8))
    let x := idCred s q id
    let s := seqMod (fun q => { q with served := q.served ++ [id], cred := if x.1 == .ok then some x.2.1 else none }) s
    if x.1 != .ok then keyRefused .unknownKey false s
    else match x.2.2 with
      | none => keyRefused .locked false s
      | some k =>
        let icnt := beNat (sl t 12 4)
        let s := accAes 2 s
        let old : Option Nat := if q.kind = 6 then none else (credGet s x.2.1).icnt
        let replay : Bool := match old with | some n => decide (icnt ≤ n) | none => false
        if mac128 k 6 (t.take 16) ≠ sl t 16 6 then keyRefused .tagMismatch false s
        else if replay then keyRefused .replayed false s
        else
          let s := heathToRun 10 (if q.kind = 6 then s else credMod x.2.1 (fun c => { c with icnt := some icnt }) s)
          let s := exchNext (accSlot 56 k (chalDraw s))
          let s := { s with acc.scanSeq := (s.acc.scanSeq + 1) % 256 }
          let n := s.acc.scanSeq
          let e := s.acc.exch
          let s := seqMod (fun q => { q with stage := .resp, drawn := false, scanSeq := n, exch := e, fix := none, range := none,
                                             rangeAgain := false, scan := [] }) s
          -- while CHAL is on the air, an urgent job computes the expected response (R46)
          seqMod (fun q => { q with expect := aes128 k q.chal }) (accAes 1 (chalSend id s))

/-- Serve the next ID delivered and not yet served; while the generator cannot serve, the sequence waits (R38, R389). -/
def idNext (s : State) : State :=
  match s.acc.seqn with
  | none => s
  | some q =>
    match q.ids.filter (fun t => !(q.served.contains (BitVec.ofNat 64 (beNat (sl t 2 8))))) with
    | [] => if q.served = [] then seqEnd .noKey false false s else seqEnd q.last true false s
    | t :: r =>
      let s := seqMod (fun q => { q with stage := .id, ids := t :: r }) s
      if rngFails s then seqEnd .entropyFail false false s
      else if !rngServes s then s
      else idServe t (seqMod (fun q => { q with ids := r }) s)

/-- An ID window has closed. -/
def idDone (i : Nat) (st : Status) (tel : Bytes) (s : State) : State :=
  match s.acc.seqn with
  | none => s
  | some q =>
    let isId := st.good && u8 tel 0 = 0x31 && tel.length = 22
    let s := if isId && q.kind = 5 then heathEvent 10 s else s
    if st == .lowEnergy then seqEnd .lowEnergy false false s
    else if q.repeated && q.kind ≠ 5 then
      let s := seqMod (fun q => { q with ids := if isId then q.ids ++ [tel] else q.ids, closed := q.closed + 1 }) s
      if q.closed + 1 ≥ 4 then idNext s else s
    else if isId then idNext (seqMod (fun q => { q with ids := [tel] }) s)
    else if i < 3 && q.kind ≠ 5 then idWindow (i + 1) s
    else seqEnd .noKey false false s

/-! ### RESP, scan, REPORT (R381, R383, R387) -/

/-- Start the ranging exchange with a new NONCE and SEQ (R363, R387); while the private wire does not serve, the draw waits (R38). -/
def rangingStart (s : State) : State :=
  match s.acc.seqn with
  | none => s
  | some q =>
    if rngFails s then seqEnd .entropyFail false false s
    else if !rngServes s then seqMod (fun q => { q with stage := .nonce }) s
    else
      let d := drawPrivate s
      let s := { d.2 with acc.rangeSeq := (s.acc.rangeSeq + 1) % 256 }
      let nonce : BitVec 64 := d.1.extractLsb' 64 64
      let b := [57, BitVec.ofNat 8 s.acc.rangeSeq, 0, 0] ++ beBytes 8 nonce.toNat ++ [0, 0, 0, 0]
      let x := accEntry 6 0 q.exch 24 b none s
      match x.1 with
      | some st => keyRefused st false x.2.2
      | none => seqMod (fun q => { q with stage := .ranging, nonce := nonce, rseq := s.acc.rangeSeq, rangeDue := x.2.1 }) x.2.2

/-- The RESP window has closed. -/
def respDone (st : Status) (tel : Bytes) (s : State) : State :=
  match s.acc.seqn with
  | none => s
  | some q =>
    let s := seqMod (fun q => { q with msgAt := s.elapsed, msgEnd := now48 s }) s
    if st == .lowEnergy then seqEnd .lowEnergy false false s
    else if !st.good then keyRefused st false s
    else if s.rng.latched then seqEnd .entropyFail false false s
    else match slotKey128 s 56 with
      | none => keyRefused .locked false s
      | some k =>
        let id := q.served.getLastD 0
        if u8 tel 0 ≠ 0x33 || tel.length ≠ 25 || sl tel 1 8 ≠ beBytes 8 id.toNat || sl tel 9 16 ≠ blockBytes q.expect then
          keyRefused .tagMismatch false s
        else
          let sk := aes128 k (q.chal ^^^ (0x80 : BitVec 128) <<< 120)
          let s := seqMod (fun q => { q with sKey := sk }) (accSlot 57 sk (accAes 1 s))
          if q.kind = 6 then learnLocks (seqKeysVoid { s with acc.seqn := none })
          else if (seqScan s q).isSome then seqMod (fun q => { q with stage := .scan }) s
          else rangingStart s

/-- The scan of the sequence has ended. -/
def scanDone (st : Status) (res : Bytes) (e : Entry) (s : State) : State :=
  match s.acc.seqn with
  | none => s
  | some q =>
    if st == .lowEnergy then seqEnd .lowEnergy false false s
    else
      let late := scanPreamble e.block = 0xFFFF && decide (s48 e.start e.due > periodsNs s 2)
      seqMod (fun x => { x with scan := res, scanEnd := endTime s e.endAt, scanLate := late,
                                stage := if q.stage == .scan then .report else q.stage }) s

/-- LOC_FIX registers of a CPG0 solver result (R375). -/
def locFix (o : RangeOut) (s : State) : State :=
  let s := o.evts.foldl (fun s i => evLoc i s) s
  if o.st != .ok then s
  else { s with
    loc.fixXy := BitVec.ofNat 32 (u16 o.bytes 0 + 65536 * u16 o.bytes 2)
    loc.fixZ := BitVec.ofNat 32 (u16 o.bytes 4 + 65536 * u8 o.bytes 20 + 2 ^ 24 * (u8 o.bytes 18 % 16)
      + 2 ^ 28 * b2n (!bit (u16 o.bytes 32) 0) + 2 ^ 29 * b2n (bit (u16 o.bytes 32) 7)) }

/-- The REPORT window has closed: its MAC under S, the solver job, then ranging (R383, R387). -/
def reportDone (st : Status) (tel : Bytes) (s : State) : State :=
  match s.acc.seqn with
  | none => s
  | some q =>
    if q.stage != .report && q.stage != .scan then s
    else
      let s := seqMod (fun q => { q with msgAt := s.elapsed, msgEnd := now48 s }) s
      if st == .lowEnergy then seqEnd .lowEnergy false false s
      else if !st.good then keyRefused st false s
      else if s.rng.latched then seqEnd .entropyFail false false s
      else
        let n := tel.length - 8
        let s := accAes ((tel.length + 15) / 16 + 1) s
        if u8 tel 0 ≠ 0x34 || tel.length < 9 || mac128 q.sKey 8 (tel.take n) ≠ tel.drop n then keyRefused .tagMismatch false s
        else match seqScan s q with
          | none => rangingStart s
          | some b =>
            if q.scanLate then rangingStart (seqMod (fun q => { q with fix := some (.outOfZone, []) }) s)
            else
              let o := solve s b q.scan ((tel.take n).drop 1)
              rangingStart (seqMod (fun q => { q with fix := some (o.st, o.bytes) }) (locFix o (accJob s)))

/-- The ranging exchange has ended; one repeat (R387). -/
def rangeDone (st : Status) (res : Bytes) (s : State) : State :=
  match s.acc.seqn with
  | none => s
  | some q =>
    if (st == .timeout || st == .crcError || st == .multipath) && !q.rangeAgain then
      rangingStart (seqMod (fun q => { q with rangeAgain := true }) s)
    else seqMod (fun q => { q with stage := .fuse, range := some (st, res) }) s

/-! ### Fusion (R373, R393) -/

/-- What fusion finds: the first failing row, and KEY_INSIDE. -/
structure Fused where
  /-- first failing check; none when every column holds -/
  fail : Option Status
  /-- KEY_INSIDE (R393) -/
  inside : Bool
deriving DecidableEq, Repr

/-- |m − d| ≤ tol for d the distance between two points, in cm. -/
def agrees (m tol : Nat) (p a : Int × Int × Int) : Bool :=
  decide (dist2 p a ≤ ((m + tol) * (m + tol) : Nat)) && decide (((m - tol) * (m - tol) : Nat) ≤ dist2 p a)

/-- Zone flag a sequence needs (R373). -/
def zoneNeed (q : Seqn) : Nat := if q.kind = 2 then 0 else if q.kind = 1 then 1 else 2

/-- Solver column (R373): the status, or OUT_OF_ZONE; and whether the zone has INTERIOR. -/
def solverCol (s : State) (q : Seqn) : Option Status × Bool :=
  match q.fix with
  | none => (some .outOfZone, false)
  | some (st, b) =>
    if !st.good then (some st, false)
    else
      let fl := u16 b 32
      let zf := if u8 b 20 < 32 && s.set.zones != [] then u8 (znRec s.set.zones (u8 b 20)) 0 else 0
      let clean := !bit fl 0 && !bit fl 1 && !bit fl 2 && bit fl 7
      let lock := q.kind = 1 && prRole (seqRec s q) = 3
      let inside := clean && lock && bit zf 3
      (if clean && bit zf (zoneNeed q) && !inside then none else some .outOfZone, inside)

/-- Every column in the order of R393. DEDUCED, log 71. -/
def fuse (s : State) (q : Seqn) : Fused :=
  let sec := rangingSec s
  let withScan := q.kind ≠ 5 || (seqScan s q).isSome
  let sol : Option Status × Bool := if withScan then solverCol s q else (none, false)
  match sol.1 with
  | some st => { fail := some st, inside := sol.2 }
  | none =>
    match q.range with
    | none => { fail := some .timeout, inside := false }
    | some (st, r) =>
      let ra := u16 r 0
      let rb := u16 r 2
      let fl := u16 r 10
      let p : Int × Int × Int := match q.fix with | some (_, b) => (s16 b 0, s16 b 2, s16 b 4) | none => (0, 0, 0)
      let near := decide (s48 q.rangeDue q.scanEnd ≤ 50000000)
      let a := bit fl 0 || agrees ra (rgAgree sec) p (rgAnt sec 0)
      let b := bit fl 1 || agrees rb (rgAgree sec) p (rgAnt sec 1)
      if !st.good then { fail := some st, inside := false }
      else if min ra rb > rgDist sec (zoneNeed q) then { fail := some .tooFar, inside := false }
      else if withScan && !(a && b && near) then { fail := some .disagree, inside := false }
      else { fail := none, inside := false }

/-- Statuses of a refused key under which R389 serves a further one. -/
def keyStatus (fix : Option (Status × Bytes)) (st : Status) : Bool :=
  match fix with
  | some (x, _) => x.good || st == .outOfZone
  | none => true

/-- FUSION (R373, R394): grant, event, or refusal; NOT_READY at T_OFF (R92). A grant's counters are NVM writes, which wait for the VHOLD
measurement (R104). DEDUCED, log 135. -/
def fusion (mv : Nat) (s0 : State) : State :=
  match s0.acc.seqn with
  | none => s0
  | some q =>
    if q.stage != .fuse || q.kind = 3 then s0
    else
      let s := seeVhold mv s0
      let f := fuse s q
      if decisionsOff s then seqEnd .notReady false false s
      else match f.fail with
      | some st =>
        let s := if st == .disagree then evLoc 8 s else s
        if keyStatus q.fix st then keyRefused st f.inside s else seqEnd st false f.inside s
      | none =>
        let i := q.cred.getD 255
        if (q.kind = 1 || q.kind = 2) && !s.sup.measured then s
        else if q.kind = 2 then
          let g := grant i false s
          seqEnd g.1 false false g.2
        else if q.kind = 1 then
          let c := credCount (credGet s i) s
          seqEnd c.1 false false c.2
        else seqEnd .ok false false (evAcc 5 s)

def execFusion (vholdMv : Nat) (s : State) : Host.Outcome State Fault Refusal := done s (fusion vholdMv s)

/-! ### The repeat of R389 -/

/-- At least 12 ms after the last RESP or REPORT: the next ID delivered, or the wake frame again. -/
def wakeFrameRepeat (s : State) : State :=
  match s.acc.seqn with
  | none => s
  | some q =>
    if q.stage != .repeatGap || !(q.msgAt = 0 || reached s (q.msgAt + tMs 12)) then s
    else if (q.ids.filter (fun t => !(q.served.contains (BitVec.ofNat 64 (beNat (sl t 2 8)))))) != [] then idNext s
    else wakeSend (klFrame s.set.keylink (prFrame (seqRec s q))) (chalDraw (seqMod (fun q => { q with repeated := true }) s))

def execWakeFrameRepeat (s : State) : Host.Outcome State Fault Refusal := done s (wakeFrameRepeat s)

/-! ### Triggers (R377, R385, R386) -/

/-- Open a passive sequence on a pin: 1 entry, 2 start. -/
def passiveOpen (kind pin : Nat) (s : State) : State :=
  match preCheck s with
  | some st => outcome kind 255 st 0 false s
  | none =>
    let r := pfRec s.acc.profile pin
    if !recUsable s r then outcome kind 255 .notReady 0 false s
    else wakeSend (klFrame s.set.keylink (prFrame r)) (chalDraw { s with acc.seqn := some (Seqn.fresh kind pin s.acc.exch) })

/-- Backup run directly (R377). -/
def backupDirect (pin : Nat) (s : State) : State :=
  match preCheck s with
  | some st => outcome 3 255 st 0 false s
  | none => if pfStartCoil s.acc.profile = 255 then outcome 3 255 .notReady 0 false s else backupOpen pin s

/-- Pair A can run the round of R391. -/
def coilReady (s : State) : Bool := s.acc.profile != [] && pfStartCoil s.acc.profile ≠ 255 && hasRole s 0

/-- The round of R391 at START_COIL for a change on channel `n`: it grants nothing. -/
def coilCheck (n : Nat) (s : State) : State :=
  if !coilReady s then s
  else
    let r := roundStart .coilCheck s
    match r.1 with
    | some _ => { r.2 with acc.round := none }
    | none => { r.2 with acc.round := r.2.acc.round.map (fun x => { x with coil := n }) }

/-- The poll that channel `n` has started runs or waits. -/
def pollRuns (s : State) (n : Nat) : Bool :=
  (match s.acc.round with | some r => r.use == .coilCheck && r.coil = n | none => false) || s.acc.queue.contains (7, 16 + n)

/-- Once a full poll has ended, whatever its outcome, the baseline of the channel whose change started it becomes that measurement
(R253). -/
def pollDone (s : State) : State :=
  (List.range 16).foldl (fun s n => match (chGet s n).trigger with
    | some t => if pollRuns s n then s else chMod n (fun c => { c with base := some t, trigger := none }) s
    | none => s) s

/-- The approach sequence begins from the end of the approach frame (R385, R387). -/
def approachOpen (fin : BitVec 48) (s : State) : State :=
  match preCheck s with
  | some st => outcome 5 255 st 0 false s
  | none =>
    if !recUsable s (pfRec s.acc.profile 8) then outcome 5 255 .notReady 0 false s
    else
      let s := exchNext s
      let q := { Seqn.fresh 5 8 s.acc.exch with stage := .id, wakeEnd := fin }
      idWindow 0 (chalDraw { s with acc.seqn := some q })

/-- Run a trigger: 1 entry, 2 start, 3 backup directly, 5 an approach that waited, 7 coil check of channel `pin` − 16. The window of an
approach that waited lies in the past (R198). DEDUCED, log 72. -/
def triggerRun (kind pin : Nat) (s : State) : State :=
  if kind = 1 || kind = 2 then passiveOpen kind pin s
  else if kind = 3 then backupDirect pin s
  else if kind = 5 then outcome 5 255 .badTime 0 false s
  else pollDone (coilCheck (pin - 16) s)

/-- A sequence or round occupies the engine. -/
def accBusy (s : State) : Bool := s.acc.seqn.isSome || s.acc.round.isSome

/-- A trigger arrives: it runs, waits, or is ignored as an edge of the running sequence's pin (R386). -/
def trigger (kind pin : Nat) (s : State) : State :=
  if !accBusy s && s.acc.queue = [] then triggerRun kind pin s
  else
    let same : Bool := match s.acc.seqn with | some q => q.pin = pin && pin < 8 | none => false
    if same then s
    else if kind = 2 || kind = 3 then
      let l := s.acc.queue.filter (fun x => x.1 = 2 || x.1 = 3)
      { s with acc.queue := l ++ [(kind, pin)] ++ s.acc.queue.filter (fun x => !(x.1 = 2 || x.1 = 3)) }
    else { s with acc.queue := s.acc.queue ++ [(kind, pin)] }

/-- The approach frame has ended at `fin` (R385). -/
def approachTrigger (fin : BitVec 48) (s : State) : State :=
  if !accBusy s && s.acc.queue = [] then approachOpen fin s else trigger 5 8 s

/-- A debounced edge on a pin with a role (R377, R385). -/
def pinTrigger (pin : Nat) (s : State) : State :=
  let p := s.acc.profile
  if p = [] then s
  else
    let role := prRole (pfRec p pin)
    let en := pfEnable p
    if role = 1 then
      if bit en 1 then trigger 2 pin s else if bit en 2 then trigger 3 pin s else s
    else if role = 2 || role = 3 then (if bit en 0 then trigger 1 pin s else s)
    else s

/-- A trigger that waited starts once no sequence runs (R386). -/
def queuedTrigger (s : State) : State :=
  match s.acc.queue with
  | [] => s
  | (k, p) :: r => if accBusy s then s else triggerRun k p { s with acc.queue := r }

def execQueuedTriggerStart (s : State) : Host.Outcome State Fault Refusal := done s (queuedTrigger s)

/-! ### Results delivered to the access engine (R196, R336) -/

/-- L and payload of a receive window's result (R340). -/
def rxTel (res : Bytes) : Bytes := sl res 20 (u8 res 16)

/-- The result of a run-time entry of the open sequence. -/
def seqResult (e : Entry) (st : Status) (res : Bytes) (s : State) : State :=
  let code := e.ref % 64
  match s.acc.seqn with
  | none => s
  | some q =>
    if e.ref / 64 ≠ q.exch then s
    else if code = 1 then wakeDone st (endTime s e.endAt) s
    else if 10 ≤ code && code ≤ 13 then (if q.stage == .id then idDone (code - 10) st (rxTel res) s else s)
    else if code = 20 then (if st.good then s else seqEnd st false false s)
    else if code = 21 then (if q.stage == .resp then respDone st (rxTel res) s else s)
    else if code = 22 then scanDone st res e s
    else if code = 23 then reportDone st (rxTel res) s
    else if code = 24 then (if q.stage == .ranging then rangeDone st res s else s)
    else s

/-- An entry's result reaches the access engine. -/
def accResult (e : Entry) (st : Status) (res : Bytes) (s : State) : State :=
  match e.owner with
  | .access => if e.ref % 64 = 30 then pollDone (roundResult (e.ref / 64) st res s) else seqResult e st res s
  | .follow _ => if st.good then remoteIn (rxTel res) s else s
  | .settings =>
    if e.kind = 1 && st.good && s.acc.profile != [] && bit (pfEnable s.acc.profile) 4
        && prRole (pfRec s.acc.profile 8) = 4 && prFrame (pfRec s.acc.profile 8) = e.ref then
      approachTrigger (endTime s e.endAt) s
    else s
  | _ => s

/-- Telegrams that waited for the VHOLD measurement (R104). -/
def remotesResume (s : State) : State :=
  if s.acc.remotes = [] || (!rngServes s && !rngFails s) then s
  else s.acc.remotes.foldl (fun s t => remoteIn t s) { s with acc.remotes := [] }

/-- Once the generator serves again or has failed: waiting telegrams and IDs are taken up (R38, R468). -/
def accResume (s : State) : State :=
  let s := if rngServes s || rngFails s then
      s.acc.remotes.foldl (fun s t => remoteIn t s) { s with acc.remotes := [] }
    else s
  match s.acc.seqn with
  | some q =>
    if q.stage == .nonce then rangingStart s
    else if q.stage == .id && q.ids != [] && !(q.repeated && q.closed < 4) then idNext s else s
  | none => s

end Sys2Proof.Machine
end

