-- ==== Sys2Proof/Machine/Results.lean ====
section
/-! DEFINITION. Result bytes of LF frames (R278) and receive windows (R340), with what a demodulator and a window search have
found. -/

namespace Sys2Proof.Machine

/-! ### A frame's reply and result (R267 to R278) -/

/-- What the demodulator has decoded when it closes. -/
structure Reply where
  /-- status of R273 before LATE -/
  st : Status
  /-- EXT_LIMIT -/
  extLimit : Bool
  /-- EXT symbols received -/
  ext : Nat
  /-- unit of the header -/
  header : Option Nat
  /-- sum of the header's three on units -/
  m : Nat
  /-- data bits, collided ones as 0, first received first -/
  bits : List Bool
  /-- index of the first collided bit, and how many -/
  coll : Option Nat
  /-- collided bits -/
  colls : Nat
  /-- unit at whose start the demodulator closes -/
  close : Nat
deriving DecidableEq, Repr

/-- No data: a window or symbol that fails. -/
def Reply.none_ (st : Status) (ext close : Nat) : Reply :=
  { st := st, extLimit := false, ext := ext, header := none, m := 0, bits := [], coll := none, colls := 0, close := close }

/-- Bytes of data bits, most significant bit first (R7). -/
def bitsBytes : Nat → List Bool → Bytes
  | 0, _ => []
  | n + 1, l => if l = [] then [] else
      BitVec.ofNat 8 ((l.take 8).foldl (fun a b => 2 * a + b2n b) 0 * 2 ^ (8 - min 8 l.length)) :: bitsBytes n (l.drop 8)

/-- M_h in 0.5 dB steps above 1 µA, the whole steps reached, saturating at 255. -/
def magField (m : Nat) : Nat := if m < 300 then 0 else min 255 (2 * dB m 300 / fxOne).toNat

/-- The 48-byte result (R278). -/
def frameResult (e : Entry) (sat : BitVec 16) (limited : Bool) (r : Reply) : Bytes :=
  leBytes 2 e.k ++ leBytes 2 e.dropped.toNat ++ leBytes 2 (e.sat ||| sat).toNat
    ++ leBytes 1 (b2n (e.dropped ≠ 0) + 2 * b2n limited + 4 * b2n (e.k < 1024) + 8 * b2n r.extLimit) ++ leBytes 1 r.ext
    ++ leBytes 2 (r.header.getD 0xFFFF) ++ leBytes 2 r.bits.length ++ leBytes 2 (r.coll.getD 0xFFFF)
    ++ leBytes 1 (min 255 r.colls) ++ leBytes 1 (if r.header.isSome then magField r.m else 0)
    ++ padTo 32 ((bitsBytes 64 r.bits).take (r.bits.length / 8 - 2))

/-! ### A receive window's result (R340) -/

/-- What the search of a window has found. -/
structure RxFound where
  /-- sync words accepted -/
  syncs : Nat
  /-- CRC failures -/
  crcs : Nat
  /-- length failures -/
  lens : Nat
  /-- the telegram delivered -/
  tel : Option RxTelegram
deriving DecidableEq, Repr

/-- FLAGS common to R340 and R341; SHORTENED or WINDOW_MISSED is bit 3. -/
def uhfFlags (e : Entry) (b3 b4 : Bool) : Nat := b2n e.late + 2 * (e.flags % 4) + 8 * b2n b3 + 16 * b2n b4

/-- The 276-byte result (R340). -/
def rxResult (e : Entry) (calFail : Bool) (f : RxFound) (peak : BitVec 16) : Bytes :=
  leBytes 1 (uhfFlags e (e.flags / 4 % 2 = 1) calFail) ++ leBytes 1 (min 255 f.syncs) ++ leBytes 1 (min 255 f.crcs)
    ++ leBytes 1 (min 255 f.lens)
    ++ (match f.tel with
        | some t => leBytes 2 t.rssi.toNat ++ leBytes 2 t.foff.toNat ++ leBytes 8 t.syncTime.toNat ++ [t.lenByte] ++ [0, 0, 0]
            ++ padTo 256 (t.rest.take t.lenByte.toNat)
        | none => leBytes 2 peak.toNat ++ leBytes 2 0 ++ leBytes 8 0 ++ [0, 0, 0, 0] ++ List.replicate 256 0)

/-- The last calibration of the entry's band on its transceiver failed. -/
def calFailed (s : State) (e : Entry) : Bool :=
  match bandOf (prFreq (e.profile s)) with
  | some b => (trxGet s (e.unit % 2)).fail.getLsbD b
  | none => false

end Sys2Proof.Machine
end

