-- ==== Sys2Proof/Machine/SwitchOps.lean ====
section
/-! DEFINITION. The switch's forwarding (R541 to R558): frames, classes, VLANs, addresses, policing, recovery, queues, gates,
and the permit stream. -/

namespace Sys2Proof.Machine

/-! ### Frames -/

/-- FCS of a frame, in transmission order. -/
def fcs (b : Bytes) : Bytes := leBytes 4 (crc32 b)

/-- Cells of 256 bytes that a frame takes (R542). -/
def cells (b : Bytes) : Nat := (b.length + 4 + 255) / 256

def frDa (b : Bytes) : Bytes := b.take 6
def frSa (b : Bytes) : Bytes := sl b 6 6
def frTagged (b : Bytes) : Bool := sl b 12 2 = [0x81, 0]
def frVid (b : Bytes) : Nat := if frTagged b then beNat (sl b 14 2) % 4096 else 0
def frPcp (b : Bytes) : Nat := beNat (sl b 14 2) / 8192

/-- The frame without its VLAN tag. -/
def frUntag (b : Bytes) : Bytes := if frTagged b then b.take 12 ++ b.drop 16 else b
/-- The frame with a VLAN tag. -/
def frTag (b : Bytes) (pcp vid : Nat) : Bytes :=
  let u := frUntag b
  u.take 12 ++ [0x81, 0] ++ beBytes 2 (pcp * 8192 + vid) ++ u.drop 12

/-- Group address. -/
def macGroup (m : Bytes) : Bool := bit (u8 m 0) 0

/-- 01-80-C2-00-00-00 to 01-80-C2-00-00-0F: never forwarded (R547). -/
def macReserved (m : Bytes) : Bool := m.take 5 = [1, 0x80, 0xC2, 0, 0] && u8 m 5 < 16

/-! ### Section records -/

/-- VLAN record of a VID: MEMBER and UNTAG masks. -/
def vlanOf (b : Bytes) (vid : Nat) : Option (Nat × Nat) :=
  (((List.range (netDir b 2).2).map (netRec b 2 8)).find? (fun r => u16 r 0 = vid)).map (fun r => (u16 r 2, u16 r 4))

/-- PVID of an ingress port; P8 takes the VLAN of DIAG. -/
def pvidOf (s : State) (p : Nat) : Nat := if p < 8 then u16 (nwPort (netSec s) p) 0 else dgVid (diagSec s)

/-- Class of a PCP at an ingress port (R543). -/
def classOf (b : Bytes) (p pcp : Nat) : Nat :=
  if p < 8 then leN (nwPort b p) 2 3 / 8 ^ pcp % 8 else if pcp = 0 then 1 else if pcp = 1 then 0 else pcp

def defPcp (b : Bytes) (p : Nat) : Nat := if p < 8 then u8 (nwPort b p) 5 % 8 else 0

/-- Ports of a static entry for an address and VID (R548). -/
def staticOf (b : Bytes) (mac : Bytes) (vid : Nat) : Option Nat :=
  (((List.range (netDir b 3).2).map (netRec b 3 12)).find? (fun r => r.take 6 = mac && u16 r 6 = vid)).map (fun r => u16 r 8)

/-- Set of an address (R548). -/
def addrSet (mac : Bytes) (vid : Nat) : Nat := crc16 (mac ++ beBytes 2 vid) % 1024

def macBits (m : Bytes) : BitVec 48 := BitVec.ofNat 48 (beNat m)

/-! ### Rates and gates -/

/-- Mbit/s of a RATE code (R569). -/
def rateMbps (c : Nat) : Nat := if c = 1 then 10 else if c = 2 then 100 else if c = 3 then 1000 else if c = 4 then 2500 else 0

/-- Time of a frame from preamble to FCS, ns. -/
def frameNs (b : Bytes) (rate : Nat) : Nat := if rateMbps rate = 0 then 0 else (8 + b.length + 4) * 8000 / rateMbps rate

/-- Gate entries of a list: gate states and interval. -/
def gateList (b : Bytes) (first n : Nat) : List (Nat × Nat) :=
  (List.range n).map (fun i => let w := u32 (netRec b 1 4 (first + i)) 0; (w % 256, w / 256))

/-- The list turned so that it begins at a position of the cycle; the first interval is what remains of it. -/
def gateFrom : List (Nat × Nat) → Nat → List (Nat × Nat) → List (Nat × Nat)
  | [], _, done => done
  | (g, t) :: r, pos, done =>
    if pos < t then (g, t - pos) :: r ++ done ++ [(g, pos)] else gateFrom r (pos - t) (done ++ [(g, t)])

/-- Position in a cycle on the grid of R201. -/
def cyclePos (s : State) (base cycle : Nat) : Nat := if cycle = 0 then 0 else (fullNs s + cycle - base % cycle) % cycle

/-- Sum of the leading open intervals. -/
def openRun (bitNo : Nat) : List (Nat × Nat) → Nat
  | [] => 0
  | (g, t) :: r => if g.testBit bitNo then t + openRun bitNo r else 0

/-- Longest open run of a doubled list. -/
def longestRun (bitNo : Nat) : List (Nat × Nat) → Nat
  | [] => 0
  | x :: r => max (openRun bitNo (x :: r)) (longestRun bitNo r)

/-- The port follows a gate list. -/
def portGated (b : Bytes) (p : Nat) : Bool := p < 6 && bit (u8 (nwPort b p) 5) 4

def portGateList (b : Bytes) (p : Nat) : List (Nat × Nat) := gateList b (u16 (nwPort b p) 6) (u16 (nwPort b p) 8)

/-- A class may start a frame of `n` ns now (R545). -/
def gateLets (s : State) (p cls n : Nat) : Bool :=
  let b := netSec s
  if !portGated b p then true
  else
    let l := portGateList b p
    l.all (fun x => x.1.testBit cls)
      || n ≤ openRun cls (gateFrom l (cyclePos s (u32 (nwPort b p) 16) (u32 (nwPort b p) 12)) [])

/-- A frame never fits its class's open time (R545). -/
def gateNever (s : State) (p cls n : Nat) : Bool :=
  let b := netSec s
  portGated b p && !(portGateList b p).all (fun x => x.1.testBit cls)
    && n > longestRun cls (portGateList b p ++ portGateList b p)

/-- Stream gate g is open (R552). -/
def streamGateOpen (s : State) (g : Nat) : Bool :=
  let b := netSec s
  let r := netRec b 5 16 g
  match gateFrom (gateList b (u16 r 0) (u8 r 2)) (cyclePos s (u32 r 8) (u32 r 4)) [] with
  | (x, _) :: _ => x.testBit 0
  | [] => true

/-! ### Queues (R542) -/

def queueCells (l : List Frame) : Nat := (l.map (fun f => cells f.bytes)).sum

/-- Reserve of a queue; class 7 of a permit egress port has at least four cells. -/
def reserveOf (b : Bytes) (p cls : Nat) : Nat :=
  let r := if p < 8 then u8 (nwPort b p) (20 + cls) else 0
  if cls = 7 && (nwPermitPorts b).testBit p then max r 4 else r

/-- Cells of the shared pool in use, and its size. -/
def poolUse (s : State) : Nat :=
  ((List.range 9).map (fun p => ((List.range 8).map (fun c =>
    queueCells (vget (portGet s p).queues c []) - reserveOf (netSec s) p c)).sum)).sum

def poolSize (b : Bytes) : Nat :=
  16384 - ((List.range 9).map (fun p => ((List.range 8).map (reserveOf b p)).sum)).sum

/-- A frame is admitted to a queue. -/
def admits (s : State) (p cls : Nat) (f : Bytes) : Bool :=
  let u := queueCells (vget (portGet s p).queues cls [])
  let r := reserveOf (netSec s) p cls
  let n := u + cells f
  n ≤ r || (poolUse s + (n - r) - (u - r) ≤ poolSize (netSec s) && n ≤ 4096)

/-- The frame at the head of a queue is late when its launch time lies in the past (R187). -/
def headLate (now : BitVec 48) : List Frame → List Frame
  | [] => []
  | f :: r => (match f.launch with
      | some t => { f with late := f.late || decide (s48 t now < 0) }
      | none => f) :: r

/-- Put a frame into an egress queue, or drop it (R540, R542). -/
def enqueue (p cls : Nat) (f : Frame) (s : State) : State :=
  let s := if (portGet s p).rate = 0 then portMod p (fun x => { x with dropDown := sat32 x.dropDown 1 }) s
    else if admits s p cls f.bytes then portMod p (fun x => { x with
      queues := vmod x.queues cls (fun l => if l = [] then headLate (now48 s) [f] else l ++ [f]) }) s
    else portMod p (fun x => { x with dropBuf := sat32 x.dropBuf 1 }) s
  if f.permit && !((vget (portGet s p).queues cls []).any (fun g => g.permit && g.entry == f.entry)) then evSw 5 s else s

/-- A frame leaves a port on the wire. -/
def sendOut (p : Nat) (f : Bytes) (s : State) : State :=
  portMod p (fun x => { x with tx := sat32 x.tx 1, lastTx := f ++ fcs f }) s

/-! ### Policing and recovery (R550 to R552, R555) -/

def flowGet (s : State) (i : Nat) : Flow :=
  (s.sw.flows.find? (fun f => f.idx = i)).getD { idx := i, pass := 0, drop := 0, blocked := false }
def flowPut (f : Flow) (s : State) : State :=
  { s with sw.flows := s.sw.flows.filter (fun x => !(x.idx = f.idx)) ++ [f] }

/-- First matching flow entry (R550). -/
def flowMatch (b : Bytes) (p : Nat) (da sa : Bytes) (vid : Nat) : Option (Nat × Bytes) :=
  ((List.range (netDir b 4).2).map (fun i => (i, netRec b 4 12 i))).find? (fun x =>
    let r := x.2
    (u8 r 0).testBit p && (sl r 2 6 = (if bit (u8 r 1) 0 then sa else da)) && (u16 r 8 % 4096 = 0 || u16 r 8 % 4096 = vid))

/-- One frame through a token bucket: rates in bit/s, bursts in bytes; true when it is not red (R552). -/
def meterRun (idx cir eir cbs ebs len : Nat) (s : State) : Bool × State :=
  let m := (s.sw.meters.find? (fun x => x.idx = idx)).getD { idx := idx, c := cbs * 10 ^ 9, e := ebs * 10 ^ 9, at_ := s.elapsed }
  let dt := s.elapsed - m.at_
  let c := min (cbs * 10 ^ 9) (m.c + cir * dt / 512)
  let e := min (ebs * 10 ^ 9) (m.e + eir * dt / 512)
  let n := len * 10 ^ 9
  let r : Bool × Nat × Nat := if n ≤ c then (true, c - n, e) else if n ≤ e then (true, c, e - n) else (false, c, e)
  (r.1, { s with sw.meters := s.sw.meters.filter (fun x => !(x.idx = idx)) ++ [{ idx := idx, c := r.2.1, e := r.2.2, at_ := s.elapsed }] })

/-- The vector recovery algorithm (R555): pass, and the function's new state. -/
def frerStep (hist : Nat) (seq now : Nat) (f : Frer) : Bool × Frer :=
  match f.recv with
  | none => (true, { f with recv := some seq, hist := 1, passedAt := now })
  | some r =>
    let d := sgn 16 (toU 16 ((seq : Int) - r))
    if d ≥ hist || d ≤ -(hist : Int) then (false, { f with discarded := f.discarded + 1 })
    else if d ≤ 0 then
      if f.hist.testBit (-d).toNat then (false, { f with discarded := f.discarded + 1 })
      else (true, { f with hist := f.hist ||| 2 ^ (-d).toNat, passedAt := now })
    else (true, { f with recv := some seq, hist := (f.hist * 2 ^ d.toNat + 1) % 2 ^ hist, passedAt := now })

/-- Recovery function of a flow. -/
def frerOf (b : Bytes) (flow : Nat) : Option (Nat × Bytes) :=
  ((List.range (netDir b 7).2).map (fun i => (i, netRec b 7 8 i))).find? (fun x => u16 x.2 0 = flow)

/-- Offset of an R-TAG, after the VLAN tag when there is one. -/
def rtagAt (f : Bytes) : Nat := if frTagged f then 16 else 12

/-- The recovery function's verdict: the frame without its R-TAG, or none. -/
def frerRun (flow : Nat) (f : Bytes) (s : State) : Option Bytes × State :=
  match frerOf (netSec s) flow with
  | none => (some f, s)
  | some (i, r) =>
    let o := rtagAt f
    if sl f o 2 ≠ [0xF1, 0xC1] then
      (none, { s with sw.frer := vmod s.sw.frer i (fun x => { x with discarded := x.discarded + 1 }) })
    else
      let x := frerStep (u8 r 2) (beNat (sl f (o + 4) 2)) s.elapsed (vget s.sw.frer i Frer.reset)
      (if x.1 then some (f.take o ++ f.drop (o + 6)) else none, { s with sw.frer := vset s.sw.frer i x.2 })

/-- Policing of a frame (R551), then its recovery (R555): dropped, or its class and bytes. A frame that a recovery function discards
has passed the entry's checks. DEDUCED, log 99. -/
def police (p cls vid : Nat) (f : Bytes) (s : State) : Option (Nat × Bytes) × State :=
  if p ≥ 8 then (some (cls, f), s)
  else match flowMatch (netSec s) p (frDa f) (frSa f) vid with
    | none => (some (cls, f), s)
    | some (i, r) =>
      let fl := flowGet s i
      let dropIt := fun (s : State) => (none, flowPut { flowGet s i with drop := min (2 ^ 31 - 1) ((flowGet s i).drop + 1) } s)
      let sdu := u16 r 8 / 4096
      let past := sdu ≠ 0 && (frUntag f).length - 14 > 100 * sdu
      if fl.blocked || bit (u8 r 1) 1 then dropIt s
      else if past then
        if bit (u8 r 1) 2 then dropIt (evSw 2 (flowPut { fl with blocked := true } s)) else dropIt s
      else if bit (u8 r 10) 6 && !streamGateOpen s (u8 r 10 % 64) then dropIt s
      else
        let mr := netRec (netSec s) 6 12 (u8 r 11)
        let m : Bool × State := if bit (u8 r 10) 7 then
            meterRun (u8 r 11) (u32 mr 0) (u32 mr 4) (u16 mr 8) (u16 mr 10) (f.length + 4) s else (true, s)
        if !m.1 then dropIt m.2
        else
          let x := frerRun i f m.2
          (x.1.map (fun g => (if bit (u8 r 1) 3 then u8 r 1 / 16 % 8 else cls, g)),
            flowPut { flowGet x.2 i with pass := sat32 (flowGet x.2 i).pass 1 } x.2)

/-! ### Learning (R548) -/

def learn (p vid : Nat) (sa : Bytes) (s : State) : State :=
  let b := netSec s
  if p ≥ 8 || !bit (u8 (nwPort b p) 5) 3 || macGroup sa || (staticOf b sa vid).isSome then s
  else
    let m := macBits sa
    let v := BitVec.ofNat 12 vid
    if s.sw.learnt.any (fun l => l.mac = m && l.vid = v) then
      { s with sw.learnt := s.sw.learnt.map (fun l => if l.mac = m && l.vid = v then { l with port := p, seen := s.elapsed } else l) }
    else
      let set := addrSet sa vid
      let stat := ((List.range (netDir b 3).2).filter (fun i =>
        let r := netRec b 3 12 i; addrSet (r.take 6) (u16 r 6) = set)).length
      let dyn := (s.sw.learnt.filter (fun l => addrSet (beBytes 6 l.mac.toNat) l.vid.toNat = set)).length
      if stat + dyn ≥ 4 then evSw 1 s
      else { s with sw.learnt := s.sw.learnt ++ [{ mac := m, vid := v, port := p, seen := s.elapsed }] }

/-! ### Forwarding (R547, R549, R557) -/

/-- Deliver a frame to the pairs through P8: classes 0 to 5 pass its meter (R557). -/
def toPairs (cls : Nat) (f : Bytes) (s : State) : Bool × State :=
  let m : Bool × State := if cls ≤ 5 then meterRun 256 (nwP8Rate (netSec s) * 10 ^ 6) 0 16384 0 (f.length + 4) s else (true, s)
  if m.1 then
    (true, portMod 8 (fun x => { x with tx := sat32 x.tx 1, lastTx := f ++ fcs f })
      { m.2 with sw.toPairs := [f], pwr.idleSince := m.2.elapsed })
  else (false, portMod 8 (fun x => { x with dropFilter := sat32 x.dropFilter 1 }) m.2)

/-- One egress port of a forwarded frame. -/
def egress (p cls pcp vid untag : Nat) (f : Bytes) (s : State) : State :=
  let g := if untag.testBit p then frUntag f else frTag f pcp vid
  if p = 8 then (toPairs cls g s).2
  else if (portGet s p).rate = 0 then portMod p (fun x => { x with dropDown := sat32 x.dropDown 1 }) s
  else enqueue p cls { bytes := g, launch := none, entry := none, permit := false, late := false } s

/-- Ports a frame goes to (R549, steps 3 to 5), as a mask without its ingress port: P8 for `DEV_MAC`, otherwise within its VLAN.
DEDUCED, log 99. -/
def egressMask (s : State) (p vid member : Nat) (da : Bytes) : Nat :=
  let b := netSec s
  let m := BitVec.ofNat 9 member &&& ~~~(onBit 9 p)
  if da = nwDevMac b then (if p = 8 then 0 else 256)
  else match staticOf b da vid with
    | some ports => (m &&& BitVec.ofNat 9 ports).toNat
    | none => match s.sw.learnt.find? (fun l => l.mac = macBits da && l.vid = BitVec.ofNat 12 vid) with
      | some l => (m &&& onBit 9 l.port).toNat
      | none => m.toNat

/-- The switch is powered: Run outside ride-through, after READY. -/
def swOn (s : State) : Bool := s.pwr.st == .run && s.sup.region != .ride && s.boot.ready

def dropFilter (p : Nat) (s : State) : State := portMod p (fun x => { x with dropFilter := sat32 x.dropFilter 1 }) s

/-- A frame (FCS included) arrives on a port and is forwarded or dropped (R541 to R549). -/
def frameIn (p : Nat) (raw : Bytes) (s : State) : State :=
  let b := netSec s
  if !swOn s || (p < 8 && (portGet s p).rate = 0) then s
  else
    let f := raw.take (raw.length - 4)
    let s := portMod p (fun x => { x with rx := sat32 x.rx 1 }) s
    if raw.length < 4 || fcs f ≠ raw.drop (raw.length - 4) then portMod p (fun x => { x with fcsErr := sat32 x.fcsErr 1 }) s
    else if raw.length < 64 || raw.length > 1522 then dropFilter p s
    else if macReserved (frDa f) then s
    else
      let pcp := if frTagged f then frPcp f else defPcp b p
      let vid := if frVid f = 0 then pvidOf s p else frVid f
      let pcp := if frVid f = 0 then defPcp b p else pcp
      match vlanOf b vid with
      | none => dropFilter p s
      | some (member, untag) =>
        if !member.testBit p then dropFilter p s
        else
          let s := learn p vid (frSa f) s
          let x := police p (classOf b p pcp) vid f s
          match x.1 with
          | none => x.2
          | some (cls, g) =>
            let mask := egressMask x.2 p vid member (frDa g)
            (List.range 9).foldl (fun s q => if mask.testBit q then egress q cls pcp vid untag g s else s) x.2

/-! ### Queued frames -/

/-- Remove the first frame of a queue that `f` selects; the next one comes to the head. -/
def queueTake (p cls : Nat) (f : Frame → Bool) (s : State) : State :=
  portMod p (fun x => { x with queues := vmod x.queues cls (fun l => headLate (now48 s) (l.eraseP f)) }) s

/-- A higher class has a frame that may start now. -/
def higherReady (s : State) (p cls : Nat) : Bool :=
  (List.range 8).any (fun c => c > cls && match vget (portGet s p).queues c [] with
    | f :: _ => f.launch.isNone && gateLets s p c (frameNs f.bytes (portGet s p).rate)
    | [] => false)

/-- FRAME_TRANSMIT (R543, R545): the head of a class starts when its gate allows it and no higher class may; a head too long
for its class is dropped. -/
def frameTransmit (p cls : Nat) (s : State) : State :=
  if !swOn s || (portGet s p).rate = 0 then s
  else match vget (portGet s p).queues cls [] with
    | [] => s
    | f :: _ =>
      let n := frameNs f.bytes (portGet s p).rate
      if f.launch.isSome then s
      else if gateNever s p cls n then
        portMod p (fun x => { x with dropGate := sat32 x.dropGate 1 }) (queueTake p cls (fun _ => true) s)
      else if !gateLets s p cls n || higherReady s p cls then s
      else sendOut p f.bytes (queueTake p cls (fun _ => true) s)

/-! ### Frame-launch entries (R553, R554, R558, R559) -/

/-- The entry carries a permit token. -/
def sendPermit (e : Entry) : Bool := e.owner == .token || bit (u8 e.block 3) 0

/-- EtherType, subtype and token of a permit entry. -/
def permitBody (e : Entry) : Bytes := if e.owner == .token then [0x88, 0xB5, 0x4B, 0x50] ++ e.block else sl e.block 8 36

/-- A permit copy on a port (R553). -/
def permitFrame (b : Bytes) (body : Bytes) (p : Nat) : Bytes :=
  let tag := (nwPermitRtag b).testBit p
  padTo 60 (nwPermitDa b ++ nwDevMac b ++ [0x81, 0] ++ beBytes 2 (7 * 8192 + nwPermitVid b)
    ++ (if tag then [0xF1, 0xC1, 0, 0] ++ sl body 14 2 else []) ++ body)

/-- Queue the entry's frame, or a permit's copies, with the launch time. -/
def launchQueue (i : Nat) (e : Entry) (s : State) : State :=
  let b := netSec s
  if sendPermit e then
    (List.range 6).foldl (fun s p =>
      if (nwPermitPorts b).testBit p then
        enqueue p 7 { bytes := permitFrame b (permitBody e) p, launch := some e.due, entry := some i, permit := true, late := false } s
      else s) s
  else
    enqueue (e.unit % 8) (u8 e.block 2 % 8)
      { bytes := sl e.block 8 (u16 e.block 0), launch := some e.due, entry := some i, permit := false, late := false } s

/-- Ports that still hold a copy of the entry. -/
def launchPorts (s : State) (i : Nat) : List Nat :=
  (List.range 8).filter (fun p => (portFrames (portGet s p)).any (fun f => f.entry == some i))

/-- Send the copy on one port when it is at the head of its queue and its gate allows: whether it has left, and whether it was late.
A frame too long for its gate is dropped (R545). DEDUCED, log 65. -/
def launchOne (i p : Nat) (s : State) : Bool × Bool × State :=
  let head (c : Nat) : Option Frame := (vget (portGet s p).queues c []).head?.filter (fun f => f.entry == some i)
  match (List.range 8).find? (fun c => (head c).isSome) with
  | none => (false, false, s)
  | some c =>
    match head c with
    | none => (false, false, s)
    | some f =>
      let n := frameNs f.bytes (portGet s p).rate
      if gateNever s p c n then
        let t := portMod p (fun x => { x with dropGate := sat32 x.dropGate 1 }) (queueTake p c (fun _ => true) s)
        (false, false, if f.permit then evSw 5 t else t)
      else if gateLets s p c n then (true, f.late, sendOut p f.bytes (queueTake p c (fun _ => true) s))
      else (false, false, s)

/-- Queue the token on one CAN controller: one not yet started is aborted; in bus-off it is discarded (R562, R563). -/
def canQueue (n : Nat) (tok : Bytes) (s : State) : State :=
  let c := vget s.can n Can.reset
  if !c.on || !bit (u8 (nwCan (netSec s) n) 1) 0 then s
  else
    let late := fun (c : Can) => { c with late := satInc 65535 c.late }
    { s with can := vmod s.can n (fun c =>
        if c.busOff then late c
        else { (if c.token.isSome then late c else c) with token := some tok }) }

/-- FRAME_LAUNCH (R186, R554): copies whose gate allows leave; the entry ends when none is left. It is late under R187 alone. -/
def frameLaunch (i : Nat) (s : State) : State :=
  match ttGet s i with
  | none => s
  | some e =>
    if e.kind ≠ 10 || e.st != .preparing && e.st != .running || s48 e.due (now48 s) > 0 then s
    else
      let b := netSec s
      let first := e.st == .preparing
      let e1 := if first then { markStart s e with pats := e.pats, late := false } else e
      let s := if first && sendPermit e && swOn s then
          let s := if (nwCanPermit b).testBit 0 then canQueue 0 ((permitBody e).drop 4) s else s
          if (nwCanPermit b).testBit 1 then canQueue 1 ((permitBody e).drop 4) s else s
        else s
      let x := (launchPorts s i).foldl (fun (a : Nat × Bool × State) p =>
        let y := launchOne i p a.2.2
        (if y.1 then a.1 + 1 else a.1, a.2.1 || y.2.1, y.2.2)) (0, false, s)
      let e2 := { e1 with pats := e1.pats + x.1, late := e1.late || x.2.1 }
      if launchPorts x.2.2 i != [] then ttPut i (some e2) x.2.2
      else sendEnd (if e2.pats > 0 then .ok else .notReady) i (ttPut i (some e2) x.2.2)

/-- Take an entry's frames out of the queues. -/
def launchDrop (i : Nat) (s : State) : State :=
  { s with sw.ports := s.sw.ports.map (fun p => { p with
      queues := p.queues.map (fun l => headLate (now48 s) (l.filter (fun f => !(f.entry == some i)))) }) }

/-- A step has carried the clock past launch times (R187). -/
def launchStep (s : State) : State :=
  { s with sw.ports := s.sw.ports.map (fun p => { p with queues := p.queues.map (headLate (now48 s)) }) }

end Sys2Proof.Machine
end

