-- ==== Sys2Proof/Machine/Burin.lean ====
section
/-! DEFINITION. The Burin timetable's steps (R203 to R218): preparation, due instants, waiting, the start of every kind of
action, and the delivery of results. -/

namespace Sys2Proof.Machine

/-! ### What holds a preparation or a start -/

/-- While a sequence runs, other pages' entries and settings entries do not prepare on its resources (R386). -/
def seqBlocks (s : State) (e : Entry) : Bool :=
  s.acc.seqn.isSome && !e.ofCpg0 && e.claims.any (· ≤ 3)

/-- An entry may begin its preparation. -/
def mayPrepare (s : State) (i : Nat) (e : Entry) : Bool :=
  s.tt.exec && e.st == .pending && !e.excluded s && decide (s48 e.due (now48 s) ≤ (lead s e : Int))
    && (skipStatus s e).isNone && !busy s i e && !keptBack s i e && !seqBlocks s e

/-! ### Results and the end of an action (R315) -/

/-- An entry holds the transceiver, waits for it, or has had its lead begin, so that its preparation begins now. -/
def trxWanted (s : State) (n : Nat) : Bool :=
  (ttAll s).any (fun x => x.2.trxs.contains n
    && ((x.2.active && !x.2.released s) || x.2.st == .waiting || mayPrepare s x.1 x.2))

/-- Free a transceiver: it stays as it is for an entry whose preparation begins now; else Standby, and in Heath its domain goes
off (R143, R315). -/
def trxFree (n : Nat) (s : State) : State :=
  if trxWanted s n then s else if s.pwr.st == .heath then trxDown n s else trxRest n s

/-- An occurrence's result goes to its job, or to the access engine (R196, R200, R336). -/
def entryDeliver (e : Entry) (st : Status) (res : Bytes) (s : State) : State :=
  match e.owner with
  | .job t => opEnd t st e.late res s
  | .token => s
  | _ => accResult e st res s

/-- LOC_RANGE reports the latest result of a ranging exchange of CPG0, of any status (R375). -/
def rangeNote (e : Entry) (res : Bytes) (s : State) : State :=
  if e.kind = 6 && e.page = 0 && res.length = 32 then
    { s with loc.range := BitVec.ofNat 32 (u16 res 0 + 65536 * u16 res 2) }
  else s

/-- An occurrence ends with its action's status: LATE in place of OK (R205); the entry moves on, its transceivers are freed, and
the result is delivered. -/
def entryEnd (i : Nat) (e : Entry) (st : Status) (res : Bytes) (s : State) : State :=
  entryDeliver e (lateStatus e st) res (rangeNote e res (e.trxs.foldl (fun s n => trxFree n s) (occEnd i e s)))

/-- An occurrence completes without starting (R218): at its due instant, not late. -/
def entrySkip (i : Nat) (e : Entry) (st : Status) (s : State) : State :=
  entryDeliver { e with late := false } st []
    (e.trxs.foldl (fun s n => trxFree n s) (occSkip i e (if e.kind = 10 then launchDrop i s else s)))

/-- A calibration in progress delays the action (R319, R323). -/
def calHolds (s : State) (e : Entry) : Bool := e.trxs.any (fun n => (trxGet s n).cal.isSome)

/-- Frequency of a UHF action: the profile's, or that of the ranging frames for a ranging exchange. -/
def uhfFreq (s : State) (e : Entry) : Nat :=
  if e.kind = 6 then 1000000 * rgCtrl (rangingSec s) else prFreq (e.profile s)

/-! ### Preparation (R203, R316, R319) -/

/-- Sleep is left through Standby (R314). -/
def trxWake (t : Trx) : Trx := if t.st == .sleep then { t with st := .standby, lock := none } else t

/-- A transceiver prepares, through Standby and Synth: a calibration due for the band runs first; then it locks on the action's
channel. One whose port is not fitted in the band is absent (R61, R329). -/
def trxPrepare (f : Nat) (n : Nat) (s : State) : State :=
  let b := (bandOf f).getD 4
  if !fitted s n b then s
  else trxMod n (fun t =>
    let due := t.due.getLsbD b && t.cal.isNone
    { trxWake t with st := .synth, lock := some (b, f), retried := false, sleepAt := none,
                     cal := if due then some (b, s.xo + tUs 400) else t.cal }) s

/-- Some transceiver of the entry has a calibration due for the band. -/
def calDue (s : State) (e : Entry) : Bool :=
  e.trxs.any (fun n => match bandOf (uhfFreq s e) with | some b => (trxGet s n).due.getLsbD b | none => false)

/-- What preparation does for each kind. -/
def prepare (i : Nat) (e : Entry) (s : State) : State :=
  let s := heathEvent 8 s
  if e.isLf then (if lfDueSoon s then vdrvStart s else s)
  else if e.kind = 4 || e.kind = 5 || e.kind = 6 then
    let c := calDue s e
    let s := e.trxs.foldl (fun s n => trxPrepare (uhfFreq s e) n s) s
    ttMod i (fun x => { x with flags := if c then 1 else 0 }) s
  else if e.kind = 10 then launchQueue i e s
  else s

/-- ENTRY_PREPARATION: the entry claims its resources. -/
def entryPreparation (i : Nat) (s : State) : State :=
  match ttGet s i with
  | none => s
  | some e => if mayPrepare s i e then prepare i e (ttPut i (some { e with st := .preparing, claim := true }) s) else s

def execEntryPreparation (entry : Fin 256) (s : State) : Host.Outcome State Fault Refusal :=
  done s (entryPreparation entry.val s)

/-! ### LF actions start (R230 to R234, R245, R251, R252) -/

/-- The currents a drive puts on the air (R231, R232). -/
def drivenList (s : State) (ifs : Nat) (d : Drive) : List Driven :=
  d.kept.map (fun w => { ch := w.ch, phase := phaseOf s w, ua := cur ifs d.k w * 1000 / (1024 * 1023) })

/-- Drive the kept words in a mode; every other channel is OFF (R228, R229). -/
def driveOn (m : ChMode) (ifs : Nat) (d : Drive) (s : State) : State :=
  lfModes (fun n => if d.kept.any (fun w => w.ch = n) then m else .off) { s with lf.drive := drivenList s ifs d }

/-- Start of an action of `n` carrier periods with k and the headroom of its channels. -/
def lfGo (i : Nat) (e : Entry) (m : ChMode) (ifs : Nat) (d : Drive) (n : Nat) (s : State) : State :=
  let sat := headroomSat s ifs d
  noteSat sat (driveOn m ifs d (ttPut i (some { e with
    k := d.k, dropped := BitVec.ofNat 16 d.dropped, sat := sat, endAt := s.xo + tNs (periodsNs s n) }) s))

/-- An LF action that drives nothing ends at once with CHANNEL_FAULT: every channel is OFF, and its faulted channels are to be
retested (R229, R251, R255). -/
def lfRefuse (i : Nat) (e : Entry) (named : Nat) (res : Bytes) (s : State) : State :=
  entryEnd i e .channelFault res (lfActionEnd (lfOff (markRetests named s)))

/-- The channels of an action, mapped and in use: none when nothing is mapped (R238). -/
def nothingMapped (s : State) : Bool := s.set.antenna = [] || antMask s.set.antenna = 0

/-- A round's later frame that cannot start at the instant of R280, or finds the field gone: the round has ended, and the access
engine begins a new one (R281, R282). -/
def roundLate (s : State) (e : Entry) : Bool :=
  match s.acc.round with
  | some r => e.owner == .access && e.ref = 64 * r.exch + 30 && !r.first
      && !(s.lf.round && decide (s48 (now48 s) s.lf.roundDue ≤ 50))
  | none => false

/-- Start an LF frame (R262, R263): CHANNEL_FAULT under R251, otherwise k is fixed and the frame goes on the air. -/
def startFrame (i : Nat) (e0 : Entry) (s0 : State) : State :=
  let s0 := if roundLate s0 e0 then roundBroken (lfOff s0) else s0
  let s := { s0 with lf.carrier := carrierNext s0, lf.round := false }
  let e := markStart s e0
  let f := frameBlock s e
  let named := drivenWords (fbWords f)
  let d := driveOf s (fbIfs f) (fbWords f) (fbListen f)
  if nothingMapped s || (fbListen f ≠ 255 && !chInService s (fbListen f)) || (named != [] && d.kept = []) then
    lfRefuse i e (maskOf named) (frameResult { e with k := d.k, dropped := BitVec.ofNat 16 (maskOf named) } 0 false (Reply.none_ .channelFault 0 0)) s
  else
    noteK d.k (lfGo i e .downlink (fbIfs f) d (32 * frameSlots f) { s with lf.lastFrame := frameAir f, lf.pauses := framePauses f })

/-- The ping set of a ping entry. -/
def pingSet (s : State) (e : Entry) : Bytes := sl s.set.antenna (antPing s.set.antenna e.ref) 8

/-- The word a ping drives. -/
def pingWord (e : Entry) : ChWord := { ch := e.unit % 16, p := 0, a := 1023 }

/-- Start a detuning ping (R252). -/
def startPing (i : Nat) (e0 : Entry) (s0 : State) : State :=
  let s := { s0 with lf.carrier := carrierNext s0, lf.round := false }
  let e := markStart s e0
  let p := pingSet s e
  let d := driveOf s (u16 p 2) [pingWord e] 255
  if nothingMapped s || d.kept = [] then lfRefuse i e (chBit (e.unit % 16)) [] s
  else noteScaled d.k (lfGo i e .drive (u16 p 2) d (u8 p 1 + 6) s)

/-- The block of a scan entry. -/
def scanBlock (s : State) (e : Entry) : Bytes := if e.ofSettings then antScan s.set.antenna e.ref else e.block

/-- Words named by any pattern of a scan, whatever their amplitude (R247). -/
def scanNamed (b : Bytes) : List ChWord := (scanPatterns b).flatten

/-- Channels that an LF action names (R255). -/
def lfNamed (s : State) (e : Entry) : Nat :=
  let l := if e.kind = 1 then fbWords (frameBlock s e) else if e.kind = 3 then scanNamed (scanBlock s e) else [pingWord e]
  bitsOf (fun n => l.any (fun w => w.ch = n)) 16

/-- Start a Stipple scan (R245): the preamble frame first when there is one. -/
def startScan (i : Nat) (e0 : Entry) (s0 : State) : State :=
  let s := { s0 with lf.carrier := carrierNext s0, lf.round := false }
  let e := markStart s e0
  let b := scanBlock s e
  let named := scanNamed b
  if nothingMapped s || (named != [] && named.all (fun w => !chInService s w.ch)) then
    lfRefuse i e (lfNamed s e) [0, 0, 0, 0] s
  else if scanPreamble b = 0xFFFF then lfModes (fun _ => .off) (ttPut i (some { e with endAt := s.xo }) s)
  else
    let f := klFrame s.set.keylink (scanPreamble b)
    let d := driveOf s (fbIfs f) (fbWords f) (fbListen f)
    noteK d.k (lfGo i e .downlink (fbIfs f) d (32 * frameSlots f + 16) { s with lf.lastFrame := frameAir f, lf.pauses := framePauses f })

/-! ### UHF actions start (R323 to R334) -/

/-- Start a receive window: it keeps its end (R324). SHORTENED is bit 2 of the entry's flags. -/
def startRx (i : Nat) (e0 : Entry) (s : State) : State :=
  let e := markStart s e0
  let p := e.profile s
  let rest := s48 (after48 e.due (1000 * winLen p)) (now48 s)
  trxMod (e.unit % 2) (fun t => { t with st := .receive })
    (ttPut i (some { e with flags := e.flags + 4 * b2n e.late, endAt := s.xo + tNs rest.toNat }) s)

/-- A telegram as it goes on the air: length, payload, CRC-16 over both (R311). -/
def telAir (pay : Bytes) : Bytes :=
  let b := leBytes 1 pay.length ++ pay
  b ++ beBytes 2 (crc16 b)

/-- Levels of one bit: its own for NRZ, two chips for Manchester, the bit and then its complement (R312). -/
def chipsOf (p : Bytes) (b : Bool) : List Bool := if prCoding p = 1 then [b, !b] else [b]

/-- The chips of a telegram: PRE_LEN alternating bits from 1, the low SYNC_LEN bits of SYNC, then the bytes (R311, R312). -/
def telChips (p : Bytes) : List Bool :=
  ((List.range (prPre p)).map (fun i => decide (i % 2 = 0)) ++ bitsMsb (prSyncLen p) (prSync p)
    ++ (telAir (telPayload p)).flatMap (fun b => bitsMsb 8 b.toNat)).flatMap (chipsOf p)

/-- Start a transmission (R328); TX_HELD_EVT when a lock retry has made it late (R323); the wake receivers of the port are blind until 50 µs after the ramp (R333). -/
def startTx (i : Nat) (e0 : Entry) (s : State) : State :=
  let e := markStart s e0
  let p := e.profile s
  let n := telNs p (telLen p) + 8000
  let s := if e.late && e.flags % 4 ≥ 2 then evUhf 3 s else s
  trxMod (e.unit % 2) (fun t => { t with st := .transmit, blindUntil := s.xo + tNs (n + 50000) })
    { (ttPut i (some { e with endAt := s.xo + tNs n }) s) with uhf.lastTx := telAir (telPayload p), uhf.chips := telChips p }

/-- An empty ranging measurement. -/
def noRanging : RangingEnv :=
  { raA := none, raB := none, prA := none, prB := none, raSync := 0, prSync := 0, tRs := 0, tRa := 0, phaseA := [],
    phaseB := [], levelA := [], levelB := [] }

/-- Start a ranging exchange; without B4 on both ports it ends with TIMEOUT and nothing goes on the air (R329).
DEDUCED, log 70. -/
def startRanging (i : Nat) (e0 : Entry) (s : State) : State :=
  let e := markStart s e0
  if !b4Both s then entryEnd i e .timeout (rangeBytes none noRanging e.late e.start 0 0) s
  else if rangingSec s = [] then entryEnd i e .notReady (rangeBytes none noRanging e.late e.start 0 0) s
  else
    [0, 1].foldl (fun s n => trxMod n (fun t => { t with
        st := .synth, blindUntil := if n = 0 then s.xo + tUs 4250 else t.blindUntil }) s)
      { (ttPut i (some { e with endAt := s.xo + tUs 4956 }) s) with uhf.lastTx := rsFrame e.block ++ beBytes 2 (crc16 (rsFrame e.block)) }

/-- The pattern plan of a listening entry. -/
def patPlan (s : State) (e : Entry) : Bytes := if e.ref < raPats s.set.radio then raPat s.set.radio e.ref else []

/-- Start a listening window (R332). -/
def startWrx (i : Nat) (e0 : Entry) (s : State) : State :=
  let e := markStart s e0
  { (ttPut i (some { e with endAt := s.xo + tUs (patListen (patPlan s e)) }) s) with
    uhf.wrx := vmod s.uhf.wrx (e.unit % 6) (fun w => { w with on := true, entry := some i }) }

/-! ### Kinds 8 to 10 -/

/-- A job release adds credit to a gated ring, up to its depth (R196, R415). -/
def jobRelease (ring n : Nat) (s : State) : State :=
  ringMod ring (fun r => if r.gated && r.en then { r with credit := min (depthOf r.depth) (r.credit + n) } else r) s

/-- A timer-pulse occurrence arms its output with the due instant as target (R204). -/
def pulseArm (e : Entry) (s : State) : State :=
  { s with clk.tpo := vmod s.clk.tpo (e.unit % 4) (fun t =>
      { t with en := true, byEntry := true, periodic := false, late := false, err := false, width := e.ref, target := e.due }) }

/-! ### Due, waiting, start -/

/-- Start an occurrence whose resources are free. -/
def entryStart (i : Nat) (e : Entry) (s : State) : State :=
  match e.kind with
  | 1 => startFrame i e s
  | 2 => startPing i e s
  | 3 => startScan i e s
  | 4 => startRx i e s
  | 5 => startTx i e s
  | 6 => startRanging i e s
  | 7 => startWrx i e s
  | 8 => entryEnd i (markStart s e) .ok [] (jobRelease e.unit e.ref s)
  | 9 => entryEnd i (markStart s e) .ok [] (pulseArm e s)
  | _ => if e.st == .preparing then s else launchQueue i e (ttPut i (some { e with st := .preparing }) s)

/-- An entry that has come due: skipped, held, or started (R204, R207, R218). DEDUCED, log 62. -/
def entryTry (i : Nat) (e : Entry) (s : State) : State :=
  match skipStatus s e with
  | some st => entrySkip i e st s
  | none =>
    if !e.active && (busy s i e || keptBack s i e || seqBlocks s e) then evTt 3 (ttPut i (some { e with st := .waiting }) s)
    else if e.isLf && !vdrvInWindow s then
      vdrvStart (ttPut i (some { e with st := .waiting, claim := true, holdUntil := some (e.holdUntil.getD (s.elapsed + tMs 2)) }) s)
    else if calHolds s e then
      (if e.kind = 5 then evUhf 3 else id) (ttPut i (some { e with st := .waiting, claim := true }) s)
    else if e.kind = 4 || e.kind = 5 || e.kind = 6 then
      -- an occurrence that waited for its transceiver prepares first
      if e.st == .preparing || e.trxs.all (fun n => (trxGet s n).lock = some ((bandOf (uhfFreq s e)).getD 4, uhfFreq s e)) then
        entryStart i e s
      else
        let s := prepare i e (ttPut i (some { e with st := .waiting, claim := true }) s)
        match ttGet s i with
        | some e => if calHolds s e then s else entryStart i e s
        | none => s
    else entryStart i e s

/-- ENTRY_DUE (R204). -/
def entryDue (i : Nat) (s : State) : State :=
  match ttGet s i with
  | none => s
  | some e =>
    if s.tt.exec && (e.st == .pending || e.st == .preparing) && !e.excluded s && e.isDue s && s.pwr.st != .fallow then
      entryTry i e (if e.st == .pending then heathEvent 8 s else s)
    else s

def execEntryDue (entry : Fin 256) (s : State) : Host.Outcome State Fault Refusal := done s (entryDue entry.val s)

/-- ENTRY_WAIT_END: the resources of a waiting entry are free (R207). -/
def entryWaitEnd (i : Nat) (s : State) : State :=
  match ttGet s i with
  | none => s
  | some e =>
    if e.st == .waiting && !e.excluded s && (e.active || (!busy s i e && !keptBack s i e && !seqBlocks s e)) && !calHolds s e
        && (!e.isLf || vdrvInWindow s || e.holdUntil.isNone) then entryTry i e s
    else s

def execEntryWaitEnd (entry : Fin 256) (s : State) : Host.Outcome State Fault Refusal := done s (entryWaitEnd entry.val s)

/-- VDRV_WINDOW_REACHED: VDRV has entered its window during the hold, and the action starts late (R87). -/
def vdrvWindowReached (i : Nat) (s : State) : State :=
  match ttGet s i with
  | none => s
  | some e =>
    if e.st == .waiting && e.isLf && e.holdUntil.isSome && s.sup.vdrvOn then
      entryTry i e { s with sup.vdrvReadyAt := min s.sup.vdrvReadyAt s.elapsed }
    else s

def execVdrvWindowReached (entry : Fin 256) (s : State) : Host.Outcome State Fault Refusal :=
  done s (vdrvWindowReached entry.val s)

/-- VDRV_WINDOW_TIMEOUT: the 2 ms hold has passed; LOW_ENERGY without driving (R87, R218). -/
def vdrvWindowTimeout (i : Nat) (s : State) : State :=
  match ttGet s i with
  | none => s
  | some e =>
    if e.st == .waiting && e.isLf && expired s e.holdUntil && !vdrvInWindow s then lfActionEnd (entrySkip i e .lowEnergy s)
    else s

def execVdrvWindowTimeout (entry : Fin 256) (s : State) : Host.Outcome State Fault Refusal :=
  done s (vdrvWindowTimeout entry.val s)

/-- FRAME_LAUNCH (R186, R554). -/
def execFrameLaunch (entry : Fin 256) (s : State) : Host.Outcome State Fault Refusal := done s (frameLaunch entry.val s)

/-! ### The converter (R86) -/

/-- VDRV_CONVERTER_START: an LF entry is due within 2 ms. -/
def execVdrvConverterStart (s : State) : Host.Outcome State Fault Refusal :=
  done s (if lfDueSoon s then vdrvStart s else s)

/-- An LF action is preparing, waiting or running. -/
def lfActive (s : State) : Bool :=
  (ttAll s).any (fun x => x.2.isLf && (x.2.active || x.2.st == .waiting)) || (s.lf.round && decide (s48 s.lf.roundDue (now48 s) > 0))

/-- VDRV_CONVERTER_STOP: 1 ms after the last LF action, with none due within 2 ms. -/
def execVdrvConverterStop (s : State) : Host.Outcome State Fault Refusal :=
  done s (if expired s s.sup.vdrvStopAt && !lfDueSoon s && !lfActive s then vdrvOff s else s)

/-! ### An action that is cut off (R75, R89, R92, R133) -/

/-- Records of a scan so far with the header of R246. -/
def scanResult (e : Entry) : Bytes :=
  let n := e.recs.length / 8
  let f := (List.range n).foldl (fun a i => a ||| u8 e.recs (8 * i + 6)) 0
  leBytes 1 n ++ [0] ++ leBytes 2 f ++ e.recs

/-- Release what a running action of kinds 1 to 7 holds. -/
def actionRelease (i : Nat) (e : Entry) (s : State) : State :=
  if e.isLf then lfActionEnd (lfOff (markRetests (lfNamed s e) s))
  else if e.kind = 7 then
    { s with uhf.wrx := s.uhf.wrx.map (fun w => if w.entry = some i then { w with on := false, entry := none } else w) }
  else e.trxs.foldl (fun s n => trxRest n s) s

/-- Result bytes of an action that is cut off: what it had before, and no reply or telegram, since the commands that cut it carry
none. DESIGN CHOICE, log 117. -/
def cutResult (s : State) (e : Entry) (st : Status) : Bytes :=
  if e.kind = 1 then frameResult e 0 false (Reply.none_ st 0 0)
  else if e.kind = 3 then scanResult e
  else if e.kind = 4 then rxResult e (calFailed s e) { syncs := 0, crcs := 0, lens := 0, tel := none } 0
  else if e.kind = 5 then leBytes 1 (b2n e.late) ++ [0, 0, 0] ++ leBytes 4 (s48 e.start e.due).toNat ++ leBytes 8 e.start.toNat
  else if e.kind = 6 then rangeBytes none noRanging e.late e.start 0 0
  else []

/-- Every running action that `p` selects ends now with the status `st` gives its kind. -/
def actionsCut (p : Entry → Bool) (st : Nat → Status) (s : State) : State :=
  (ttAll s).foldl (fun s x =>
    if x.2.st == .running && x.2.kind ≤ 7 && p x.2 then
      entryEnd x.1 x.2 (st x.2.kind) (cutResult s x.2 (st x.2.kind)) (actionRelease x.1 x.2 s)
    else s) s

/-- Start of the frame that a running entry sends, on the 40 MHz reference. -/
def frameStartXo (s : State) (e : Entry) : Nat := e.endAt - tNs (periodsNs s (32 * frameSlots (frameBlock s e)))

/-- A running LF action is to end with `st` at its next bit or pattern boundary (R89): a frame at the next of its slots, a
pattern with its slot, a ping at its end. -/
def actionCutSoon (st : Status) (s : State) (e : Entry) : Entry :=
  let t := tNs (periodsNs s 32)
  let b := frameStartXo s e
  { e with cut := some st, endAt := if e.kind = 1 then b + ((s.xo - b) / max 1 t + 1) * t else e.endAt }

def actionsCutSoon (p : Entry → Bool) (st : Status) (s : State) : State :=
  (ttAll s).foldl (fun s x =>
    if x.2.st == .running && p x.2 && x.2.cut.isNone then ttPut x.1 (some (actionCutSoon st s x.2)) s else s) s

/-- Entries preparing or waiting go back to pending (the state they were in before their power went). -/
def prepsBack (p : Entry → Bool) (s : State) : State :=
  (ttAll s).foldl (fun s x =>
    if (x.2.st == .preparing || x.2.st == .waiting) && x.2.kind ≤ 7 && p x.2 then
      ttPut x.1 (some { x.2 with st := .pending, holdUntil := none, claim := false }) s
    else s) s

end Sys2Proof.Machine
end

