-- ==== Sys2Proof/Machine/Resets.lean ====
section
/-! DEFINITION. Resets (R51, R52, R99, R146 to R150, R155): what each kind keeps, and the commands that reset. -/

namespace Sys2Proof.Machine

/-! ### What a reset keeps (R147, R149, and the Kept over column of R623) -/

/-- Reset kinds coincident in the present start-up (R99, R147). -/
def kindsWith (k : ResetKind) (s : State) : List ResetKind :=
  if s.pwr.st == .startUp then k :: s.boot.kinds else [k]

/-- Every coincident kind is one of `l`. -/
def onlyKinds (l : List ResetKind) (ks : List ResetKind) : Bool := ks.all (fun k => l.contains k)

/-- Supply front end after a reset: VBAT and VHOLD are outside quantities; events are kept over WFR and HCR alone. -/
def supReset (ks : List ResetKind) (p : Supply) : Supply :=
  { Supply.reset with vbat := p.vbat, vhold := p.vhold, evt := if onlyKinds [.wfr, .hcr] ks then p.evt else 0 }

/-- The local clock: its value is lost at PON alone (R149). DEDUCED, log 59. -/
def clkReset (ks : List ResetKind) (c : Clock) : Clock :=
  if onlyKinds [.bor, .wfr, .hcr, .tmr, .lcr] ks then
    { Clock.reset with sec := c.sec, ns := c.ns, frac := c.frac, tickInc := c.tickInc, rtcRunning := c.rtcRunning }
  else Clock.reset

/-- The credential cache is read again from its records; what is not part of a record is lost (R384, R392). -/
def accReset (a : Acc) : Acc :=
  { Acc.reset with profile := a.profile, creds := a.creds.map (fun c => { c with icnt := none, lastCmd := none }) }

/-- Key store: the volatile slots and the root in SEC go. -/
def ksReset (k : Ks) : Ks :=
  { k with root := none, evt := 0, slots := Vector.ofFn (fun (i : Fin 64) => if i.val < 56 then vget k.slots i.val Slot.empty else Slot.empty) }

/-- Retained memory keeps its content; at PON the counter values held in AON go (R529). -/
def nvmReset (ks : List ResetKind) (n : Nvm) : Nvm :=
  { n with ledger := none, evt := 0, maxWear := 0, corrections := 0, refresh := [],
           ctrs := if ks.contains .pon then n.ctrs.map (fun c => { c with held := 0 }) else n.ctrs }

/-- The tamper watch in AON (R498, R504, R507, R510). -/
def tmpReset (ks : List ResetKind) (t : Tmp) : Tmp :=
  let keep := { t with diff := Vector.replicate 2 0 }
  if ks.contains .pon then
    { Tmp.reset with active := t.active, count := t.count, latch := t.latch, last := t.last, applied := t.applied, log := t.log }
  else if onlyKinds [.bor, .wfr, .hcr, .tmr] ks then keep else { keep with evt := 0 }

/-- Diagnostics: stored DTCs stay, the authentication delay starts again (R590). -/
def diagReset (ks : List ResetKind) (now : Nat) (d : Diag) : Diag :=
  let r := { Diag.reset with dtcs := d.dtcs, conditions := d.conditions }
  if ks.contains .pon then r
  else { r with authFails := d.authFails, exceeded := d.exceeded, lockUntil := d.lockUntil.map (fun _ => now + tS 10) }

/-- A reset of kind `k` (R146): everything else returns to its reset value and start-up is to run (R97). -/
def resetTo (k : ResetKind) (s : State) : State :=
  let ks := kindsWith k s
  { State.reset with
    pending := s.pending, elapsed := s.elapsed, xo := s.xo, sup := supReset ks s.sup,
    permit := { Permit.reset with pdBelow := s.permit.pdBelow, denyAt := some (cycle s) },
    pwr := { Pwr.reset with wakePins := s.pwr.wakePins },
    boot := { Boot.reset with kinds := ks },
    clk := clkReset ks s.clk,
    uhf := { Uhf.reset with temp := s.uhf.temp },
    acc := accReset s.acc,
    rng := { Rng.reset with drawn := s.rng.drawn },
    ks := ksReset s.ks,
    nvm := nvmReset ks s.nvm,
    tmp := tmpReset ks s.tmp,
    diag := diagReset ks s.elapsed s.diag,
    flt := { Flt.reset with evt := if onlyKinds [.wfr, .hcr] ks then s.flt.evt else 0 },
    flash := s.flash }

/-! ### Commands -/

/-- POWER_ON_RESET: VBAT and VHOLD both below 2.0 V at once (R146). -/
def powerOn (vhold : Nat) (s : State) : State :=
  let s := seeVhold vhold s
  if s.sup.vbat < 2000 && vhold < 2000 then resetTo .pon s else s

def execPowerOnReset (vbatMv vholdMv : Nat) (s : State) : Host.Outcome State Fault Refusal :=
  withVbat vbatMv s (powerOn vholdMv)

/-- NRST held low from outside for `lowNs` after the part's own drive ends (R51, R52); while the part drives it low the time does
not run. Between 2 µs and 10 µs a free value decides (log 6). DEDUCED, log 41. -/
def nrstLow (lowNs : Nat) (s : State) : State :=
  if nrstDriven s then s
  else if lowNs ≥ 10000 then resetTo .hcr s
  else if lowNs < 2000 then s
  else
    let s' := { s with rng.drawn := s.rng.drawn + 1 }
    if Config.nrstShort s.rng.drawn then resetTo .hcr s' else s'

def execNrstExternalLow (lowNs : Nat) (s : State) : Host.Outcome State Fault Refusal := done s (nrstLow lowNs s)

end Sys2Proof.Machine
end

