-- ==== Sys2Proof/Machine/Supply.lean ====
section
/-! DEFINITION. Supply regions (R64 to R82, R89, R631), the energy ledger (R523), the permit outputs' readback (R94), and the
temperature responses (R92). -/

namespace Sys2Proof.Machine

/-! ### Domains that lose power -/

/-- The UHF domain goes off: transceivers sleep, wake receivers stop; calibration results are held (R321). -/
def uhfOff (s : State) : State :=
  { s with
    uhf.trx := s.uhf.trx.map (fun t => { t with st := .sleep, lock := none, cal := none, retried := false, sleepAt := none })
    uhf.wrx := s.uhf.wrx.map (fun w => { w with on := false, entry := none }) }

/-- The LF drivers go off. -/
def lfdOff (s : State) : State := vdrvOff (lfOff s)

/-- The switch domain goes off: queued frames, learnt addresses and the running state of policing and recovery are lost. -/
def swOff (s : State) : State :=
  let s := (List.range 8).foldl (fun s p => portDown p s) s
  let s := portMod 8 (fun x => { x with queues := Vector.replicate 8 [] }) s
  { s with
    sw.learnt := [], sw.flows := [], sw.meters := [], sw.frer := Vector.replicate 16 Frer.reset, sw.toPairs := [],
    can := s.can.map (fun c => { c with token := none }) }

/-! ### Ride-through -/

/-- Ride-through is entered (R74, R75, R77); before the VHOLD measurement has completed it is a brown-out reset (R104). A
fall from full function passes through crank hold. DEDUCED, log 29. -/
def rideEnter (s : State) : State :=
  if !s.sup.measured then resetTo .bor s
  else
    let s := if s.sup.region == .crank then s else crankEnter s
    let s := evSup 1 (ledgerStart { s with sup.region := .ride, sup.rideUntil := some (s.elapsed + tNs s.sup.tHoldNs) })
    let s := actionsCut (fun _ => true) (fun k => if k = 6 then .timeout else .lowEnergy) s
    let s := prepsBack (fun _ => true) s
    let s := swOff (uhfOff (lfdOff s))
    { s with diag.download := none }

/-- The supply when Run is reached from Heath or Fallow (R631). -/
def runSupply (s : State) : State :=
  if s.sup.region == .overvolt then s
  else if s.sup.vbat < Config.vRte then rideEnter s
  else if s.sup.vbat < Config.vChe then crankEnter s
  else s

/-- The end of a command that may have led from Heath or Fallow to Run. -/
def doneRun (s a : State) : Host.Outcome State Fault Refusal :=
  done s (if s.pwr.st != .run && isRun a then runSupply a else a)

/-- VBAT is back above V_RTX: crank hold resumes, or full function (R79); re-grant (R82). -/
def rideLeave (s : State) : State :=
  if !inRide s then s
  else
    let s := { s with sup.rideUntil := none, sup.shedVio := s.sup.shedVio ||| vioMask s }
    let s := if s.sup.vbat ≥ Config.vChx then { s with sup.region := .full, sup.shedCrank := 0, sup.shedVio := vioMask s }
      else { s with sup.region := .crank }
    regrant s

/-- VBAT is above V_RTX: ride-through ends, and a deny of R81 outside ride-through ends with the re-grant of R82. -/
def vrtxRise (s : State) : State :=
  if inRide s then rideLeave s else if isRun s && s.permit.pdDenied then regrant s else s

/-- Crank hold is left (R72). -/
def crankLeave (s : State) : State :=
  if !(isRun s && s.sup.region == .crank) then s
  else
    let s := { s with sup.region := .full, sup.shedCrank := 0, sup.shedVio := vioMask s }
    if s.sup.vdrvOn then vdrvAim s else s

/-! ### Commands of the regions -/

/-- VBAT_CRANK_HOLD_ENTRY: below V_CHE in Run from full function. -/
def execVbatCrankHoldEntry (mv : Nat) (s : State) : Host.Outcome State Fault Refusal :=
  withVbat mv s (fun s => if isRun s && s.sup.region == .full && mv < Config.vChe then crankEnter s else s)

/-- VBAT_CRANK_HOLD_EXIT: above V_CHX. -/
def execVbatCrankHoldExit (mv : Nat) (s : State) : Host.Outcome State Fault Refusal :=
  withVbat mv s (fun s => if mv ≥ Config.vChx then crankLeave s else s)

/-- VIO_LOW_SHED: VIO follows VBAT below 3.8 V, so P0 and P1 go down (R70). -/
def vioShed (s : State) : State :=
  if isRun s && s.sup.region != .ride && s.sup.vbat < 3800 then shedApply { s with sup.shedVio := 3 } else s

def execVioLowShed (mv : Nat) (s : State) : Host.Outcome State Fault Refusal := withVbat mv s vioShed

/-- The start-up sequence has begun, and the VHOLD measurement has not completed (R104). -/
def bootUnmeasured (s : State) : Bool :=
  ((s.pwr.st == .startUp && decide (s.boot.step ≠ 1)) || s.pwr.st == .waitNoPair) && !s.sup.measured

/-- RIDE_THROUGH_ENTRY: below V_RTE in Run; in a start-up before the measurement it is a brown-out reset (R104). -/
def rideFall (mv : Nat) (s : State) : State :=
  if mv ≥ Config.vRte then s
  else if bootUnmeasured s then resetTo .bor s
  else if isRun s && s.sup.region != .ride then rideEnter s
  else s

def execRideThroughEntry (mv vholdMv : Nat) (s : State) : Host.Outcome State Fault Refusal :=
  withVbat mv s (fun s => rideFall mv (seeVhold vholdMv s))

/-- RIDE_THROUGH_EXIT: above V_RTX. -/
def execRideThroughExit (mv : Nat) (s : State) : Host.Outcome State Fault Refusal :=
  withVbat mv s (fun s => if mv ≥ Config.vRtx then vrtxRise s else s)

/-- T_HOLD_EXPIRY (R77). DESIGN CHOICE, log 2. -/
def holdExpire (s : State) : State := if inRide s && expired s s.sup.rideUntil then resetTo .bor s else s

def execTHoldExpiry (s : State) : Host.Outcome State Fault Refusal := done s (holdExpire s)

/-- VHOLD_BELOW_V_HMIN: VHOLD falls through V_HMIN, in every power state and region (R64, R77, R80). -/
def hminReset (mv : Nat) (s : State) : State :=
  if mv < Config.vHmin then resetTo .bor (seeVhold mv s) else seeVhold mv s

def execVholdBelowVHmin (vholdMv : Nat) (s : State) : Host.Outcome State Fault Refusal :=
  done s (hminReset vholdMv s)

/-- VBAT_PERMIT_DENY: the deny of R81 is part of seeing VBAT. -/
def execVbatPermitDeny (mv : Nat) (s : State) : Host.Outcome State Fault Refusal := withVbat mv s id

/-- Overvoltage (R89, R631): the converter stops at once, and a running LF action is to end with LOW_ENERGY at its next bit or
pattern boundary. DEDUCED, log 33. -/
def overvoltEnter (s : State) : State :=
  if s.pwr.st == .startUp || s.pwr.st == .waitNoPair || s.sup.region == .overvolt then s
  else
    let s := crankLeave (rideLeave s)
    let s := evSup 3 { s with sup.region := .overvolt }
    vdrvOff (prepsBack (·.isLf) (actionsCutSoon (·.isLf) .lowEnergy s))

def execOvervoltageEntry (mv : Nat) (s : State) : Host.Outcome State Fault Refusal :=
  withVbat mv s (fun s => if mv > Config.vOve then overvoltEnter s else s)

/-- OVERVOLTAGE_EXIT: below V_OVX. -/
def execOvervoltageExit (mv : Nat) (s : State) : Host.Outcome State Fault Refusal :=
  withVbat mv s (fun s => if s.sup.region == .overvolt && mv < Config.vOvx then { s with sup.region := .full } else s)

/-- VBAT_BELOW_VRTE_IN_HEATH: AON runs from VHOLD (R80); the ledger begins (R523). Before
the VHOLD measurement has completed it is a brown-out reset (R104). -/
def execVbatBelowVRteInHeath (mv : Nat) (s : State) : Host.Outcome State Fault Refusal :=
  withVbat mv s (fun s =>
    if (s.pwr.st == .heath || s.pwr.st == .fallow) && mv < Config.vRte then
      (if s.sup.measured then ledgerStart s else resetTo .bor s)
    else s)

/-- LEDGER_END: VBAT supplies the part again and VHOLD reads at least 14.5 V (R523). -/
def ledgerEnd (s : State) : State :=
  if s.sup.region != .ride && s.sup.vbat ≥ Config.vRtx && s.sup.vhold ≥ 14500 then { s with nvm.ledger := none } else s

def execLedgerEnd (vbatMv vholdMv : Nat) (s : State) : Host.Outcome State Fault Refusal :=
  withVbat vbatMv s (fun s => ledgerEnd (seeVhold vholdMv s))

/-! ### Permit output readback (R94, R603) -/

/-- SP_OUTPUT_READBACK: each output's level and its current limit over the last 1 ms. -/
def spReadback (spaHigh spbLow spaLimit spbLimit : Bool) (s : State) : State :=
  let a := spaLimit || spaHigh != s.permit.spA
  let b := spbLimit || spbLow != s.permit.spB
  let s := { s with sup.spaFault := a, sup.spbFault := b }
  if a || b then dtc 0xB78030 (evFlt 7 s) else dtcClear 0xB78030 s

def execSpOutputReadback (spaHigh spbLow spaLimit spbLimit : Bool) (s : State) : Host.Outcome State Fault Refusal :=
  done s (spReadback spaHigh spbLow spaLimit spbLimit s)

/-! ### Temperature (R92) -/

def seeTj (tj : Int) (s : State) : State := { s with sup.tj := tj }

/-- T_WARN, 140 °C. -/
def thermWarn (s : State) : State :=
  if s.sup.tj ≥ 140 && !s.sup.thermWarn then dtc Config.thermDtc.toNat (evSup 4 { s with sup.thermWarn := true }) else s

def execThermWarn (tj : Int) (s : State) : Host.Outcome State Fault Refusal := done s (thermWarn (seeTj tj s))

/-- T_DER, 150 °C: the LF limits of R233 and the ports of the thermal list. -/
def thermDerate (s : State) : State :=
  if s.sup.tj ≥ 150 && !s.sup.thermDer then
    let s := { s with sup.thermDer := true,
                      sup.shedTherm := s.sup.shedTherm ||| shedFrom s (poShedTherm (policySec s)) }
    evSup 5 (if isRun s then shedApply s else s)
  else s

def execThermDerate (tj : Int) (s : State) : Host.Outcome State Fault Refusal := done s (thermDerate (seeTj tj s))

/-- T_OFF, 165 °C. -/
def thermOff (s : State) : State :=
  if s.sup.tj ≥ 165 && !s.sup.thermOff then
    let s := { s with sup.thermOff := true, sup.shedTherm := shedFrom s 0xFF }
    let s := actionsCut (fun _ => true) (fun _ => .notReady) s
    let s := prepsBack (fun _ => true) s
    let s := uhfOff (lfdOff s)
    evSup 6 (if isRun s then shedApply s else s)
  else s

def execThermOff (tj : Int) (s : State) : Host.Outcome State Fault Refusal := done s (thermOff (seeTj tj s))

/-- T_RST, 175 °C: warm fault reset. -/
def execThermReset (tj : Int) (s : State) : Host.Outcome State Fault Refusal :=
  done s (if tj ≥ 175 then resetTo .wfr (seeTj tj s) else seeTj tj s)

/-- THERM_RESPONSE_WITHDRAW: each response goes 10 °C below its threshold. -/
def thermWithdraw (s : State) : State :=
  let off := s.sup.thermOff && s.sup.tj > 155
  let der := s.sup.thermDer && s.sup.tj > 140
  let warn := s.sup.thermWarn && s.sup.tj > 130
  let s := if s.sup.thermWarn && !warn then dtcClear Config.thermDtc.toNat s else s
  { s with sup.thermOff := off, sup.thermDer := der, sup.thermWarn := warn,
           sup.shedTherm := if off then s.sup.shedTherm else if der then shedFrom s (poShedTherm (policySec s)) else 0 }

def execThermResponseWithdraw (tj : Int) (s : State) : Host.Outcome State Fault Refusal :=
  done s (thermWithdraw (seeTj tj s))

end Sys2Proof.Machine
end

