-- ==== Sys2Proof/Machine/Lf.lean ====
section
/-! DEFINITION. Ends of LF actions (R245 to R258, R267 to R281): frames with their uplink, scans, pings, channel faults and
retests. -/

namespace Sys2Proof.Machine

/-! ### Uplink decoding (R267 to R271); magnitudes in 0.01 µA, `m` is the sum of three on units -/

/-- A data unit is on at M_h / 4 or more. -/
def unitOn (m u : Nat) : Bool := 12 * u ≥ m
/-- A data unit is off at M_h / 8 or less. -/
def unitOff (m u : Nat) : Bool := 24 * u ≤ m

/-- What begins at unit j: how a symbol at the reply's start reads (R268). -/
inductive StartSym where
  | header (m : Nat)
  | ext
  /-- malformed; the unit that makes it so ends at this unit -/
  | bad (close : Nat)
  /-- a header whose off unit a collision has lowered the others to, so that none is recognised (R269) -/
  | lost
deriving DecidableEq, Repr

/-- The symbol that begins at unit j, whose first unit reaches the sensitivity. A unit below it that is not off against the on units
before it is one that two replies have lowered (R269). DEDUCED, log 66. -/
def startSym (u : Nat → Nat) (sens j : Nat) : StartSym :=
  let m := u j + u (j + 1) + u (j + 2)
  if u (j + 1) < sens then (if 8 * u (j + 1) > u j then .lost else .bad (j + 2))
  else if u (j + 2) < sens then (if 16 * u (j + 2) > u j + u (j + 1) then .lost else .bad (j + 3))
  else if unitOff m (u (j + 3)) then .header m
  else if !unitOn m (u (j + 3)) then .bad (j + 4)
  else if !unitOn m (u (j + 4)) then .bad (j + 5)
  else if !unitOn m (u (j + 5)) then .bad (j + 6)
  else if !unitOff m (u (j + 6)) then .bad (j + 7)
  else if !unitOff m (u (j + 7)) then .bad (j + 8)
  else .ext

/-- Data bits from unit `h`: bits, collided indices, and the unit after EOF or after the bit past the limit. -/
def dataBits (u : Nat → Nat) (m : Nat) : Nat → Nat → Nat → List Bool → List Nat → List Bool × List Nat × Bool × Nat
  | 0, _, h, bits, coll => (bits.reverse, coll.reverse, unitOff m (u h) && unitOff m (u (h + 1)), h + 2)
  | n + 1, i, h, bits, coll =>
    let a := u h
    let b := u (h + 1)
    if unitOff m a && unitOff m b then (bits.reverse, coll.reverse, true, h + 2)
    else if unitOn m a && unitOff m b then dataBits u m n (i + 1) (h + 2) (true :: bits) coll
    else if unitOff m a && unitOn m b then dataBits u m n (i + 1) (h + 2) (false :: bits) coll
    else dataBits u m n (i + 1) (h + 2) (false :: bits) (i :: coll)

/-- Status of decoded data (R273, the rows from COLLISION on). -/
def dataStatus (rmin : Nat) (bits : List Bool) (colls : Nat) (eof : Bool) : Status :=
  if colls > 0 then .collision
  else if !eof || bits.length < 8 * rmin + 16 || bits.length % 8 ≠ 0 then .frameError
  else
    let b := bitsBytes 64 bits
    let n := b.length - 2
    if beNat (b.drop n) = crc16 (b.take n) then .ok else .crcError

/-- Decode from a window of units lo to hi, with `ext` EXT symbols so far; at most nine are seen. -/
def decodeFrom (u : Nat → Nat) (sens extMax rmin rmax : Nat) (allow : Bool) : Nat → Nat → Nat → Nat → Reply
  | 0, ext, lo, _ => Reply.none_ .timeout ext lo
  | n + 1, ext, lo, hi =>
    match (List.range (hi + 1 - lo)).find? (fun i => u (lo + i) ≥ sens) with
    | none => Reply.none_ .timeout ext (hi + 1)
    | some i =>
      let j := lo + i
      match if i > 0 && 8 * u (j - 1) > u j then .lost else startSym u sens j with
      | .bad c => Reply.none_ .frameError ext c
      | .lost => Reply.none_ .timeout ext (hi + 1)
      | .ext =>
        if ext + 1 > extMax then { Reply.none_ .timeout (ext + 1) (j + 8) with extLimit := true }
        else if !allow then Reply.none_ .frameError (ext + 1) (j + 8)
        else decodeFrom u sens extMax rmin rmax allow n (ext + 1) (j + 8) (j + 24)
      | .header m =>
        let d := dataBits u m (8 * rmax + 16) 0 (j + 4) [] []
        { st := dataStatus rmin d.1 d.2.1.length d.2.2.1, extLimit := false, ext := ext, header := some j, m := m, bits := d.1,
          coll := d.2.1.head?, colls := d.2.1.length, close := d.2.2.2 }

/-- The reply to a frame: the first symbol from unit 1 to t_resp / 16 (R270). -/
def decodeReply (s : State) (f : Bytes) (sens : Nat) (units : List Nat) : Reply :=
  decodeFrom (fun i => units.getD i 0) sens (klExtMax s.set.keylink) (fbRMin f) (fbRMax f) (fbExt f) 10 0 1
    (klResp s.set.keylink / 16)

/-- Sensitivity of R227 in 0.01 µA: the larger of 50 µA and −80 dBc of the listening channel's current. -/
def lfSens (s : State) (ch : Nat) : Nat :=
  let ua := ((s.lf.drive.find? (fun d => d.ch = ch)).map (·.ua)).getD 0
  max 5000 (ua / 100)

/-! ### LF_FRAME_COMPLETE (R273) -/

/-- Channels that drive carry on with unmodulated carrier (R280). -/
def carrierOn (s : State) : State := lfModes (fun n => if (chGet s n).mode.driven then .drive else (chGet s n).mode) s

/-- KL registers at the end of a frame (R626). -/
def klNote (st : Status) (r : Reply) (s : State) : State :=
  let s := { s with kl.frames := satInc 65535 s.kl.frames,
                    kl.replies := if st == .ok && r.header.isSome then satInc 65535 s.kl.replies else s.kl.replies }
  let s := if st == .collision then evKl 0 s else s
  let s := if r.extLimit then evKl 1 s else s
  if st == .frameError || st == .crcError then evKl 2 s else s

/-- A frame that overvoltage has cut ends at its bit boundary (R89). -/
def frameCutEnd (i : Nat) (e : Entry) (st : Status) (env : LfFrameEnv) (s : State) : State :=
  let r := Reply.none_ st 0 0
  entryEnd i e st (frameResult e env.sat env.limited r) (actionRelease i e (klNote st r (noteSat env.sat s)))

/-- The frame's end: the LF drive stays with its round until the instant of R280, every driven channel with unmodulated
carrier. -/
def lfFrameComplete (i : Nat) (env : LfFrameEnv) (s : State) : State :=
  match ttGet s i with
  | none => s
  | some e =>
    if e.kind ≠ 1 || e.st != .running || !reachedXo s e.endAt then s
    else match e.cut with
    | some st => frameCutEnd i e st env s
    | none =>
      let f := frameBlock s e
      let r := if fbListen f = 255 then Reply.none_ .ok 0 0 else decodeReply s f (lfSens s (fbListen f)) env.units
      let close := e.endAt + tNs (periodsNs s (16 * r.close))
      if !reachedXo s close then s
      else
        let due := now48 s - BitVec.ofNat 48 ((s.xo - close) / 64) + BitVec.ofNat 48 (periodsNs s 16)
        let s := carrierOn (noteSat env.sat { s with lf.round := true, lf.roundDue := due })
        let s := lfActionEnd (markRetests (lfNamed s e) (klNote r.st r s))
        let s := if r.header.isSome then heathEvent 10 s else s
        entryEnd i e r.st (frameResult e env.sat env.limited r) s

def execLfFrameComplete (entry : Fin 256) (env : LfFrameEnv) (s : State) : Host.Outcome State Fault Refusal :=
  done s (lfFrameComplete entry.val env s)

/-! ### Scans (R245 to R247) -/

/-- Carrier periods of a pattern slot (R245). -/
def slotPeriods (b : Bytes) : Nat := 18 + scanDwell b

/-- A pattern slot begins: k is fixed, the channels drive, the record is written (R233, R234, R246). -/
def scanPatternStart (i : Nat) (env : PatternEnv) (s : State) : State :=
  match ttGet s i with
  | none => s
  | some e =>
    let b := scanBlock s e
    if e.kind ≠ 3 || e.st != .running || e.cut.isSome || !reachedXo s e.endAt || e.pats ≥ scanCount b then s
    else
      let w := (scanPatterns b).getD e.pats []
      let d := driveOf s (scanIfs b) w 255
      let sat := headroomSat s (scanIfs b) d ||| env.sat
      let rec_ := leBytes 2 d.k ++ leBytes 2 d.dropped ++ leBytes 2 sat.toNat ++ leBytes 1 (driveFlags d env.limited) ++ [0]
      let start := e.endAt
      noteK d.k (noteSat sat (driveOn .drive (scanIfs b) d { (ttPut i (some { e with
        pats := e.pats + 1, recs := e.recs ++ rec_, k := d.k, endAt := start + tNs (periodsNs s (slotPeriods b)) }) s) with
        sup.vdrvLimit := env.limited }))

def execScanPatternStart (entry : Fin 256) (env : PatternEnv) (s : State) : Host.Outcome State Fault Refusal :=
  done s (scanPatternStart entry.val env s)

/-- The last slot has ended, or the one at whose end overvoltage stops the scan (R89, R247). -/
def scanComplete (i : Nat) (s : State) : State :=
  match ttGet s i with
  | none => s
  | some e =>
    let b := scanBlock s e
    if e.kind ≠ 3 || e.st != .running || !reachedXo s e.endAt || (e.cut.isNone && e.pats < scanCount b) then s
    else entryEnd i e (e.cut.getD .ok) (scanResult e) (actionRelease i e s)

def execScanComplete (entry : Fin 256) (s : State) : Host.Outcome State Fault Refusal := done s (scanComplete entry.val s)

/-! ### Pings (R252, R253) -/

/-- Magnitude of a measurement. DEDUCED, log 64. -/
def pingMag (m : Int × Int) : Nat := isqrt (m.1 * m.1 + m.2 * m.2).toNat

/-- The comparison of R252: change when either threshold is reached. -/
def pingChange (p : Bytes) (m base : Int × Int) : Bool :=
  let da := ((pingMag m : Int) - pingMag base).natAbs * 1024 / max 1 (pingMag base)
  let dp := (sgn 16 (toU 16 (angle16 m.1 m.2 - angle16 base.1 base.2))).natAbs
  da ≥ u16 p 4 || dp ≥ 256 * u8 p 6

/-- The baseline follows the measurement; division truncates towards zero (R17, R252). -/
def pingBase (shift : Nat) (m base : Int × Int) : Int × Int :=
  (base.1 + (m.1 - base.1).tdiv (2 ^ shift : Nat), base.2 + (m.2 - base.2).tdiv (2 ^ shift : Nat))

/-- A change starts a full poll: in Run on START_COIL alone, in Heath on any channel (R143, R391). The measurement becomes the
baseline when the poll ends; where none can start, the baseline is held. DEDUCED, log 126. -/
def pollBegin (n : Nat) (m : Int × Int) (s : State) : State :=
  if coilReady s && ((s.pwr.st == .heath && wakeEnabled s 10) || (isRun s && pfStartCoil s.acc.profile = n)) then
    pollDone (trigger 7 (16 + n) (chMod n (fun c => { c with trigger := some m }) s))
  else s

/-- A ping has ended. -/
def pingComplete (i : Nat) (re im : Int) (s : State) : State :=
  match ttGet s i with
  | none => s
  | some e =>
    if e.kind ≠ 2 || e.st != .running || !reachedXo s e.endAt then s
    else
      let p := pingSet s e
      let n := e.unit % 16
      let m : Int × Int := ((re * 1024).tdiv (max 1 e.k : Nat), (im * 1024).tdiv (max 1 e.k : Nat))
      let s := entryEnd i e (e.cut.getD .ok) [] (actionRelease i e s)
      if e.cut.isSome then s
      else match (chGet s n).base with
      | none => chMod n (fun c => { c with base := some m }) s
      | some b =>
        if pingChange p m b then
          pollBegin n m (heathEvent 10 (evLf 5 s))
        else chMod n (fun c => { c with base := some (pingBase (u8 p 7) m b) }) s

def execPingComplete (entry : Fin 256) (re im : Int) (s : State) : Host.Outcome State Fault Refusal :=
  done s (pingComplete entry.val re im s)

/-! ### Faults in service (R251, R254 to R257) -/

/-- A channel that faults in a pattern is dropped from it: the pattern's record says so (R246, R247). -/
def recDrop (n : Nat) (e : Entry) : Entry :=
  let m := e.recs.length - 8
  let r := e.recs.drop m
  if e.recs.length < 8 then e
  else { e with recs := e.recs.take m ++ sl r 0 2 ++ leBytes 2 ((BitVec.ofNat 16 (u16 r 2)) ||| onBit 16 n).toNat ++ sl r 4 2
                  ++ leBytes 1 (u8 r 6 ||| 1) ++ [0] }

/-- What a fault of a channel does to the action now on the LF drive (R247, R251). -/
def faultAction (n : Nat) (s : State) : State :=
  (ttAll s).foldl (fun s x =>
    let e := x.2
    if e.st != .running || !e.isLf then s
    else if e.kind = 1 then
      let f := frameBlock s e
      let w := drivenWords (fbWords f)
      if !(w.any (fun w => w.ch = n)) then s
      else if fbListen f = n || drivenMask s = 0 then
        entryEnd x.1 e .channelFault
          (frameResult { e with dropped := e.dropped ||| onBit 16 n } 0 false (Reply.none_ .channelFault 0 0))
          (actionRelease x.1 e s)
      else ttPut x.1 (some { e with dropped := e.dropped ||| onBit 16 n }) s
    else if e.kind = 2 then
      if e.unit % 16 = n then entryEnd x.1 e .channelFault [] (actionRelease x.1 e s) else s
    else if ((scanPatterns (scanBlock s e)).getD (e.pats - 1) []).any (fun w => w.ch = n && w.a ≠ 0) then
      ttPut x.1 (some (recDrop n e)) s
    else s) s

/-- A fault of a channel in service: excluded, classified, its action ends or goes on without it. -/
def channelFault (n kind : Nat) (s : State) : State :=
  if (chGet s n).st ≠ 1 then s else faultAction n (chFault n kind s)

/-- RESULT code of a short class (R260). -/
def shortCode : ShortKind → Nat
  | .gnd => 4 | .supply => 5 | .coil => 6

def execLfChannelShort (ch : Fin 16) (kind : ShortKind) (s : State) : Host.Outcome State Fault Refusal :=
  done s (channelFault ch.val (shortCode kind) s)

/-- A coil current below 25 % of its setting at full drive classifies the channel OPEN (R254). -/
def execLfChannelOpen (ch : Fin 16) (coilMa settingMa : Nat) (s : State) : Host.Outcome State Fault Refusal :=
  done s (if 4 * coilMa < settingMa && (drivenMask s).getLsbD ch.val then channelFault ch.val 3 s else s)

/-- An action runs on the LF drive, or a round keeps it until its next frame. -/
def lfRuns (s : State) : Bool :=
  (ttAll s).any (fun x => x.2.isLf && x.2.st == .running) || (s.lf.round && decide (s48 s.lf.roundDue (now48 s) > 0))

/-- A retest after the action that named the channel (R255); then the drive goes to the next retest or is free. -/
def channelRetest (n : Nat) (clean : Bool) (zMag : Nat) (s : State) : State :=
  let c := chGet s n
  if !retestReady s n || lfRuns s || !vdrvAllowed s then s
  else retestHold <|
    let near := 2 * ((zMag : Int) - c.zmag).natAbs ≤ c.zmag
    if clean && near then
      let s := chMod n (fun c => { c with st := 1, retest := false, retestAfter := s.elapsed + tMs 100, dtcHeld := false }) s
      evLf 6 (dtcClear (chDtc c.lastFault n) s)
    else chMod n (fun c => { c with retest := false, retestAfter := s.elapsed + tMs 100, faults := satInc 255 c.faults }) s

def execLfChannelRetest (ch : Fin 16) (clean : Bool) (zMag : Nat) (s : State) : Host.Outcome State Fault Refusal :=
  done s (channelRetest ch.val clean zMag s)

/-! ### What the LF drive does by itself as time passes (R245, R248) -/

/-- Modes of the channels in a running frame or scan slot: after the last pause of a frame the listening channel is in LISTEN and
the others drive unmodulated carrier; a pattern's channels are OFF once it has quenched. -/
def lfTurn1 (s : State) (e : Entry) : State :=
  if e.kind = 1 then
    let f := frameBlock s e
    if reachedXo s (e.endAt - tNs (periodsNs s 16)) then
      lfModes (fun n => if (chGet s n).mode.driven then (if n = fbListen f then .listen else .drive) else (chGet s n).mode) s
    else s
  else if e.kind = 3 && e.pats = 0 then
    (if scanPreamble (scanBlock s e) ≠ 0xFFFF && reachedXo s (e.endAt - tNs (periodsNs s 32)) then carrierOn s else s)
  else if reachedXo s (e.endAt - tNs (periodsNs s 6)) then lfModes (fun _ => .off) s
  else s

def lfTurn (s : State) : State :=
  (ttAll s).foldl (fun s x => if x.2.isLf && x.2.st == .running then lfTurn1 s x.2 else s) s

end Sys2Proof.Machine
end

