-- ==== Sys2Proof/Machine/Uhf.lean ====
section
/-! DEFINITION. UHF radios and wake receivers (R311 to R344): window ends, ranging ends, calibration, lock, wake patterns. -/

namespace Sys2Proof.Machine

/-! ### RX_WINDOW_COMPLETE (R325, R326, R340) -/

/-- Length byte, payload and CRC of a telegram check (R311). -/
def telCrcOk (t : RxTelegram) : Bool :=
  t.rest.length = t.lenByte.toNat + 2
    && beNat (t.rest.drop t.lenByte.toNat) = crc16 (t.lenByte :: t.rest.take t.lenByte.toNat)

/-- Take sync words in order until a telegram passes. -/
def rxSearch (max : Nat) : List RxTelegram → RxFound → RxFound
  | [], a => a
  | t :: r, a =>
    let a := { a with syncs := a.syncs + 1 }
    if t.lenByte = 0 || t.lenByte.toNat > max then rxSearch max r { a with lens := a.lens + 1 }
    else if telCrcOk t then { a with tel := some t }
    else rxSearch max r { a with crcs := a.crcs + 1 }

/-- A sync word ends inside the window. Its time is read on the stepped clock when a step came during the window (R342), so the
window's limits move with the step; an instant before the step is still on the old clock. -/
def syncInside (e : Entry) (len : Nat) (t : RxTelegram) : Bool :=
  let at_ (g : Int) : Bool :=
    decide (s48 t.syncTime (after48 e.due (1000 * len) + BitVec.ofInt 48 g) ≤ 0)
      && decide (s48 t.syncTime (e.start + BitVec.ofInt 48 g) ≥ 0)
  at_ 0 || (match e.sig with | some g => at_ g | none => false)

/-- The search accepts a sync word after at least 8 preamble bits and with at most SYNC_ERR bit errors (R325). -/
def syncAccepted (p : Bytes) (t : RxTelegram) : Bool := decide (8 ≤ t.preBits) && decide (t.syncErrs ≤ prSyncErr p)

/-- Status of R326 from what was found. -/
def rxStatus (f : RxFound) : Status :=
  if f.tel.isSome then .ok else if f.crcs > 0 then .crcError else if f.lens > 0 then .frameError else .timeout

/-- A receive window delivers a telegram or reaches its end. DESIGN CHOICE, log 109. -/
def rxWindowComplete (i : Nat) (tels : List RxTelegram) (peak : BitVec 16) (s : State) : State :=
  match ttGet s i with
  | none => s
  | some e =>
    let p := e.profile s
    let f := rxSearch (winMax p) (tels.filter (fun t => syncAccepted p t && syncInside e (winLen p) t)) { syncs := 0, crcs := 0, lens := 0, tel := none }
    if e.kind ≠ 4 || e.st != .running || (f.tel.isNone && !reachedXo s e.endAt) then s
    else entryEnd i e (rxStatus f) (rxResult e (calFailed s e) f peak) s

def execRxWindowComplete (entry : Fin 256) (telegrams : List RxTelegram) (peakRssi : BitVec 16) (s : State) :
    Host.Outcome State Fault Refusal := doneRun s (rxWindowComplete entry.val telegrams peakRssi s)

/-! ### TX_WINDOW_COMPLETE (R323, R328, R341) -/

/-- The 16-byte result (R341). -/
def txResult (e : Entry) (win : Nat) : Bytes :=
  let d := (s48 e.start e.due).toNat
  leBytes 1 (uhfFlags e (d > 1000 * win) false) ++ [0, 0, 0] ++ leBytes 4 (min (2 ^ 32 - 1) d) ++ leBytes 8 e.start.toNat

/-- The telegram has been sent, ramp included. -/
def txWindowComplete (i : Nat) (s : State) : State :=
  match ttGet s i with
  | none => s
  | some e =>
    if e.kind ≠ 5 || e.st != .running || !reachedXo s e.endAt then s
    else entryEnd i e .ok (txResult e (telWin (e.profile s))) s

def execTxWindowComplete (entry : Fin 256) (s : State) : Host.Outcome State Fault Refusal :=
  done s (txWindowComplete entry.val s)

/-! ### RANGING_COMPLETE (R365, R370, R371) -/

/-- When the exchange ends, ns from its start: at the end of a span that was missed, or with its result. -/
def rangingEndNs (env : RangingEnv) : Nat :=
  if !((present 2 env.raA || present 2 env.raB) && 134000 ≤ env.raSync && env.raSync ≤ 140000) then 140000
  else if !((present 3 env.prA || present 3 env.prB) && 4280000 ≤ env.prSync && env.prSync ≤ 4288000) then 4288000
  else 4956000

/-- The status needed a MAC verification. -/
def rangeNeedsMac (st : Status) : Bool := st == .tagMismatch || st == .multipath || st == .inconsistent || st == .ok

/-- A ranging exchange ends; its MAC jobs wait for the generator (R449) and fail with it (R470). -/
def rangingComplete (i : Nat) (env : RangingEnv) (s : State) : State :=
  match ttGet s i with
  | none => s
  | some e =>
    let start := e.endAt - tUs 4956
    if e.kind ≠ 6 || e.st != .running || !reachedXo s (start + tNs (rangingEndNs env)) then s
    else
      let o := rangeOut s e env
      if rangeNeedsMac o.st && !s.rng.latched && !rngServes s then s
      else
        let dead := rangeNeedsMac o.st && s.rng.latched
        let res := if dead then rangeBytes none env e.late e.start 0 0 else o.bytes
        let st := if dead then Status.entropyFail else o.st
        let s := if rangeNeedsMac o.st && !dead then countRequests 7 s else s
        let s := if dead then s else o.evts.foldl (fun s n => evLoc n s) s
        -- without RA no tone follows: the receivers of RFA are blind for RS alone, its ramp and 50 µs (R333)
        let s := if rangingEndNs env = 140000 then trxMod 0 (fun t => { t with blindUntil := min t.blindUntil (start + tUs 130) }) s else s
        entryEnd i e st res s

/-- Step 10 of R365: a ranging exchange releases its transceivers before its result is there. -/
def rangingRelease (s : State) : State :=
  if (ttAll s).any (fun x => x.2.released s) then trxFree 1 (trxFree 0 s) else s

def execRangingComplete (entry : Fin 256) (env : RangingEnv) (s : State) : Host.Outcome State Fault Refusal :=
  done s (rangingComplete entry.val env s)

/-! ### Wake receivers (R332 to R334) -/

/-- Time a pattern takes, in units of `xo`. -/
def patSpan (p : Bytes) : Nat := tNs (if patRate p = 0 then 0 else patLen p * 1000000000 / patRate p)

/-- Chips that differ from the pattern. -/
def patMisses (p : Bytes) (chips : BitVec 64) : Nat :=
  popc (((BitVec.ofNat 64 (patPattern p)) ^^^ chips).toNat) (patLen p)

/-- A follow-on of the pattern plan is pending or running. -/
def followPending (s : State) (plan : Nat) : Bool := (ttAll s).any (fun x => x.2.owner == .follow plan)

/-- Write the follow-on entry with NOW set on behalf of CPG0 (R198, R199, R334). -/
def followOn (n plan : Nat) (p : Bytes) (s : State) : State :=
  let e := runtimeEntry 0 4 (patTrx p) (2 ^ 31) (.follow plan) (winPlan s (patWin p)) 0
  let lost := fun (s : State) => evUhf 5 { s with uhf.wrx := vmod s.uhf.wrx n (fun w => { w with followLost := satInc 65535 w.followLost }) }
  if patTrx p = 255 then s
  else if followPending s plan then lost s
  else
    let r := ttInsert 0 { e with due := nowDue s e, grid := nowDue s e } s
    if r.1.isNone then lost s else r.2

/-- WRX_MATCH: the last chips match the pattern within MAX_MISS. While its port transmits a receiver is blind. -/
def wrxMatch (n : Nat) (chips : BitVec 64) (s : State) : State :=
  let w := vget s.uhf.wrx n Wrx.reset
  match w.entry.bind (ttGet s) with
  | none => s
  | some e =>
    let p := patPlan s e
    let start := s.xo - patSpan p
    if !w.on || patMisses p chips > patMiss p then s
    else if start < (trxGet s (n / 3)).blindUntil then evUhf 6 s
    else
      let s := evUhf 4 { s with uhf.wrx := vmod s.uhf.wrx n (fun w => { w with hits := satInc 65535 w.hits }) }
      followOn n e.ref p (heathEvent 9 s)

def execWrxMatch (n : Fin 6) (chips : BitVec 64) (s : State) : Host.Outcome State Fault Refusal :=
  done s (wrxMatch n.val chips s)

/-- WRX_WINDOW_END: at the window's end, or when the entry's next occurrence is due to begin its preparation (R332). -/
def wrxWindowEnd (n : Nat) (s : State) : State :=
  match (vget s.uhf.wrx n Wrx.reset).entry with
  | none => s
  | some i => match ttGet s i with
    | none => s
    | some e =>
      let next := (nextDue e e.start).due
      let past := e.periodic && (e.count = 0 || decide (1 < e.remain)) && e.sig.isNone && decide (s48 next (now48 s) ≤ 300000)
      if e.kind ≠ 7 || e.st != .running || !(reachedXo s e.endAt || past) then s
      else
        let s := { s with uhf.wrx := vmod s.uhf.wrx n (fun w => if past then { w with entry := some i } else { w with on := false, entry := none }) }
        entryEnd i e .ok [] s

def execWrxWindowEnd (n : Fin 6) (s : State) : Host.Outcome State Fault Refusal := done s (wrxWindowEnd n.val s)

/-! ### Transceiver states (R314, R315, R322) -/

/-- TRX_SLEEP_TIMEOUT: 1 ms in Standby with no preparation. -/
def trxSleep (n : Nat) (s : State) : State :=
  let t := trxGet s n
  if t.st == .standby && (match t.sleepAt with | some t => reachedXo s t | none => false) && !trxWanted s n then trxDown n s
  else s

def execTrxSleepTimeout (n : Fin 2) (s : State) : Host.Outcome State Fault Refusal := done s (trxSleep n.val s)

/-- The entry that prepares on a transceiver. -/
def trxPreparing (s : State) (n : Nat) : Option (Nat × Entry) :=
  (ttAll s).find? (fun x => x.2.active && x.2.st != .running && x.2.trxs.contains n)

/-- TRX_LOCK_TIMEOUT (R322): the oscillator calibration is repeated; when lock fails a second time the action ends with
NOT_READY, and the next one starts from Sleep. -/
def trxLockTimeout (n : Nat) (relocked : Bool) (s : State) : State :=
  let t := trxGet s n
  match trxPreparing s n with
  | none => s
  | some (i, e) =>
    if t.st != .synth || t.retried then s
    else
      let s := evUhf 1 (trxMod n (fun t => { t with retried := true }) s)
      let e := { e with flags := e.flags % 2 + 2 }
      if relocked then
        let s := ttPut i (some e) s
        if e.kind = 5 && e.isDue s then evUhf 3 s else s
      else
        let s := dtc (0xB73100 + n) (evUhf 2 s)
        let e := markStart s e
        entryEnd i e .notReady (cutResult s e .notReady) (trxDown n s)

def execTrxLockTimeout (n : Fin 2) (relocked : Bool) (s : State) : Host.Outcome State Fault Refusal :=
  done s (trxLockTimeout n.val relocked s)

/-! ### Calibration (R317 to R320) -/

/-- UHF is powered for calibration: Run outside ride-through and below T_OFF. -/
def uhfOn (s : State) : Bool := s.pwr.st == .run && s.sup.region != .ride && !s.sup.thermOff && s.boot.ready

/-- Degrees plus 64 in a byte (R344). -/
def calTempCode (t : Int) : Nat := min 255 (t + 64).toNat

/-- Bands of a transceiver due for calibration after a temperature reading (R318). -/
def tempDue (s : State) (n : Nat) (temp : Int) (t : Trx) : BitVec 4 :=
  (List.range 4).foldl (fun d b =>
    if t.valid.getLsbD b && fitted s n b && ((calTempCode temp : Int) - vget t.temp b 0).natAbs > raTstep s.set.radio then
      d ||| onBit 4 b else d) t.due

/-- CAL_TEMPERATURE_READ: bands whose temperature has moved by more than CAL_TSTEP fall due; in HOLDOVER
the clock takes the rate of the temperature read (R177). -/
def calTemperature (t : Int) (s : State) : State :=
  let s := { s with uhf.temp := t }
  let s := if s.clk.mode == .holdover then holdover s else s
  [0, 1].foldl (fun s n => trxMod n (fun x => { x with due := tempDue s n t x }) s) s

def execCalTemperatureRead (tempC : Int) (s : State) : Host.Outcome State Fault Refusal := done s (calTemperature tempC s)

/-- A preparation on the transceiver is due to begin within t_cal + 10 µs (R319). -/
def prepSoon (s : State) (n : Nat) : Bool :=
  (ttAll s).any (fun x => x.2.trxs.contains n && x.2.st != .suspended && x.2.st != .running
    && decide (s48 x.2.due (now48 s) ≤ (lead s x.2 : Int) + 410000))

/-- UHF_CAL_START in an idle gap. -/
def calStart (n band : Nat) (s : State) : State :=
  let t := trxGet s n
  if uhfOn s && t.due.getLsbD band && t.cal.isNone && (t.st == .sleep || t.st == .standby) && !prepSoon s n then
    trxMod n (fun t => { trxWake t with st := .synth, lock := none, sleepAt := none, cal := some (band, s.xo + tUs 400) }) s
  else s

def execUhfCalStart (n : Fin 2) (band : Fin 4) (s : State) : Host.Outcome State Fault Refusal :=
  done s (calStart n.val band.val s)

/-- Values of the four steps after calibration `no`: a step that passes takes the new value, one that fails keeps the one it
had (R320). -/
def calVals (no : Nat) (failed : BitVec 4) (old : Vector Nat 4) : Vector Nat 4 :=
  Vector.ofFn (fun j => if failed.getLsbD j.val then vget old j.val 0 else no)

/-- The action in preparation on the transceiver whose band is still due goes on to its own calibration (R319). -/
def calNext (n : Nat) (s : State) : State :=
  match trxPreparing s n with
  | none => s
  | some (_, e) =>
    match bandOf (uhfFreq s e) with
    | some b => trxMod n (fun t =>
        if e.flags % 2 = 1 && t.due.getLsbD b then { t with st := .synth, cal := some (b, s.xo + tUs 400) } else t) s
    | none => s

/-- UHF_CAL_COMPLETE: the band is calibrated; a failing step sets CAL_FAIL, its event and DTC (R320). -/
def calComplete (n : Nat) (failed : BitVec 4) (s : State) : State :=
  match (trxGet s n).cal with
  | none => s
  | some (b, _) =>
    let temp := calTempCode s.uhf.temp
    let bad := decide (failed ≠ 0)
    let s := trxMod n (fun t => { t with
      cal := none, valid := t.valid ||| onBit 4 b, due := t.due &&& ~~~(onBit 4 b),
      fail := if bad then t.fail ||| onBit 4 b else t.fail &&& ~~~(onBit 4 b),
      temp := vset t.temp b temp, calNo := t.calNo + 1,
      vals := vset t.vals b (calVals (t.calNo + 1) failed (vget t.vals b (Vector.ofFn (fun _ => 0)))) }) s
    let s := if bad then dtc (0xB73200 + n) (evUhf 0 s)
      else if (trxGet s n).fail = 0 then dtcClear (0xB73200 + n) s else s
    calNext n (trxFree n s)

def execUhfCalComplete (n : Fin 2) (failed : BitVec 4) (s : State) : Host.Outcome State Fault Refusal :=
  done s (calComplete n.val failed s)

/-- Fitted bands that a request names, with those already due. -/
def bandsAsked (s : State) (w n : Nat) (due : BitVec 4) : BitVec 4 :=
  (List.range 4).foldl (fun d b => if w.testBit (2 + b) && fitted s n b then d ||| onBit 4 b else d) due

/-- A calibration request: TRX mask in bits 1:0, bands in bits 5:2 (R318, R343); unfitted bands are ignored. -/
def calRequest (w : Nat) (s : State) : State :=
  [0, 1].foldl (fun s n =>
    if w.testBit n then
      trxMod n (fun t => { t with due := bandsAsked s w n t.due }) s
    else s) s

/-- A write of UHF_CAL_CMD with its key (R343). -/
def uhfCalWord (w : Word) (s : State) : State := if w.toNat / 65536 = 0xCA1B then calRequest w.toNat s else s

end Sys2Proof.Machine
end

