-- ==== Sys2Proof/Machine/Checks.lean ====
section
/-! DEFINITION. Content checks of the image sections (R114, verdict 9) and of run-time blocks (R198, R240, R276, R338, R363,
R558). A check reads the sections that would be in force together. -/

namespace Sys2Proof.Machine

/-- A field within bounds. -/
def rg (v lo hi : Nat) : Bool := lo ≤ v && v ≤ hi

/-- A signed field within bounds. -/
def rgI (v lo hi : Int) : Bool := decide (lo ≤ v) && decide (v ≤ hi)

/-- No two spans (offset, length) overlap. -/
def disjoint : List (Nat × Nat) → Bool
  | [] => true
  | a :: r => r.all (fun b => a.1 + a.2 ≤ b.1 || b.1 + b.2 ≤ a.1) && disjoint r

/-- Every element of a list is different. -/
def distinctB {α : Type} [BEq α] : List α → Bool
  | [] => true
  | a :: r => !r.contains a && distinctB r

/-- The first `n` numbers all satisfy `f`. -/
def upTo (n : Nat) (f : Nat → Bool) : Bool := (List.range n).all f

/-! ### Channel words and scan blocks (R240) -/

/-- Channel words of a pattern or frame: mapped, once each, reserved bits 0, the current within the cap. -/
def wordsOk (ant b : Bytes) (off n ifs : Nat) : Bool :=
  let ws := chWords b off n
  let k := (drivenWords ws).length
  let cap := if k ≤ 4 then 2000 else 500
  upTo n (fun i => u32 b (off + 4 * i) < 2 ^ 22)
    && ws.all (fun w => ant != [] && antMapped ant w.ch && ifs * w.a ≤ 1023 * min (antILimit ant w.ch) cap)
    && distinctB (ws.map (·.ch))

/-- Patterns from an offset: each lies in the block; the end is the block's. -/
def patternsOk (ant b : Bytes) (ifs : Nat) : Nat → Nat → Bool
  | off, 0 => off = b.length
  | off, n + 1 =>
    off + 2 ≤ b.length && u8 b off ≤ 16 && u8 b (off + 1) = 0 && off + 2 + 4 * u8 b off ≤ b.length
      && wordsOk ant b (off + 2) (u8 b off) ifs && patternsOk ant b ifs (off + 2 + 4 * u8 b off) n

/-- A scan block (R240). -/
def scanOk (c : Settings) (b : Bytes) : Bool :=
  b.length ≥ 8 && rg (scanCount b) 1 64 && scanDwell b ≥ 16 && rg (scanIfs b) 50 2000
    && (scanPreamble b = 0xFFFF || scanPreamble b < klFrames c.keylink) && u16 b 6 = 0
    && patternsOk c.antenna b (scanIfs b) 8 (scanCount b)

/-- Length of the scan block that begins a byte string: its patterns end it. -/
def scanLenFrom (b : Bytes) : Nat → Nat → Nat
  | off, 0 => off
  | off, n + 1 => scanLenFrom b (off + 2 + 4 * u8 b off) n

def scanLen (b : Bytes) : Nat := scanLenFrom b 8 (scanCount b)

/-! ### Frame blocks (R276, R277) -/

def frameOk (c : Settings) (f : Bytes) : Bool :=
  let wake := fbType f = 1
  let listen := fbListen f
  f.length ≥ 12 && fbType f ≤ 1 && (listen ≤ 15 || listen = 255) && rg (fbIfs f) 50 2000
    && (if wake then fbLen f = 3 else rg (fbLen f) 1 32) && fbRMin f ≤ 32 && rg (fbRMax f) (fbRMin f) 32 && u8 f 7 ≤ 1
    && rg (fbN f) 1 16 && allZero (sl f 9 3) && f.length = 12 + 4 * fbN f + fbLen f
    && (listen = 255 || (drivenWords (fbWords f)).any (fun w => w.ch = listen))
    && (!wake || (listen = 255 && u8 f (12 + 4 * fbN f) < 64)) && (listen ≠ 255 || fbRMax f = 0)
    && wordsOk c.antenna f 12 (fbN f) (fbIfs f)

/-- Length of the frame block that begins a byte string. -/
def frameLen (f : Bytes) : Nat := 12 + 4 * fbN f + fbLen f

/-! ### UHF blocks (R308, R312, R338) -/

/-- The 24-byte profile; the band is checked apart. -/
def profOk (p : Bytes) : Bool :=
  let ask := prMod p ≤ 1
  let b4 := bandOf (prFreq p) = some 3
  p.length ≥ 24 && (bandOf (prFreq p)).isSome && prMod p ≤ 3 && prCoding p ≤ 1
    && (if b4 then !ask && rg (prRate p) 250000 2000000 else if ask then rg (prRate p) 600 50000 else rg (prRate p) 600 500000)
    && (if ask then prDev p = 0 else rg (prDev p) 1 10000) && rg (prBw p) 10 2500
    && rgI (prPower p) (-40) (if b4 then 20 else 28) && rg (prPre p) 8 64 && (prSyncLen p = 16 || prSyncLen p = 32)
    && prSyncErr p ≤ 3 && (if prMod p = 0 then rg (prDepth p) 20 90 else prDepth p = 0) && u8 p 19 = 0
    && (prCoding p = 0 || !ask || 2 * prRate p ≤ 100000)

/-- A window plan, apart from its band. -/
def winOk (p : Bytes) : Bool :=
  p.length = 32 && profOk p && rg (winLen p) 50 10000000 && winMax p ≥ 1 && allZero (sl p 29 3)

/-- A telegram block, apart from its band. -/
def telOk (p : Bytes) : Bool :=
  p.length ≥ 32 && profOk p && telWin p ≤ 1000000 && telLen p ≥ 1 && allZero (sl p 29 3) && p.length = 32 + telLen p

/-- A band is fitted on the port of a transceiver in a RADIO section. -/
def bandOn (radio : Bytes) (trx : Nat) (p : Bytes) : Bool :=
  match bandOf (prFreq p) with
  | some b => radio != [] && (raBands radio trx).testBit b
  | none => false

/-! ### The ranging block (R363) and the frame-send block (R558) -/

/-- R363: 16 bytes, the slot the descriptor names. -/
def rangingBlockOk (b : Bytes) (slot : Nat) : Bool :=
  b.length = 16 && u8 b 0 = slot && allZero (sl b 2 2) && allZero (sl b 12 4)

/-- R558, with the page and the UNIT of its entry. -/
def frameSendOk (s : State) (page unit : Nat) (b : Bytes) : Bool :=
  let permit := bit (u8 b 3) 0
  b.length ≥ 8 && b.length = 8 + u16 b 0 && u8 b 2 ≤ 7 && u8 b 3 ≤ 1 && allZero (sl b 4 4)
    && (if permit then page = 0 && u16 b 0 = 36
        else unit ≤ 7 && rg (u16 b 0) 60 1518 && sl b 14 6 = nwDevMac (netSec s))

/-! ### ANTENNA (R236 to R238, R352) -/

/-- Q16.16 ranges of the coefficients. -/
def coefRange : List (Int × Int) :=
  [(0, 65536000), (-65536, 65536), (-65536, 65536), (-65536, 65536), (-8192, 8192), (-8192, 8192), (-65536, 65536),
   (-65536, 65536), (0, 262144), (0, 1310720), (-327680, 327680), (-65536, 65536), (3277, 65536), (-32768, 32768),
   (32768, 3276800), (6554, 393216)]

/-- Follow references; a path longer than 16 is a cycle. -/
def refEnds (b : Bytes) : Nat → Nat → Bool
  | 0, _ => false
  | n + 1, ch => if antRef b ch = 255 || antRef b ch = ch then true else refEnds b n (antRef b ch)

def antChannelOk (b : Bytes) (ch : Nat) : Bool :=
  let o := antRec b ch
  rg (u16 b o) 11000 14000 && rg (antILimit b ch) 50 2000 && (antRef b ch = 255 || antMapped b (antRef b ch))
    && antFlags b ch ≤ 3
    && upTo 16 (fun j => let r := coefRange.getD j (0, 0); rgI (antCoef b ch j) r.1 r.2)
    && refEnds b 17 ch

/-- A ping set (R237). -/
def pingOk (b : Bytes) (i : Nat) : Bool :=
  let p := sl b (antPing b i) 8
  antMapped b (u8 p 0) && rg (u8 p 1) 16 64 && rg (u16 p 2) 20 500 && rg (u16 p 4) 1 1023 && rg (u8 p 6) 1 127
    && rg (u8 p 7) 2 8

def antennaOk (c : Settings) : Bool :=
  let b := c.antenna
  let t := antTail b
  let scans := (List.range (antScans b)).map (fun i => (u16 b (antScanDir b i), u16 b (antScanDir b i + 2)))
  b.length ≤ 2048 && b.length ≥ 12 && b.length ≥ t + 8 && rg (antVdrv b) 80 240
    && (antChannels b).all (antChannelOk b) && ((antChannels b).filter (fun ch => antRef b ch = ch)).length ≤ 1
    && rg (antCarrier b) 11000 14000 && antPings b ≤ 4 && antScans b ≤ 8 && rg (antDetune b) 0x100 0x400 && u16 b (t + 6) = 0
    && t + 8 + 8 * antPings b + 4 * antScans b ≤ b.length
    && upTo (antPings b) (pingOk b)
    && scans.all (fun x => x.1 ≥ t + 8 + 8 * antPings b + 4 * antScans b && x.1 + x.2 ≤ b.length && scanOk c (sl b x.1 x.2))
    && disjoint scans

/-! ### ZONES (R359) -/

/-- Twice the signed area of a triangle. -/
def orient (a b p : Int × Int) : Int := (b.1 - a.1) * (p.2 - a.2) - (b.2 - a.2) * (p.1 - a.1)

/-- A point on the line of a segment lies within it. -/
def within (a b p : Int × Int) : Bool :=
  decide (min a.1 b.1 ≤ p.1) && decide (p.1 ≤ max a.1 b.1) && decide (min a.2 b.2 ≤ p.2) && decide (p.2 ≤ max a.2 b.2)

/-- Two segments share a point. DEDUCED, log 43. -/
def segMeet (e f : (Int × Int) × (Int × Int)) : Bool :=
  let d1 := orient e.1 e.2 f.1
  let d2 := orient e.1 e.2 f.2
  let d3 := orient f.1 f.2 e.1
  let d4 := orient f.1 f.2 e.2
  (d1 * d2 < 0 && d3 * d4 < 0) || (d1 = 0 && within e.1 e.2 f.1) || (d2 = 0 && within e.1 e.2 f.2)
    || (d3 = 0 && within f.1 f.2 e.1) || (d4 = 0 && within f.1 f.2 e.2)

/-- Consecutive edges fold back onto each other. -/
def foldBack (e f : (Int × Int) × (Int × Int)) : Bool :=
  orient e.1 e.2 f.2 = 0 && decide ((e.1.1 - e.2.1) * (f.2.1 - e.2.1) + (e.1.2 - e.2.2) * (f.2.2 - e.2.2) > 0)

/-- A polygon does not intersect itself. -/
def polyOk (v : List (Int × Int)) : Bool :=
  let es := edges v
  let n := es.length
  upTo n (fun i => upTo n (fun j =>
    let e := es.getD i ((0, 0), (0, 0))
    let f := es.getD j ((0, 0), (0, 0))
    if i ≥ j then true
    else if j = i + 1 then !foldBack e f
    else if i = 0 && j + 1 = n then !foldBack f e
    else !segMeet e f))

def zonesOk (c : Settings) : Bool :=
  let b := c.zones
  b.length ≤ 4096 && b.length ≥ 4 && rg (znCount b) 1 32 && allZero (sl b 1 3) && b.length ≥ 4 + 72 * znCount b
    && upTo (znCount b) (fun i =>
      let z := znRec b i
      u8 z 0 ≤ 15 && rg (u8 z 1) 3 16 && u8 z 3 = 0 && decide (s16 z 4 < s16 z 6) && allZero (z.drop (8 + 4 * u8 z 1))
        && polyOk (znVerts z))

/-! ### TIMETABLE (R196, R197) -/

/-- UNIT and ACTION_REF of a settings entry. -/
def refOk (c : Settings) (e : Bytes) : Bool :=
  let r := enRef e
  let u := enUnit e
  match enKind e with
  | 1 => u = 0 && r < klFrames c.keylink
  | 2 => u ≤ 15 && c.antenna != [] && r < antPings c.antenna && u8 c.antenna (antPing c.antenna r) = u
  | 3 => u = 0 && c.antenna != [] && r < antScans c.antenna
  | 4 => u ≤ 1 && r < raWins c.radio
  | 5 => u ≤ 1 && r < raTels c.radio
  | 7 => u ≤ 5 && r < raPats c.radio && patWrx (raPat c.radio r) = u
  | 8 => rg u 4 31 && r ≤ 256
  | 9 => u ≤ 3 && rg r 1 (2 ^ 24 - 1)
  | _ => false

def entryOk (c : Settings) (e : Bytes) : Bool :=
  let f := enFlags e
  let k := enKind e
  bit f 0 && !bit f 1 && (bit f 2 || bit f 3) && f / 16 % 4 ≠ 3 && (!bit f 3 || k = 1 || k = 2 || k = 4 || k = 7)
    && enTime e < enPeriod e * 1000 && enPeriod e ≥ 10 && rg (enMin e) 10 (enPeriod e) && refOk c e && u8 e 3 = 0
    && u32 e 28 = 0 && enTime e < 2 ^ 48

/-- Count, reserved bytes, and each entry; at most 240 settings entries (R194). -/
def timetableOk (c : Settings) : Bool :=
  let b := c.timetable
  b.length ≤ 8196 && b.length ≥ 4 && ttCount b ≤ 240 && u16 b 2 = 0 && b.length ≥ 4 + 32 * ttCount b
    && upTo (ttCount b) (fun i => entryOk c (ttRec b i))

/-! ### KEYLINK, RADIO, RANGING -/

def keylinkOk (c : Settings) : Bool :=
  let b := c.keylink
  let dir := (List.range (klFrames b)).map (fun i => (u16 b (4 + 4 * i), u16 b (6 + 4 * i)))
  b.length ≤ 1024 && b.length ≥ 4 && rg (u16 b 0) 16 256 && u16 b 0 % 16 = 0 && u8 b 2 ≤ 8 && klFrames b ≤ 32
    && b.length ≥ 4 + 4 * klFrames b
    && dir.all (fun x => x.1 ≥ 4 + 4 * klFrames b && x.1 + x.2 ≤ b.length && frameOk c (sl b x.1 x.2)) && disjoint dir

/-- Entries of the timetable. -/
def ttRecs (c : Settings) : List Bytes :=
  if c.timetable = [] then [] else (List.range (ttCount c.timetable)).map (ttRec c.timetable)

/-- Transceivers an entry pairs with plan i of a kind. -/
def pairsOf (c : Settings) (kind i : Nat) : List Nat :=
  (ttRecs c).filterMap (fun e => if enKind e = kind && enRef e = i then some (enUnit e) else none)

/-- Transceivers that pattern plans pair with window plan i. -/
def pairsPat (b : Bytes) (i : Nat) : List Nat :=
  ((List.range (raPats b)).map (raPat b)).filterMap (fun p => if patTrx p ≠ 255 && patWin p = i then some (patTrx p) else none)

/-- A plan's band is fitted where it is paired, or anywhere when nothing pairs it (R339). -/
def planBand (b p : Bytes) (pairs : List Nat) : Bool :=
  if pairs = [] then bandOn b 0 p || bandOn b 1 p else pairs.all (fun t => bandOn b t p)

/-- A pattern plan (R331, R338). -/
def patOk (b p : Bytes) : Bool :=
  patWrx p ≤ 5 && (raWrxEn b).testBit (patWrx p) && rg (patLen p) 8 64 && rg (patRate p) 1000 20000 && patMiss p ≤ 7
    && 4 * patMiss p < patLen p && (patTrx p ≤ 1 || patTrx p = 255) && u8 p 7 = 0 && patPattern p < 2 ^ patLen p
    && rg (patListen p) 1000 10000000 && u32 p 20 = 0
    && patWin p < raWins b && (patTrx p = 255 || bandOn b (patTrx p) (raWin b (patWin p)))

def radioOk (c : Settings) : Bool :=
  let b := c.radio
  let fixed := 16 + 32 * raWins b + 24 * raPats b + 4 * raTels b
  let dir := (List.range (raTels b)).map (fun i => (u16 b (raTelDir b i), u16 b (raTelDir b i + 2)))
  b.length ≤ 4096 && b.length ≥ 16 && u8 b 0 ≤ 15 && u8 b 1 ≤ 15 && rg (raTstep b) 1 20 && raWins b ≤ 32 && raPats b ≤ 12
    && raTels b ≤ 32 && raWrxEn b < 64 && allZero (sl b 7 9) && b.length ≥ fixed
    && upTo (raWins b) (fun i => winOk (raWin b i) && planBand b (raWin b i) (pairsOf c 4 i ++ pairsPat b i))
    && upTo (raPats b) (fun i => patOk b (raPat b i))
    && dir.all (fun x => x.1 ≥ fixed && x.1 + x.2 ≤ b.length && telOk (sl b x.1 x.2)) && disjoint dir
    && upTo (raTels b) (fun i => planBand b (raTel b i) (pairsOf c 5 i))

def rangingOk (c : Settings) : Bool :=
  let b := c.ranging
  b.length = 48 && rg (rgF0 b) 2401 2411 && rg (rgCtrl b) 2402 2480 && rgI (rgPower b) (-40) 20 && rg (rgLin b) 4 64
    && rg (rgCoarse b) 100 600 && rg (rgAgree b) 25 300 && upTo 3 (fun i => rg (rgDist b i) 50 2000) && allZero (b.drop 40)

/-! ### NETWORK (R564 to R566) -/

/-- Sum of the intervals of gate entries. -/
def gateSum (b : Bytes) (first n : Nat) : Nat :=
  ((List.range n).map (fun i => u32 (netRec b 1 4 (first + i)) 0 / 256)).sum

/-- A gate list: its entries exist, and their intervals sum to the cycle. -/
def gatesOk (b : Bytes) (first n cycle phase : Nat) : Bool :=
  first + n ≤ (netDir b 1).2 && rg cycle 10000 1000000000 && phase < cycle && gateSum b first n = cycle

def portOk (b : Bytes) (p : Nat) : Bool :=
  let r := nwPort b p
  let gated := bit (u8 r 5) 4
  rg (u16 r 0) 1 4094 && u8 r 5 < 32 && u16 r 10 = 0 && !(p ≥ 6 && gated)
    && rg (u16 r 8) 1 128 && rg (u32 r 12) 10000 1000000000 && u32 r 16 < u32 r 12
    && (!gated || gatesOk b (u16 r 6) (u16 r 8) (u32 r 12) (u32 r 16))
    && (if p ≤ 5 then u8 r 28 = 255 else (u8 r 28 ≤ 15 || u8 r 28 = 255) && (u8 r 28 ≠ 0 || rg (u8 r 29) 1 16))
    && u8 r 30 ≥ 1

/-- Nominal and data bit rate of a CAN record, bit/s × 10^0 as cross products. -/
def canOk (b : Bytes) (r : Bytes) : Bool :=
  let nq := u8 r 2 * (1 + u16 r 4 + u8 r 6)
  let dq := u8 r 7 * (1 + u8 r 8 + u8 r 9)
  b.length ≥ 64 && u8 r 0 ≤ 1 && u8 r 1 < 8 && rg (u8 r 2) 1 32 && rg (u16 r 4) 2 256 && rg (u8 r 6) 1 128
    && rg (u8 r 3) 1 (u8 r 6) && u8 r 11 = 0 && u32 r 12 < 2 ^ 29 && (bit (u8 r 1) 2 || u32 r 12 ≤ 0x7FF)
    && 125000 * nq ≤ 40000000 && 40000000 ≤ 1000000 * nq
    && rg (u8 r 7) 1 32 && rg (u8 r 8) 1 32 && rg (u8 r 9) 1 16 && rg (u8 r 10) 1 (u8 r 9)
    && dq ≤ nq && 40000000 ≤ 8000000 * dq

/-- Records of a sub-table. -/
def netRecs (b : Bytes) (i len : Nat) : List Bytes := (List.range (netDir b i).2).map (netRec b i len)

def netLens : List Nat := [32, 4, 8, 12, 12, 16, 12, 8, 16]
def netMax : List Nat := [8, 2048, 64, 4096, 2048, 64, 256, 16, 2]

def flowOk (b r : Bytes) : Bool :=
  u8 r 1 < 128 && (!bit (u8 r 10) 6 || u8 r 10 % 64 < (netDir b 5).2) && (!bit (u8 r 10) 7 || u8 r 11 < (netDir b 6).2)

def networkOk (c : Settings) : Bool :=
  let b := c.network
  let statics := (netRecs b 3 12).map (fun r => addrSet (r.take 6) (u16 r 6))
  let permits := nwPermitPorts b
  b.length ≤ 32768 && b.length ≥ 64 && u8 b 1 < 4 && u8 b 2 < 16 && u8 b 3 < 16 && permits < 64
    && upTo 6 (fun p => !permits.testBit p || (u8 b 0).testBit p)
    && rg (nwPermitVid b) 1 4094 && (permits = 0 || macGroup (nwPermitDa b)) && !macGroup (nwDevMac b)
    && rg (nwAge b) 10 1000000 && rg (nwP8Rate b) 10 1000 && nwCanPermit b < 4 && u8 b 27 = 0
    && upTo 9 (fun i => (netDir b i).2 ≤ netMax.getD i 0 && ((netDir b i).2 = 0 ||
        ((netDir b i).1 ≥ 64 && (netDir b i).1 + netLens.getD i 0 * (netDir b i).2 ≤ b.length)))
    && (netDir b 0).2 = 8 && (netDir b 2).2 ≥ 1 && upTo 8 (portOk b)
    && ((List.range 8).map (fun p => ((List.range 8).map (fun q => u8 (nwPort b p) (20 + q))).sum)).sum ≤ 8192
    && (netRecs b 1 4).all (fun r => u32 r 0 ≥ 256)
    && (netRecs b 2 8).all (fun r => rg (u16 r 0) 1 4094 && u16 r 2 < 512 && u16 r 4 < 512 && u16 r 6 = 0)
    && (netRecs b 3 12).all (fun r => u16 r 8 < 512 && u16 r 10 = 0)
    && statics.all (fun x => (statics.filter (· = x)).length ≤ 4)
    && (netRecs b 4 12).all (flowOk b)
    && (netRecs b 5 16).all (fun r => rg (u8 r 2) 1 16 && u8 r 3 = 0 && u32 r 12 = 0
        && gatesOk b (u16 r 0) (u8 r 2) (u32 r 4) (u32 r 8))
    && (netRecs b 7 8).all (fun r => u16 r 0 < (netDir b 4).2 && rg (u8 r 2) 1 32 && u8 r 3 ≥ 1 && u32 r 4 = 0)
    && (netRecs b 8 16).all (canOk b) && distinctB ((netRecs b 8 16).map (fun r => u8 r 0))
    && upTo 2 (fun n => !(nwCanPermit b).testBit n || (netRecs b 8 16).any (fun r => u8 r 0 = n && bit (u8 r 1) 0))

/-! ### TIME (R159, R163) -/

/-- Role combinations (R162): an end station and a bridge have a slave port, an end station no master ports; a grandmaster has no slave
port and no redundant domain. -/
def timeRoles (b : Bytes) : Bool :=
  let plain (role slave master : Nat) : Bool := slave ≤ 7 && (role = 1 || master = 0)
  if u8 b 2 = 2 then u8 b 4 = 255 && u8 b 1 = 255
  else plain (u8 b 2) (u8 b 4) (u8 b 6) && (u8 b 1 = 255 || plain (u8 b 3) (u8 b 5) (u8 b 7))

def timeOk (c : Settings) : Bool :=
  let b := c.time
  b.length = 128 && u8 b 0 ≤ 127 && (u8 b 1 ≤ 127 || u8 b 1 = 255) && u8 b 0 ≠ u8 b 1 && u8 b 2 ≤ 2 && u8 b 3 ≤ 1
    && (u8 b 4 ≤ 7 || u8 b 4 = 255) && (u8 b 5 ≤ 7 || u8 b 5 = 255) && rgI (s8 b 8) (-5) 0 && rgI (s8 b 9) (-3) 3
    && rg (u8 b 10) 2 10 && u16 b 12 ≥ 1 && u16 b 14 ≥ 1 && rg (u16 b 16) 10 10000 && rg (u16 b 18) 10 10000
    && timeRoles b && rg (u16 b 20) 10 6000 && rg (u16 b 22) 1 100 && rg (u32 b 24) 1000 1000000000 && u16 b 30 = 0
    && upTo 8 (fun p => p ≤ 1 || u32 b (32 + 12 * p) = 0)

/-! ### DIAG (R598, R599) -/

/-- DIDs of R597 other than 0xF190. -/
def didFixed (d : Nat) : Bool :=
  [0xF187, 0xF189, 0xF18C, 0xF1A0, 0xF1A1, 0xF1A2, 0xF1A3, 0xF1C0].contains d || rg d 0xF1B0 0xF1BF || rg d 0xF200 0xF2FF

/-- Constant DIDs lie in the section. -/
def didsFit (b : Bytes) : Nat → Nat → Bool
  | off, 0 => off ≤ b.length
  | off, n + 1 => off + 3 ≤ b.length && rg (u8 b (off + 2)) 1 32 && didsFit b (off + 3 + u8 b (off + 2)) n

def diagOk (c : Settings) : Bool :=
  let b := c.diag
  let net := if c.network = [] then defaultNetwork else c.network
  let can := dgCan b
  let ids := [dgReqId b, dgRespId b, dgFuncId b]
  let recOf (n : Nat) : Option Bytes := (netRecs net 8 16).find? (fun r => u8 r 0 = n)
  let grants := (List.range 7).map (fun i => (u32 (dgPage b (i + 1)) 0, u32 (dgPage b (i + 1)) 4))
  let dids := dgDidList b
  b.length ≤ 8192 && b.length ≥ 256 && rg (u8 b 4) 8 30 && can < 16 && can % 4 ≠ 0
    && upTo 2 (fun n => !can.testBit n || (match recOf n with | some r => !bit can 2 || bit (u8 r 1) 0 | none => false))
    && rg (dgVid b) 1 4094 && rg (dgLa b) 1 0x0DFF && dgAspPort b ≥ 1024
    && ids.all (fun i => i < 2 ^ 29 && (bit can 3 || i ≤ 0x7FF) && !(netRecs net 8 16).any (fun r => u32 r 12 = i))
    && dgAnchors b ≤ 4 && dgDids b ≤ 64 && u16 b 30 = 0
    && grants.all (fun g => g.1 % 4096 = 0 && g.1 < 0x380000 && g.2 % 4096 = 0 && g.1 + g.2 ≤ 0x380000)
    && disjoint (grants.filter (fun g => g.2 ≠ 0))
    && upTo 7 (fun i => let r := dgPage b (i + 1)
        (u8 r 24 ≤ 55 || u8 r 24 = 255) && (i < 5 || u8 r 24 = 255) && allZero (sl r 25 7))
    && b.length ≥ 256 + 520 * dgAnchors b
    && upTo (dgAnchors b) (fun i => u8 (dgAnchor b i) 516 < 32 && allZero (sl (dgAnchor b i) 517 3))
    && didsFit b (256 + 520 * dgAnchors b) (dgDids b) && distinctB (dids.map (·.1)) && dids.all (fun d => !didFixed d.1)

/-! ### POLICY (R136, R501) -/

def policyOk (c : Settings) : Bool :=
  let b := c.policy
  let mode := poPinMode b
  (b.length = 16 || b.length ≥ 56) && b.length ≤ 1024 && poWakeHeath b < 2048 && poWakeFallow b &&& 0xF700 = 0
    && rg (poDebounce b) 1 200 && u16 b 14 = 0
    && (b.length = 16 ||
      (upTo 4 (fun i => mode i ≤ 2 || (mode i = 3 && i % 2 = 0) || (mode i = 4 && i % 2 = 1))
        && upTo 2 (fun i => (mode (2 * i) = 3) == (mode (2 * i + 1) = 4)) && u32 b 20 = 0
        && upTo 8 (fun i => u8 b (24 + 4 * i) < 64 && poFirst b i ≤ 4 && poLater b i ≤ 4 && u8 b (26 + 4 * i) < 16
            && poAction b i < 4)
        && upTo 4 (fun i => !(mode i = 3 || mode i = 0) || u32 b (24 + 4 * i) = 0)))

/-- Every section that is present passes its content check. -/
def settingsOk (c : Settings) : Bool :=
  (c.antenna = [] || antennaOk c) && (c.zones = [] || zonesOk c) && (c.timetable = [] || timetableOk c)
    && (c.keylink = [] || keylinkOk c) && (c.radio = [] || radioOk c) && (c.ranging = [] || rangingOk c)
    && (c.network = [] || networkOk c) && (c.time = [] || timeOk c) && (c.diag = [] || diagOk c)
    && (c.policy = [] || policyOk c)

end Sys2Proof.Machine
end

