-- ==== Sys2Proof/Machine/Jobs.lean ====
section
/-! DEFINITION. Job rings (R410 to R431): configuration, submission, the fetch arbiter, sequence numbers, the checks of
R420, completion; the jobs that create timetable entries (R198) and the field solver's job (R354). -/

namespace Sys2Proof.Machine

/-! ### Host accesses to ring registers (R410 to R415, R435) -/

/-- Address of a register of ring n. -/
def ringAddr (n off : Nat) : Nat := 0x080100 + 0x20 * n + off

/-- The last status other than OK and its word address (R575, R601): CPG1 alone has the SPI registers. -/
def hostNote (page : Nat) (st : Status) (addr : Nat) (s : State) : State :=
  if page ≠ 1 then s
  else if st == .ok then { s with spi.status := .ok }
  else { s with spi.status := st, spi.hostErr := BitVec.ofNat 32 (st.code + 256 * addr) }

/-- A page reaches the registers: after `READY`, in Run; the SPI page while pair B is powered (R101, R576). -/
def pageLive (s : State) (page : Nat) : Bool := s.boot.ready && isRun s && (page ≠ 1 || ppbOn s)

/-- A host request restarts the idle timer (R136). -/
def hostSeen (page : Nat) (s : State) : State := if page = 1 then { s with pwr.idleSince := s.elapsed } else s

/-- Run a register effect of a page and note its status. -/
def hostDo (page addr : Nat) (f : State → Status × State) (s : State) : State :=
  if !pageLive s page then s
  else
    let r := f s
    hostSeen page (hostNote page (if r.1 == .ringFull then .ok else r.1) addr r.2)

/-- PI is written (R413). -/
def ringPiWrite (page ring : Nat) (pi : BitVec 16) (s : State) : Status × State :=
  let r := ringGet s ring
  if ringPage ring ≠ page then (.denied, s)
  else if !r.en || pi = r.pi then (.ok, s)
  else if (pi - r.fi).toNat > depthOf r.depth then (.ringFull, ringMod ring (fun r => { r with full := true }) s)
  else (.ok, ringMod ring (fun r => { r with pi := pi }) s)

/-- CFG is written (R411, R415, R430, R435): while EN is 1 only clearing EN acts. DEDUCED, log 78. -/
def ringCfg (page ring : Nat) (w : Word) (s : State) : Status × State :=
  let r := ringGet s ring
  let en := w.getLsbD 6
  let n := depthOf (w.toNat % 8)
  if ringPage ring ≠ page then (.denied, s)
  else if r.en then
    if en then (.ok, s) else (.ok, ringMod ring (fun r => { r with en := false, credit := 0 }) s)
  else if en && !(inGrant s page r.dbase (64 * n) && inGrant s page r.cbase (32 * n)) then (.denied, s)
  else
    (.ok, ringMod ring (fun r =>
      let r := { r with depth := w.toNat % 8, cls := w.toNat / 8 % 4, gated := w.getLsbD 5 }
      if en then { r with en := true, stopped := false, expect := none } else r) s)

/-- CQ_CI is written: a value beyond CQ_PI is ignored (R435); of a ring that pair B feeds it is recorded (R428). -/
def ringCqCi (page ring : Nat) (ci : BitVec 16) (s : State) : Status × State :=
  if ringPage ring ≠ page then (.denied, s)
  else if (ci - (ringGet s ring).cqPi).toInt > 0 then (.ok, s)
  else (.ok, ringItem ring (.cqCi ring ci) (ringMod ring (fun r => { r with cqCi := ci }) s))

def execRingPiWrite (page : Fin 8) (ring : Fin 32) (pi : BitVec 16) (s : State) : Host.Outcome State Fault Refusal :=
  done s (hostDo page.val (ringAddr ring.val 0x0C) (ringPiWrite page.val ring.val pi) s)

/-- RING_ENABLE: CFG is written with EN set. -/
def execRingEnable (page : Fin 8) (ring : Fin 32) (cfg : Word) (s : State) : Host.Outcome State Fault Refusal :=
  done s (hostDo page.val (ringAddr ring.val 0) (ringCfg page.val ring.val (cfg ||| 0x40)) s)

/-- RING_DISABLE: CFG is written with EN clear. -/
def execRingDisable (page : Fin 8) (ring : Fin 32) (cfg : Word) (s : State) : Host.Outcome State Fault Refusal :=
  done s (hostDo page.val (ringAddr ring.val 0) (ringCfg page.val ring.val (cfg &&& 0xFFFFFFBF)) s)

def execRingCqCiWrite (page : Fin 8) (ring : Fin 32) (ci : BitVec 16) (s : State) : Host.Outcome State Fault Refusal :=
  done s (hostDo page.val (ringAddr ring.val 0x18) (ringCqCi page.val ring.val ci) s)

/-! ### The fetch arbiter (R414, R416) -/

/-- CQ_CI as the engine may use it: the checkpointed one for rings a pair feeds (R428). -/
def cqCiUse (n : Nat) (r : Ring) : BitVec 16 := if n < 4 || r.fedB then r.cqCiCkpt else r.cqCi

/-- Bytes of the descriptor at FI. -/
def descAt (s : State) (n : Nat) : Bytes :=
  let r := ringGet s n
  winRead s (r.dbase + 64 * (r.fi.toNat % depthOf r.depth)) 64

/-- Ring n may fetch now. -/
def canFetch (s : State) (n : Nat) : Bool :=
  let r := ringGet s n
  s.boot.ready && isRun s && (n < 4 || s.pwr.req = 0) && r.en && !r.stopped && r.pi ≠ r.fi && tagAvailable s (ringPage n)
    && tagsRing s n + (r.cqPi - cqCiUse n r).toNat < depthOf r.depth && (!r.gated || r.credit > 0)
    && (!bit (dsFlags (descAt s n)) 2 || tagsRing s n = 0)

/-- Class order, CPG0 first within the urgent class. -/
def fetchRank (s : State) (n : Nat) : Nat :=
  let c := ringClass s n
  if c = 2 then (if n < 4 then 0 else 1) else if c = 1 then 2 else 3

/-- Distance in ring order from the ring fetched last in the class. -/
def fetchDist (s : State) (n : Nat) : Nat := (n + 63 - vget s.job.last (ringClass s n) 31) % 32

/-- The arbiter takes ring n next. -/
def arbNext (s : State) (n : Nat) : Bool :=
  canFetch s n && (List.range 32).all (fun m => m = n || !canFetch s m || fetchRank s n < fetchRank s m
    || (fetchRank s n = fetchRank s m && fetchDist s n < fetchDist s m))

/-! ### Checks of R420 -/

/-- PARAMS of the entry a job carries: its KIND, and the length of its result. -/
def entryResultLen (s : State) (d : Bytes) : Nat :=
  let e := winRead s (dsSrc d) 32
  let r := enRef e
  match dsKind d, enKind e with
  | 6, 1 => 48
  | 6, 3 => 4 + 8 * (if r ≥ 2 ^ 31 then u8 (winRead s (r % 2 ^ 23) 1) 0 else scanCount (antScan s.set.antenna r))
  | 7, 4 => 276
  | 7, 5 => 16
  | _, _ => 0

/-- Result length of an operation (R420, R436, R451, R453, R246, R278, R340, R341, R358, R371). -/
def resultLen (s : State) (d : Bytes) : Nat :=
  let p := dsParams d
  match dsKind d with
  | 1 => if caFunc p = 1 then caCount p else if caDest p = 0 then 16 * caCount p else 0
  | 2 => if bit (u8 p 1) 1 then 64 else 0
  | 3 => if rsOp p = 2 then 672 else if rsOp p = 3 then (match s.ks.identity with | some i => i.2.length | none => 0) else 0
  | 6 => entryResultLen s d
  | 7 => entryResultLen s d
  | 8 => 32
  | 9 => 48
  | _ => 0

/-- The descriptor uses its KEY_SLOT: cipher blocks, pinned verifications, ranging (R436, R452, R363). -/
def usesSlot (d : Bytes) : Bool :=
  let p := dsParams d
  (dsKind d = 1 && caFunc p ≠ 1) || (dsKind d = 3 && rsPin p) || dsKind d = 8

/-- The first failing row of R420, from the second. DEDUCED, log 77. -/
def descCheck (s : State) (page : Nat) (d : Bytes) : Option Status :=
  let k := dsKind d
  if k = 0 || k > 10 || dsFlags d ≥ 8 || dsSrc d ≥ 2 ^ 23 || dsDst d ≥ 2 ^ 23
      || (k ≠ 1 && k ≠ 3 && k ≠ 8 && dsSlot d ≠ 0) || (k = 3 && !rsPin (dsParams d) && dsSlot d ≠ 0)
      || ((k = 6 || k = 7 || k = 8 || k = 10) && !allZero (dsParams d)) then some .badDesc
  else if !inGrant s page (dsSrc d) (dsSrcLen d) || !inGrant s page (dsDst d) (dsDstLen d)
      || (usesSlot d && !ksMask s page (dsSlot d)) then some .denied
  else if dsDstLen d < resultLen s d then some .badDesc
  else if usesSlot d && bit (dsFlags d) 1 && (slotGet s (dsSlot d)).gen ≠ dsGen d then some .keyGone
  else none

/-- Checks a random fill and its zero case end at once (R421, R465). -/
def fillCheck (d : Bytes) : Option Status :=
  if dsKind d ≠ 4 then none
  else if !allZero (dsParams d) || dsSrcLen d ≠ 0 || dsDstLen d > 4096 then some .badDesc
  else if dsDstLen d = 0 then some .ok
  else none

/-- Take a tag for a descriptor, its fetch recorded for the pair that feeds the ring (R428); `res` is what ends the operation
already. -/
def opStart (n : Nat) (d : Bytes) (res : Option Status) (s : State) : State :=
  match s.job.free with
  | [] => s
  | t :: rest =>
    let o : Op := { tag := t, ring := n, page := ringPage n, desc := d, cls := ringClass s n, blocks := 0, suspended := false,
                    wasSuspended := false, key := none, order := s.job.fetched, corrected := false, written := 0,
                    result := res.map (fun st => (st, false, [])) }
    let s := ringItem n (.fetch t (dsSeq d)) s
    let s := { s with job.free := rest, job.ops := s.job.ops ++ [o], job.fetched := s.job.fetched + 1 }
    if tagsShared s ≥ 480 then evJob 1 s else s

/-- The expected SEQ_NO of R427 and the descriptor's. -/
inductive SeqCase where
  | accept
  | duplicate
  | ahead
deriving DecidableEq, Repr

def seqCase (r : Ring) (q : BitVec 32) : SeqCase :=
  match r.expect with
  | none => .accept
  | some e => if q = e then .accept else if (q - e).toInt < 0 then .duplicate else .ahead

/-- One fetch (R414, R417, R427, R430). -/
def fetch (n : Nat) (ecc : Bool) (s : State) : State :=
  let r := ringGet s n
  let d := descAt s n
  let s := { s with job.last := vset s.job.last (ringClass s n) n }
  let s := ringMod n (fun r => { r with fi := r.fi + 1, credit := if r.gated then r.credit - 1 else r.credit }) s
  if ecc then opStart n d (some .eccError) (eccBad 0 (r.dbase + 64 * (r.fi.toNat % depthOf r.depth))
    (evJob 0 (ringMod n (fun r => { r with stopped := true }) s)))
  else match seqCase r (dsSeq d) with
    | .accept =>
      let s := ringMod n (fun r => { r with expect := some (dsSeq d + 1) }) s
      let res := match descCheck s (ringPage n) d with
        | some st => some st
        | none => fillCheck d
      opStart n d res s
    | .duplicate =>
      { (ringMod n (fun r => { r with dup := satInc 127 r.dup }) s) with job.free := s.job.free.drop 1 ++ s.job.free.take 1 }
    | .ahead => opStart n d (some .badDesc) (ringMod n (fun r => { r with seqErr := true }) s)

def descriptorFetch (n : Nat) (ecc : Bool) (s : State) : State := if arbNext s n then fetch n ecc s else s

def execDescriptorFetch (ring : Fin 32) (eccError : Bool) (s : State) : Host.Outcome State Fault Refusal :=
  done s (descriptorFetch ring.val eccError s)

/-! ### Completion (R425, R426, R430) -/

/-- The 32-byte completion entry. -/
def completionEntry (s : State) (o : Op) (st : Status) (late : Bool) (len : Nat) : Bytes :=
  leBytes 2 o.tag ++ leBytes 1 st.code ++ leBytes 1 (b2n late + 2 * b2n o.wasSuspended + 4 * b2n o.corrected)
    ++ leBytes 4 (dsSeq o.desc).toNat ++ leBytes 4 len ++ leBytes 4 0 ++ dsUser o.desc ++ leBytes 6 (now48 s).toNat ++ [0, 0]

/-- The operation's output and entry are written; its tag is free again. -/
def complete (o : Op) (st : Status) (late : Bool) (out : Bytes) (ecc : Bool) (s : State) : State :=
  let r := ringGet s o.ring
  let out := out.take (dsDstLen o.desc)
  let len := if dsKind o.desc = 1 && out = [] then o.written else out.length
  let s := if out = [] then s else winWrite s (dsDst o.desc) out
  let s := winWrite s (r.cbase + 32 * (r.cqPi.toNat % depthOf r.depth)) (completionEntry s o st late len)
  let s := ringMod o.ring (fun r => { r with cqPi := r.cqPi + 1, stopped := r.stopped || ecc }) s
  let s := if ecc then eccBad 0 (r.cbase + 32 * (r.cqPi.toNat % depthOf r.depth)) (evJob 0 s) else s
  let s := ringItem o.ring (.complete o.tag st) s
  let s := { s with job.ops := s.job.ops.filter (fun x => !(x.tag = o.tag)), job.free := s.job.free ++ [o.tag],
                    cip.running := if s.cip.running = some o.tag then none else s.cip.running,
                    cip.hpkRunning := if s.cip.hpkRunning = some o.tag then none else s.cip.hpkRunning }
  if bit (dsFlags o.desc) 0 then note 17 o.ring { s with spi.ringIrq := s.spi.ringIrq ||| onBit 32 o.ring } else s

/-- OPERATION_COMPLETE: once per operation (R426). -/
def operationComplete (tag : Nat) (ecc : Bool) (s : State) : State :=
  match opFind s tag with
  | none => s
  | some o =>
    match o.result with
    | none => s
    | some (st, late, out) => complete o st late out ecc s

def execOperationComplete (tag : Fin 512) (eccError : Bool) (s : State) : Host.Outcome State Fault Refusal :=
  done s (operationComplete tag.val eccError s)

/-! ### Queues of the other engines (R422) -/

/-- Of the operations `p` selects that wait, this one is served next. -/
def engineNext (p : Op → Bool) (s : State) (o : Op) : Bool :=
  s.job.ops.all (fun x => !(p x && x.result.isNone) || x.tag = o.tag || clsRank o < clsRank x
    || (clsRank o = clsRank x && o.order < x.order))

/-- The operation has its timetable entry already. -/
def hasEntry (s : State) (tag : Nat) : Bool := (ttAll s).any (fun x => x.2.owner == .job tag)

/-- Operations that wait for Burin. -/
def burinWaits (s : State) (o : Op) : Bool :=
  (dsKind o.desc = 6 || dsKind o.desc = 7 || dsKind o.desc = 8 || dsKind o.desc = 10) && !hasEntry s o.tag

/-! ### Entries from jobs (R198, R199, R419) -/

/-- What a job's entry names: its block once checked, none when it breaks a rule. -/
def entryBlock (s : State) (o : Op) (e : Bytes) : Option Bytes :=
  let r := enRef e
  let u := enUnit e
  let off := r % 2 ^ 23
  let rt := r ≥ 2 ^ 31
  let take (head len : Nat) : Option Bytes :=
    if r ≥ 2 ^ 31 + 2 ^ 23 || !inGrant s o.page off head || !inGrant s o.page off len then none else some (winRead s off len)
  let keep (b : Option Bytes) (ok : Bytes → Bool) : Option Bytes := b.filter ok
  match dsKind o.desc, enKind e with
  | 6, 1 =>
    if u ≠ 0 then none
    else if rt then keep (take 12 (frameLen (winRead s off 12))) (frameOk s.set)
    else if r < klFrames s.set.keylink then some (klFrame s.set.keylink r) else none
  | 6, 3 =>
    if u ≠ 0 then none
    else if rt then keep (take 8 (scanLen (winRead s off 4200))) (scanOk s.set)
    else if s.set.antenna != [] && r < antScans s.set.antenna then some (antScan s.set.antenna r) else none
  | 7, 4 =>
    if u > 1 then none
    else if rt then keep (take 32 32) (fun b => winOk b && bandOn s.set.radio u b)
    else if r < raWins s.set.radio && bandOn s.set.radio u (winPlan s r) then some (winPlan s r) else none
  | 7, 5 =>
    if u > 1 then none
    else if rt then keep (take 32 (32 + telLen (winRead s off 32))) (fun b => telOk b && bandOn s.set.radio u b)
    else if r < raTels s.set.radio && bandOn s.set.radio u (telBlock s r) then some (telBlock s r) else none
  | 8, 6 => if u ≠ 0 || !rt then none else keep (take 16 16) (fun b => rangingBlockOk b (dsSlot o.desc))
  | 10, 10 => if !rt then none else keep (take 8 (8 + u16 (winRead s off 8) 0)) (frameSendOk s o.page u)
  | _, _ => none

/-- A frame-send block of frame length 0 (R421). -/
def sendZero (s : State) (o : Op) (e : Bytes) : Bool :=
  dsKind o.desc = 10 && enRef e ≥ 2 ^ 31 && inGrant s o.page (enRef e % 2 ^ 23) 8 && u16 (winRead s (enRef e % 2 ^ 23) 8) 0 = 0

/-- A job of kinds 6, 7, 8 and 10 is checked and creates its entry, or is refused (R198). -/
def entryJob (tag kind : Nat) (s : State) : State :=
  match opLive s tag kind with
  | none => s
  | some o =>
    if !burinWaits s o || !engineNext (burinWaits s) s o then s
    else if dsSrcLen o.desc < 32 then opEnd tag .badEntry false [] s
    else
      let eb := winRead s (dsSrc o.desc) 32
      if sendZero s o eb then opEnd tag .badDesc false [] s
      else
        let blk := entryBlock s o eb
        match entryCheck s o.page eb blk.isSome with
        | some st => opEnd tag st false [] s
        | none =>
          let e0 := runtimeEntry o.page (enKind eb) (enUnit eb) (enRef eb) (.job tag) (blk.getD []) (BitVec.ofNat 48 (enTime eb))
          let d := nowDue s e0
          let e := if bit (enFlags eb) 1 then { e0 with due := d, grid := d } else e0
          (ttInsert o.page e s).2

def execLfFrameJob (tag : Fin 512) (s : State) : Host.Outcome State Fault Refusal := done s (entryJob tag.val 6 s)
def execUhfExchangeJob (tag : Fin 512) (s : State) : Host.Outcome State Fault Refusal := done s (entryJob tag.val 7 s)
def execRangingJob (tag : Fin 512) (s : State) : Host.Outcome State Fault Refusal := done s (entryJob tag.val 8 s)
def execFrameSendJob (tag : Fin 512) (s : State) : Host.Outcome State Fault Refusal := done s (entryJob tag.val 10 s)

/-! ### The solver (R354 to R360) -/

/-- The field solver's domain is available: Run outside ride-through, below T_OFF (R22, R75, R92). -/
def solverOn (s : State) : Bool := isRun s && !inRide s && !s.sup.thermOff

/-- SOLVER_JOB: SRC holds the scan block, its scan result and the report body in turn (DESIGN CHOICE, log 25). -/
def solverJob (tag : Nat) (s : State) : State :=
  match opLive s tag 9 with
  | none => s
  | some o =>
    if !solverOn s || !engineNext (fun x => dsKind x.desc = 9) s o then s
    else
      let src := winRead s (dsSrc o.desc) (dsSrcLen o.desc)
      let n := scanLen src
      let m := 4 + 8 * u8 (src.drop n) 0
      if src.length < 8 || src.length < n + 4 || src.length < n + m || !scanOk s.set (src.take n) then
        opEnd tag .badDesc false [] s
      else
        let r := solve s (src.take n) (sl src n m) (src.drop (n + m))
        let s := if o.page = 0 then locFix r s else r.evts.foldl (fun s i => evLoc i s) s
        opEnd tag r.st false r.bytes s

def execSolverJob (tag : Fin 512) (s : State) : Host.Outcome State Fault Refusal := done s (solverJob tag.val s)

end Sys2Proof.Machine
end

