-- ==== Sys2Proof/Machine/NvmJobs.lean ====
section
/-! DEFINITION. NVM jobs (R517, R532, R533) and the record layer's background writes (R513, R527, R530). -/

namespace Sys2Proof.Machine

/-! ### PARAMS of kind 5 (R532) -/

def nvOp (p : Bytes) : Nat := u8 p 0
def nvId (p : Bytes) : Nat := u16 p 2
def nvValue (p : Bytes) : Nat := u32 p 4

/-- The operation writes. -/
def nvWrites (o : Op) : Bool := let k := nvOp (dsParams o.desc); k = 1 || k = 3 || k = 4

/-- Client record of a page (R517). -/
def clientRid (page rid : Nat) : Bool :=
  1 ≤ page && page ≤ 5 && 0xC000 + 0x20 * (page - 1) ≤ rid && rid < 0xC000 + 0x20 * page

/-- Counter a page may use (R532); CPG0 uses every counter (DEDUCED, log 26). -/
def pageCtr (s : State) (page n : Nat) : Bool := n < 128 && (page = 0 || (pageGet s page).ctrMask.getLsbD n)

/-- The first rows of R533. -/
def nvCheck (s : State) (o : Op) : Option Status :=
  let p := dsParams o.desc
  let k := nvOp p
  if k > 4 || u8 p 1 ≠ 0 || !allZero (p.drop 8) || (k ≠ 4 && nvValue p ≠ 0)
      || (k = 1 && !rg (dsSrcLen o.desc) 1 240) || (k = 0 && dsDstLen o.desc < 248)
      || (k ≥ 2 && (dsDstLen o.desc < 8 || nvId p > 127)) then some .badDesc
  else if k ≤ 1 && !clientRid o.page (nvId p) then some .denied
  else if k ≥ 2 && !pageCtr s o.page (nvId p) then some .denied
  else none

/-- NVM jobs that may run: writes wait for the VHOLD measurement (R104, R534). -/
def nvRuns (s : State) (o : Op) : Bool := dsKind o.desc = 5 && (!nvWrites o || s.sup.measured)

/-- The job of a tag, when the record layer serves it next and `f` is its operation. -/
def nvStart (s : State) (tag : Nat) (f : Nat → Bool) : Option Op :=
  match opLive s tag 5 with
  | some o => if f (nvOp (dsParams o.desc)) && nvRuns s o && engineNext (nvRuns s) s o then some o else none
  | none => none

/-- Run a job past its checks. -/
def nvJob (tag : Nat) (f : Nat → Bool) (run : Op → State → State) (s : State) : State :=
  match nvStart s tag f with
  | none => s
  | some o =>
    match nvCheck s o with
    | some st => opEnd tag st false [] s
    | none => run o s

/-! ### Records -/

/-- Head and payload of a READ (R532). -/
def readHead (seq : Nat) (len flags : Nat) : Bytes := leBytes 4 seq ++ leBytes 1 len ++ leBytes 1 flags ++ [0, 0]

/-- READ (R518, R533). -/
def nvRead (o : Op) (s : State) : State :=
  let sel := select s (nvId (dsParams o.desc))
  let s := noteSel sel s
  match sel with
  | .absent => opEnd o.tag .ok false (readHead 0 0 8) s
  | .bad => opEnd o.tag .eccError false [] s
  | .copy c u conflict =>
    opEnd o.tag (if conflict then .conflicted else .ok) false
      (readHead c.seq.toNat c.data.length (b2n u + 2 * b2n conflict + 4 * b2n o.corrected) ++ c.data) s

/-- WRITE (R520, R524). -/
def nvWrite (v1 v2 : Bool) (o : Op) (s : State) : State :=
  let r := recWriteV false none v1 v2 (nvId (dsParams o.desc)) (winRead s (dsSrc o.desc) (dsSrcLen o.desc)) s
  match r.1 with
  | .ok seq u => opEnd o.tag .ok false (leBytes 4 seq.toNat ++ leBytes 1 (b2n u) ++ [0, 0, 0]) r.2
  | .lowEnergy => opEnd o.tag .lowEnergy false [] r.2
  | .eccError => opEnd o.tag .eccError false [] r.2

def execNvmRecordRead (tag : Fin 512) (s : State) : Host.Outcome State Fault Refusal :=
  done s (nvJob tag.val (fun k => k = 0 || k > 4) nvRead s)

def execNvmRecordWrite (tag : Fin 512) (vholdMv : Nat) (verify1 verify2 : Bool) (s : State) :
    Host.Outcome State Fault Refusal :=
  done s (nvJob tag.val (· = 1) (nvWrite verify1 verify2) (seeVhold vholdMv s))

/-! ### Counters -/

/-- Result of a counter operation: the value after it, padded to 8 bytes. -/
def ctrOut (v : Nat) : Bytes := leBytes 4 v ++ [0, 0, 0, 0]

def ctrEnd (o : Op) (r : CtrRes × State) : State :=
  match r.1 with
  | .ok v => opEnd o.tag .ok false (ctrOut v) r.2
  | .locked => opEnd o.tag .locked false [] r.2
  | .lowEnergy => opEnd o.tag .lowEnergy false [] r.2
  | .eccError => opEnd o.tag .eccError false [] r.2

def ctrReadJob (o : Op) (s : State) : State :=
  let r := ctrRead (nvId (dsParams o.desc)) s
  ctrEnd o ((match r.1 with | some v => .ok v | none => .eccError), r.2)

def execCtrRead (tag : Fin 512) (s : State) : Host.Outcome State Fault Refusal := done s (nvJob tag.val (· = 2) ctrReadJob s)

def execCtrInc (tag : Fin 512) (vholdMv : Nat) (s : State) : Host.Outcome State Fault Refusal :=
  done s (nvJob tag.val (· = 3) (fun o s => ctrEnd o (ctrIncrement (nvId (dsParams o.desc)) s)) (seeVhold vholdMv s))

def execCtrAdvance (tag : Fin 512) (vholdMv : Nat) (s : State) : Host.Outcome State Fault Refusal :=
  done s (nvJob tag.val (· = 4) (fun o s => ctrEnd o (ctrAdvanceTo (nvId (dsParams o.desc)) (nvValue (dsParams o.desc)) s))
    (seeVhold vholdMv s))

/-! ### Background writes -/

/-- The NVM domain is powered (R127). -/
def nvmOn (s : State) : Bool :=
  secNvmOn s

/-- No other write is queued, and the energy check admits `n` groups; a refusal sets its event (R524, R527). -/
def background (n : Nat) (f : State → State) (s : State) : State :=
  if !nvmOn s || !s.sup.measured || s.job.ops.any (fun o => dsKind o.desc = 5 && nvWrites o && o.result.isNone) then s
  else if energyOk false n s then f (spend n s)
  else evNvm 3 s

/-- NVM_PRECLEAR (R527). -/
def nvmPreclear (n : Nat) (s : State) : State :=
  if (ctrGet s n).preclear.isNone then s else background 16 (fun s => ctrPut n (ctrGet s n).clearRow s) s

def execNvmPreclear (counter : Fin 128) (vholdMv : Nat) (s : State) : Host.Outcome State Fault Refusal :=
  done s (nvmPreclear counter.val (seeVhold vholdMv s))

/-- Rewrite one copy with its own content. -/
def refreshCopy (rid : Nat) (u : Bool) (s : State) : State :=
  let f := fun (l : List Copy) => l.map (fun c => if c.rid = rid && c.valid then wearOne c else c)
  if u then { s with nvm.upper := f s.nvm.upper } else { s with nvm.lower := f s.nvm.lower }

/-- NVM_REFRESH: the copy queued first is rewritten (R513). -/
def nvmRefresh (s : State) : State :=
  match s.nvm.refresh with
  | [] => s
  | (rid, u) :: rest =>
    let n := match bankCopy (if u then s.nvm.upper else s.nvm.lower) rid with
      | some c => copyGroups c.data.length
      | none => 0
    background n (fun s => refreshCopy rid u { s with nvm.refresh := rest }) s

def execNvmRefresh (vholdMv : Nat) (s : State) : Host.Outcome State Fault Refusal := done s (nvmRefresh (seeVhold vholdMv s))

/-- NVM_RUN_FREEING: the old run waiting first is rewritten as free markers, one group each frame (R530). -/
def nvmRunFreeing (s : State) : State :=
  match s.nvm.freeing with
  | [] => s
  | x :: rest => background x.2.2.1 (fun s => freeRun x { s with nvm.freeing := rest }) s

def execNvmRunFreeing (vholdMv : Nat) (s : State) : Host.Outcome State Fault Refusal :=
  done s (nvmRunFreeing (seeVhold vholdMv s))

end Sys2Proof.Machine
end

