-- ==== Sys2Proof/Machine/Rng.lean ====
section
/-! DEFINITION. The random generator (R459 to R473, R633): random fills, the queue, seeds, failures, recovery, and the
software port. -/

namespace Sys2Proof.Machine

/-- SEC is powered and the generator may work (R472). -/
def secOn (s : State) : Bool := secNvmOn s

/-! ### The queue (R464) -/

/-- One refill of eight words. -/
def refill8 (s : State) : State :=
  let r := (List.range 8).foldl (fun (a : List (BitVec 128) × State) _ =>
    let w := drawWord a.2
    (a.1 ++ [w.1], w.2)) ([], s)
  countRequest { r.2 with rng.queue := r.2.rng.queue ++ r.1 }

/-- RNG_QUEUE_REFILL: eight or more slots are free. -/
def queueRefill (s : State) : State := if secOn s && rngServes s && s.rng.queue.length ≤ 56 then refill8 s else s

def execRngQueueRefill (s : State) : Host.Outcome State Fault Refusal := done s (queueRefill s)

/-! ### Random fills (R465) -/

/-- Words the queue can deliver now, refills included, before a reseed is due. -/
def wordsAvail (s : State) : Nat := s.rng.queue.length + (if rngServes s then 8 * (65536 - s.rng.requests) else 0)

/-- Take `n` words, refilling as the queue runs dry. -/
def takeWords : Nat → State → List (BitVec 128) × State
  | 0, s => ([], s)
  | n + 1, s =>
    let s := if s.rng.queue = [] then refill8 s else s
    let a := takeQueue s
    let r := takeWords n a.2
    (a.1.getD 0 :: r.1, r.2)

/-- RANDOM_FILL: whole, once the queue can deliver; ENTROPY_FAIL while the generator fails (R468, R470).
DEDUCED, log 79. -/
def randomFill (tag : Nat) (s : State) : State :=
  match opLive s tag 4 with
  | none => s
  | some o =>
    let n := (dsDstLen o.desc + 15) / 16
    if !engineNext (fun x => dsKind x.desc = 4) s o then s
    else if rngFails s then opEnd tag .entropyFail false [] s
    else if wordsAvail s < n then s
    else
      let r := takeWords n s
      opEnd tag .ok false ((r.1.flatMap (fun w => leBytes 16 w.toNat)).take (dsDstLen o.desc)) r.2

def execRandomFill (tag : Fin 512) (s : State) : Host.Outcome State Fault Refusal := done s (randomFill tag.val s)

/-! ### Seeds and reseeds -/

/-- RNG_FIRST_SEED: the last step of R467. -/
def firstSeed (s : State) : State :=
  if s.rng.seeded || s.rng.latched || s.rng.recovering || !secOn s then s
  else accResume (rngFresh { s with rng.sourceOn := true, boot.rngReady := true })

def execRngFirstSeed (s : State) : Host.Outcome State Fault Refusal := doneRun s (firstSeed s)

/-- RNG_RESEED after the 65,536th request (R463). -/
def reseed (s : State) : State :=
  if s.rng.requests < 65536 || !s.rng.seeded || s.rng.recovering || s.rng.reinst || s.rng.latched || !secOn s then s
  else accResume { s with rng.requests := 0, rng.failRun := 0, rng.reseeds := satInc 65535 s.rng.reseeds }

def execRngReseed (s : State) : Host.Outcome State Fault Refusal := doneRun s (reseed s)

/-! ### Failures (R468 to R470) -/

/-- Event bit of a test. -/
def testBit_ : HealthTest → Nat
  | .repetition => 0
  | .proportion => 1
  | .startup => 2
  | .knownAnswer => 2

/-- Waiting fills and attestations end with ENTROPY_FAIL. -/
def requestsFail (s : State) : State :=
  endOps (fun o => dsKind o.desc = 4 || (dsKind o.desc = 3 && rsOp (dsParams o.desc) = 2)) .entropyFail s

/-- At the latch every cipher block job ends with ENTROPY_FAIL, outputs zeroed (R449). -/
def cipherFail (s : State) : State :=
  let p := fun (o : Op) => dsKind o.desc = 1 && caFunc (dsParams o.desc) ≠ 1
  let hit := s.job.ops.filter (fun o => p o && o.result.isNone && namesGate o)
  let any := s.job.ops.any (fun o => p o && o.result.isNone)
  let s := endOps p .entropyFail s
  let s := hit.foldl (fun s o => if o.blocks = 0 then s else pageMod o.page gateZero s) s
  if any then evAes 3 s else s

/-- The state is discarded and recovery begins; the third failure in a row latches (R468 to R470). DEDUCED, log 82. -/
def healthFail (t : HealthTest) (s : State) : State :=
  let s := evRng (testBit_ t) { s with rng.failRun := s.rng.failRun + 1, rng.failures := satInc 65535 s.rng.failures }
  let s := dtc 0xB74100 (rngDiscard s)
  let s := { s with rng.reinst := false, rng.seeded := false, rng.recovering := true }
  let s :=
    if s.rng.failRun ≥ 3 then
      cipherFail (dtc 0xB74101 (evRng 4 { s with
        rng.latched := true, rng.recovering := false, rng.sourceOn := false, rng.failRun := 3, boot.rngReady := false }))
    else s
  accResume (requestsFail s)

/-- RNG_HEALTH_FAILURE: the source runs (in Heath, at events only: R472) and is not latched. -/
def healthFailure (t : HealthTest) (s : State) : State :=
  if s.rng.latched || !s.rng.sourceOn || !secOn s then s else healthFail t s

def execRngHealthFailure (test : HealthTest) (s : State) : Host.Outcome State Fault Refusal := doneRun s (healthFailure test s)

/-- RNG_RECOVERY_COMPLETE (R469). -/
def recoveryComplete (s : State) : State :=
  if !s.rng.recovering || s.rng.latched || !secOn s then s
  else accResume (dtcClear 0xB74100 (evRng 3 (rngFresh { s with boot.rngReady := true })))

def execRngRecoveryComplete (s : State) : Host.Outcome State Fault Refusal := doneRun s (recoveryComplete s)

/-- RNG_REINSTANTIATION_COMPLETE (R633). -/
def reinstComplete (s : State) : State :=
  if !s.rng.reinst || s.rng.latched || !secOn s then s else accResume (rngFresh s)

def execRngReinstantiationComplete (s : State) : Host.Outcome State Fault Refusal := doneRun s (reinstComplete s)

/-! ### The software port (R466, R476) -/

/-- A read of RNG_DATA0: the value and the state. -/
def rngData0 (s : State) : Nat × State :=
  match takeQueue s with
  | (some w, s) => (w.toNat % 2 ^ 32, { s with rng.data := w.extractLsb' 32 96, rng.valid := true })
  | (none, s) => (0, { s with rng.data := 0, rng.valid := false })

/-- A read of RNG_DATA1 to RNG_DATA3 zeroes the register read. -/
def rngDataN (n : Nat) (s : State) : Nat × State :=
  (s.rng.data.toNat / 2 ^ (32 * n) % 2 ^ 32, { s with rng.data := s.rng.data &&& ~~~(BitVec.ofNat 96 ((2 ^ 32 - 1) * 2 ^ (32 * n))) })

/-- A register word read over SPI: its bytes are what HMISO carries. -/
def portRead (page addr : Nat) (f : State → Nat × State) (s : State) : State :=
  hostDo page addr (fun s =>
    if page ≠ 1 then (.denied, s)
    else
      let r := f s
      (.ok, { r.2 with spi.rdata := leBytes 4 r.1, spi.rcrc := BitVec.ofNat 16 (crc16 (0 :: leBytes 4 r.1)) })) s

def execRngData0Read (page : Fin 8) (s : State) : Host.Outcome State Fault Refusal :=
  done s (portRead page.val 0x0B0010 rngData0 s)

def execRngDataHighRead (page : Fin 8) (n : Fin 3) (s : State) : Host.Outcome State Fault Refusal :=
  done s (portRead page.val (0x0B0014 + 4 * n.val) (rngDataN n.val) s)

end Sys2Proof.Machine
end

