-- ==== Sys2Proof/Machine/Settings.lean ====
section
/-! DEFINITION. The settings: retained records (R119 to R123), how a set of sections comes into force (R116 to R118), and
what the sections give each block at once. -/

namespace Sys2Proof.Machine

/-! ### Sections -/

/-- Put a section of a type (R112) into a set; PATCH and other types change nothing here. -/
def putSection (c : Settings) (x : Nat × Bytes) : Settings :=
  match x.1 with
  | 1 => { c with antenna := x.2 }
  | 2 => { c with zones := x.2 }
  | 3 => { c with timetable := x.2 }
  | 4 => { c with keylink := x.2 }
  | 5 => { c with radio := x.2 }
  | 6 => { c with ranging := x.2 }
  | 7 => { c with network := x.2 }
  | 8 => { c with time := x.2 }
  | 9 => { c with diag := x.2 }
  | 10 => { c with policy := x.2 }
  | _ => c

/-- A set of sections. -/
def settingsOf (l : List (Nat × Bytes)) : Settings := l.foldl putSection Settings.empty

/-- Staged settings as bytes (R119): each section behind its 8-byte descriptor. -/
def staged (l : List (Nat × Bytes)) : Bytes :=
  l.flatMap (fun x => leBytes 2 x.1 ++ leBytes 2 1 ++ leBytes 4 x.2.length ++ x.2)

/-- The sections of staged bytes; at most 32. -/
def unstage : Nat → Bytes → List (Nat × Bytes)
  | 0, _ => []
  | n + 1, b => if b.length < 8 then [] else (u16 b 0, sl b 8 (u32 b 4)) :: unstage n (b.drop (8 + u32 b 4))

/-! ### The retained set (R119 to R124) -/

def hdGen (h : Bytes) : Nat := u32 h 0
def hdSecMin (h : Bytes) : Nat := u16 h 4
def hdKeyMin (h : Bytes) : Nat := u16 h 6
def hdMaker (h : Bytes) : Nat := u32 h 8
def hdLen (h : Bytes) : Nat := u32 h 12
def hdCount (h : Bytes) : Nat := u16 h 16
def hdImage (h : Bytes) : Bytes := sl h 20 64
def hdSettings (h : Bytes) : Bytes := sl h 84 64

/-- AES-CMAC of a head under the retained-settings key of a root, a 256-bit key (DESIGN CHOICE, log 18). -/
def headMac (root : BitVec 256) (h : Bytes) : Bytes := blockBytes (cmac 32 (Config.settingsKey root) (h.take 148))

/-- What start-up finds of the retained head. -/
inductive Head where
  | absent
  | bad
  | good (h : Bytes)
deriving DecidableEq, Repr

/-- The retained head, authenticated under the current root; with `PUF_FAIL` it counts as failing (R107). -/
def headOf (s : State) : Head :=
  match select s 0x400, s.ks.root with
  | .absent, _ => .absent
  | .bad, _ => .bad
  | .copy c _ _, some r =>
    if !s.boot.pufFail && c.data.length = 164 && headMac r c.data = c.data.drop 148 then .good c.data else .bad
  | .copy _ _ _, none => .bad

/-- The copy of a payload record that carries the committed generation (R123). The rule takes “the copy”; where both carry it the
model takes the lower bank's. DESIGN CHOICE, log 118. -/
def genCopy (s : State) (rid gen : Nat) : Option Bytes :=
  let f (b : List Copy) : Option Bytes := match bankCopy b rid with
    | some c => if c.valid && u32 c.data 0 = gen then some c.data else none
    | none => none
  match f s.nvm.lower with
  | some d => some d
  | none => f s.nvm.upper

/-- The pieces of a committed set in order, none when an index is missing. -/
def pieces (s : State) (gen : Nat) : Nat → Nat → Option Bytes
  | _, 0 => some []
  | i, n + 1 =>
    match genCopy s (0x401 + i) gen, pieces s gen (i + 1) n with
    | some d, some r => some (sl d 8 (u8 d 6) ++ r)
    | _, _ => none

/-- The pieces of a committed set up to the first index that is missing. -/
def piecesAny (s : State) (gen : Nat) : Nat → Nat → Bytes
  | _, 0 => []
  | i, n + 1 =>
    match genCopy s (0x401 + i) gen with
    | some d => sl d 8 (u8 d 6) ++ piecesAny s gen (i + 1) n
    | none => []

/-- The POLICY section of an authentic head's set, as far as its records are there; the payload digest is not asked (R118). -/
def retainedPolicy (s : State) (h : Bytes) : Bytes :=
  let b := piecesAny s (hdGen h) 0 (hdCount h)
  match (unstage 32 b).find? (fun x => x.1 = 10 && decide (56 ≤ x.2.length)) with
  | some x => x.2
  | none => []

/-- The retained settings of a head, none under a failing payload digest (R123). -/
def retainedOf (s : State) (h : Bytes) : Option (List (Nat × Bytes)) :=
  match pieces s (hdGen h) 0 (hdCount h) with
  | some b => if b.length = hdLen h && sha512 b = hdSettings h then some (unstage 32 b) else none
  | none => none

/-! ### Settings in force -/

/-- Grants, counter masks and pairing slots of the pages (R457, R598). -/
def pagesSet (s : State) : State :=
  { s with pages := Vector.ofFn (fun (i : Fin 8) =>
      let p := pageGet s i.val
      if i.val = 0 then p
      else
        let r := dgPage (diagSec s) i.val
        { p with base := u32 r 0, len := u32 r 4, ctrMask := BitVec.ofNat 128 (leN r 8 16), pairSlot := u8 r 24 }) }

/-- The tamper policy in force: pin modes (R499). -/
def pinModes (p : Bytes) (s : State) : State := { s with tmp.mode := Vector.ofFn (fun i => poPinMode p i.val) }

/-- CAN controllers that have a record (R560). -/
def canSet (s : State) : State :=
  { s with can := Vector.ofFn (fun (i : Fin 2) => { vget s.can i.val Can.reset with on := nwCan (netSec s) i.val != [] }) }

/-- Sections come into force as a whole (R117). -/
def settingsIn (c : Settings) (s : State) : State :=
  let s := { s with set := c }
  let s := canSet (pagesSet (pinModes (policySec s) s))
  { s with lf.carrier := if c.antenna = [] then 12500 else antCarrier c.antenna, ov := Overrides.none }

/-! ### Channels of the UHF bands -/

/-- Every fitted band is due for calibration (R318, R321). -/
def calAllDue (s : State) : State :=
  { s with uhf.trx := Vector.ofFn (fun (i : Fin 2) => { vget s.uhf.trx i.val Trx.reset with
      due := BitVec.ofNat 4 (raBands s.set.radio i.val % 16), valid := 0, fail := 0, cal := none,
      calNo := 0, vals := Vector.replicate 4 (Vector.replicate 4 0), lock := none, st := .sleep, sleepAt := none }) }

/-! ### Wake from Fallow (R142) -/

/-- First RID of the two helper records of a state (R517). -/
def helperRid (l : LifeCycle) : Nat := 0x10 + 2 * (l.code - 1)

/-- A helper record is present with the data of its secret: a CONFLICTED one is tried with copy L, then copy U (R107, R519). -/
def helperOk (s : State) (k : BitVec 256) (i : Nat) : Bool :=
  let d := padTo 240 (Config.helperData k (Fin.ofNat 2 i))
  match select s (helperRid s.ks.lc + i) with
  | .copy c _ false => c.data = d
  | .copy c _ true => c.data = d || (match bankCopy s.nvm.upper (helperRid s.ks.lc + i) with | some u => u.data = d | none => false)
  | _ => false

/-- What selecting the helper records finds (R519). -/
def helperNote (s : State) : State :=
  if s.ks.lc == .blank then s
  else noteSel (select s (helperRid s.ks.lc + 1)) (noteSel (select s (helperRid s.ks.lc)) s)

/-- The root that the PUF and the helper records give: four failed attempts, or no usable helper data, give none (R106, R107). -/
def rootFound (fails : Nat) (s : State) : Option (BitVec 256) :=
  if s.ks.lc == .blank then some Config.testRoot
  else match vget s.ks.secrets s.ks.lc.code none with
  | some k => if fails < 4 && helperOk s k 0 && helperOk s k 1 then some k else none
  | none => none

/-- The root is regenerated at start-up: without one `PUF_FAIL` is set (R107). -/
def rootStart (fails : Nat) (s0 : State) : State :=
  let s := helperNote s0
  match rootFound fails s with
  | some k => dtcClear 0xB71100 { s with ks.root := some k, boot.pufFail := false }
  | none => dtc 0xB71100 { s with ks.root := none, boot.pufFail := true }

/-- The same at a wake from Fallow, over which `SYS_BOOT_STAT` is kept: `PUF_FAIL` is set, never cleared (R107, R142). -/
def rootWake (fails : Nat) (s0 : State) : State :=
  let s := helperNote s0
  match rootFound fails s with
  | some k => { s with ks.root := some k }
  | none => dtc 0xB71100 { s with ks.root := none, boot.pufFail := true }

/-- Fallow ends: the root, the settings from the committed set or the defaults; a set that fails is a host-commanded
reset. The generator seeds with its next step. -/
def fallowToRun (fails : Nat) (s : State) : State :=
  let s := calAllDue (rootWake fails s)
  let s := { s with clk.stale := true, rng.sourceOn := !s.rng.latched }
  if s.boot.src ≥ 2 then runSupply (enterRun 2 (settingsIn Settings.empty s))
  else match headOf s with
    | .good h => match retainedOf s h with
      | some l => runSupply (enterRun 2 (settingsIn (settingsOf l) s))
      | none => resetTo .hcr s
    | _ => resetTo .hcr s

end Sys2Proof.Machine
end

