-- ==== Sys2Proof/Machine/Tamper.lean ====
section
/-! DEFINITION. The tamper watch (R45, R448, R498 to R508): events, the response ladder, held writes, and the cipher engine's
parity fault. -/

namespace Sys2Proof.Machine

/-! ### The tamper log and latch records (R505, R506; layouts DESIGN CHOICE, log 18) -/

/-- Log entry as stored, 16 bytes. -/
def logBytes (e : TmpLog) : Bytes :=
  leBytes 1 e.source ++ leBytes 1 e.step ++ leBytes 1 e.count ++ leBytes 1 (b2n e.reset + 2 * b2n e.wake + 4 * b2n e.stale)
    ++ leBytes 1 e.state ++ [0] ++ leBytes 6 e.time.toNat ++ [0, 0, 0, 0]

/-- SEQ of a log record, none when it has none yet. -/
def logSeq (s : State) (i : Nat) : Option (BitVec 32) :=
  match select s (0x80 + i) with
  | .copy c _ _ => some c.seq
  | _ => none

/-- Ring position written next: the first never written, else the first written least often. DEDUCED, log 87. -/
def logSlot (s : State) : Nat :=
  match (List.range 32).find? (fun i => (logSeq s i).isNone) with
  | some i => i
  | none => ((List.range 32).find? (fun i => logSeq s i != logSeq s 0)).getD 0

/-- Write one log entry; the oldest of 32 goes. -/
def logWrite (e : TmpLog) (s : State) : Bool × State :=
  let w := recWrite true (0x80 + logSlot s) (logBytes e) s
  if w.1.isOk then (true, { w.2 with tmp.log := (w.2.tmp.log ++ [e]).drop (w.2.tmp.log.length + 1 - 32) }) else (false, w.2)

/-- The latch record. -/
def latchBytes (t : Tmp) : Bytes := leBytes 1 (b2n t.latch) ++ List.replicate 15 0

def latchWrite (s : State) : Bool × State :=
  let w := recWrite true 0x2 (latchBytes s.tmp) s
  (w.1.isOk, w.2)

/-! ### Orders 3 and 4 of R503: writes, held when refused (R504) -/

/-- Erase the classes of a mask; those refused stay pending. -/
def eraseClasses (mask : Nat) (s : State) : State :=
  (List.range 4).foldl (fun s c =>
    if mask.testBit c then
      let r := classErase c s
      if r.1 then { r.2 with tmp.erasePending := r.2.tmp.erasePending &&& ~~~(onBit 4 c) }
      else { r.2 with tmp.erasePending := r.2.tmp.erasePending ||| onBit 4 c }
    else s) s

def latchRecord (s : State) : State :=
  let r := latchWrite s
  { r.2 with tmp.heldLatch := !r.1 }

def logRecord (e : TmpLog) (s : State) : State :=
  let r := logWrite e s
  if r.1 then r.2 else { r.2 with tmp.heldLog := r.2.tmp.heldLog ++ [e] }

/-- ERASE_PENDING as TMP_STAT reports it: an erase, a latch record or a log entry is held (R504). -/
def tamperHeld (s : State) : Bool := s.tmp.erasePending != 0 || s.tmp.heldLatch || s.tmp.heldLog != []

/-- Retry every held write in its order. -/
def heldRetry (s : State) : State :=
  let s := eraseClasses s.tmp.erasePending.toNat s
  let s := if s.tmp.heldLatch then latchRecord s else s
  s.tmp.heldLog.foldl (fun s e => logRecord e s) { s with tmp.heldLog := [] }

/-! ### What a step ends -/

/-- Power state as a log entry names it (R506). -/
def stateCode (s : State) : Nat :=
  match s.pwr.st with
  | .run => 0
  | .heath => 1
  | .fallow => 2
  | _ => 3

/-- Tester authentication ends; in BLANK the binding comes with the session and stays (R591, R600). -/
def unauth (lc : LifeCycle) (c : Conn) : Conn :=
  if lc == .blank then { c with auth := none } else { c with auth := none, roles := 0, untimed := false, page := 0 }

/-- Step 2 or higher closes every ASP session and ends authentication and key routines (R502, R600).
DEDUCED, log 89. -/
def tamperClose (s : State) : State :=
  let s := { s with
    pages := s.pages.map (fun p => { p with aspKey := none, subs := 0, evPend := [], outQ := [], delivered := [] })
    diag.conns := s.diag.conns.map (unauth s.ks.lc) }
  if learning s then
    match s.acc.seqn with
    | some q => if q.kind = 6 then seqEnd .tamper false false s else rtEnd .tamper [] (outcome 6 (learnIndex s) .tamper 0 false s)
    | none => learnEnd .tamper s
  else match s.diag.routine with
    | some r => if 0xF111 ≤ r.rid && r.rid ≤ 0xF130 then rtEnd .tamper [] s else s
    | none => s

/-- A session key S stands in a volatile slot (R381). -/
def hasSKey (q : Seqn) : Bool :=
  q.kind ≠ 3 && (q.stage == .scan || q.stage == .report || q.stage == .nonce || q.stage == .ranging || q.stage == .fuse)

/-- The key in use of the open sequence, if any, goes with this step: a derived K and S lie in volatile slots (R379, R381), and the
credential's slot may be of an erased class. In the backup round the tag singulated names the credential (R390). -/
def keyErased (s : State) (step mask : Nat) : Bool :=
  match s.acc.seqn with
  | none => false
  | some q =>
    match q.cred.orElse (fun _ => s.acc.round.bind (·.cred)) with
    | none => false
    | some i =>
      let c := credGet s i
      (step ≥ 2 && (c.attr.getLsbD 0 || hasSKey q)) || (step ≥ 3 && mask.testBit (atClass (slotGet s c.slot).attr))

/-- The open sequence ends with TAMPER; its scan ends with it (R45, R247). DEDUCED, log 76. -/
def seqTamper (s : State) : State :=
  if s.acc.seqn.isNone then s
  else
    let s := actionsCut (fun e => e.kind = 3 && e.owner == .access) (fun _ => .tamper) s
    seqEnd .tamper false false s

/-! ### The ladder (R501 to R503) -/

/-- Step that applies at a count. -/
def ladderStep (p : Bytes) (src count : Nat) : Nat :=
  if poEsc p src ≠ 0 && count ≥ poEsc p src then poLater p src else poFirst p src

/-- Orders 1 to 4 of a step; any step bars the re-grant of R82. -/
def stepActs (src step count mask : Nat) (reset wake : Bool) (s : State) : State :=
  let ends := step = 4 || keyErased s step mask
  let s := { s with acc.eligible := false }
  let s := if step = 4 then sessionClose { s with tmp.latch := true } else s
  let s := if ends then seqTamper s else s
  let s := if step ≥ 2 then tamperClose (zeroise s) else s
  let s := if step ≥ 3 then eraseClasses mask s else s
  let s := if step = 4 then latchRecord s else s
  logRecord { source := src, step := step, count := count, reset := reset, wake := wake, state := stateCode s,
              time := now48 s, stale := !(s.clk.mode == .following || s.clk.mode == .master) || s.clk.stale } s

/-- TMP_LAST (R510). -/
def lastWord (src step st : Nat) (reset wake : Bool) : BitVec 10 :=
  BitVec.ofNat 10 (src + 8 * step + 64 * b2n reset + 128 * b2n wake + 256 * st)

/-- WAKE: a ladder step wakes to Run (R503). -/
def tamperWake (s : State) : State :=
  match s.pwr.st with
  | .heath => runSupply (enterRun 1 (evWake 12 s))
  | .fallow => fallowToRun 0 (evWake 12 s)
  | _ => s

/-- An event is answered (R503). -/
def tamperApply (src : Nat) (s : State) : State :=
  let p := policySec s
  let count := satInc 255 (vget s.tmp.count src 0)
  let step := ladderStep p src count
  let s := { s with tmp.count := vset s.tmp.count src count, tmp.applied := vset s.tmp.applied src step }
  if step = 0 then s
  else
    let reset := bit (poAction p src) 0
    let wake := bit (poAction p src) 1
    let s := dtc (0xB76000 + src) (evTmp src { s with tmp.last := lastWord src step (stateCode s) reset wake })
    let s := stepActs src step count (poErase p src) reset wake s
    if reset then resetTo .tmr s else if wake then tamperWake s else s

/-- An event arrives: before step 7 of start-up it is captured (R118). DESIGN CHOICE, log 88. -/
def tamperEvent (src : Nat) (s : State) : State :=
  if s.pwr.st == .startUp || s.pwr.st == .waitNoPair then { s with tmp.captured := s.tmp.captured ++ [src] }
  else tamperApply src s

/-- A condition is present: its onset is an event, a continuing one is not (R498). -/
def tamperOnset (src : Nat) (s : State) : State :=
  let old := s.tmp.onset.getLsbD src
  let s := { s with tmp.active := s.tmp.active ||| onBit 8 src, tmp.onset := s.tmp.onset ||| onBit 8 src }
  if old then s else tamperEvent src s

/-! ### Sources -/

/-- A pin reaches its active level: static modes, and in Fallow the sense pin of a dynamic pair (R499, R500). -/
def tamperPin (pin : Nat) (s : State) : State :=
  let m := vget s.tmp.mode pin 0
  if m = 1 || m = 2 || (m = 4 && s.pwr.st == .fallow) then tamperOnset pin s else s

def execTamperPinOnset (pin : Fin 4) (s : State) : Host.Outcome State Fault Refusal := done s (tamperPin pin.val s)

/-- A step of a dynamic pair's sequence and the sample after it: two samples that differ in a row raise the sense pin's event (R500). -/
def meshSample (pair : Nat) (differs : Bool) (s : State) : State :=
  if vget s.tmp.mode (2 * pair) 0 ≠ 3 || s.pwr.st == .fallow then s
  else
  let s := { s with tmp.meshAt := vmod s.tmp.meshAt pair (· + 1) }
  if !differs then { s with tmp.diff := vset s.tmp.diff pair 0 }
  else
    let n := min 2 (vget s.tmp.diff pair 0 + 1)
    let s := { s with tmp.diff := vset s.tmp.diff pair n }
    if n ≥ 2 then tamperOnset (2 * pair + 1) s else s

def execMeshSample (pair : Fin 2) (differs : Bool) (s : State) : Host.Outcome State Fault Refusal :=
  done s (meshSample pair.val differs s)

/-- SUPPLY_GLITCH: watched in every state. -/
def execSupplyGlitch (s : State) : Host.Outcome State Fault Refusal := done s (tamperOnset 4 s)

/-- The sequences of the dynamic pairs get their seeds from the key-generation wire, once it serves after an entry to Run (R500).
DESIGN CHOICE, log 132. -/
def meshSeed (s : State) : State :=
  if !s.tmp.meshDue || !isRun s || !rngServes s then s
  else if s.tmp.mode.toList.all (· ≠ 3) then { s with tmp.meshDue := false }
  else
    let k := drawKey s
    { k.2 with
      tmp.meshDue := false, tmp.mesh := #v[k.1.extractLsb' 0 16, k.1.extractLsb' 16 16], tmp.meshAt := Vector.replicate 2 0 }

/-- The monitors 5 and 6 watch: in Heath at its events, in Fallow not (R498). -/
def monitored (s : State) : Bool := s.pwr.st != .fallow && (s.pwr.st != .heath || heathServing s)

/-- CLOCK_MONITOR_FAULT: watched from step 3 of start-up (R507). -/
def clockFault (s : State) : State :=
  if !monitored s || (s.pwr.st == .startUp && s.boot.step < 3) then s else tamperOnset 5 s

def execClockMonitorFault (s : State) : Host.Outcome State Fault Refusal := done s (clockFault s)

/-- TEMPERATURE_MONITOR_SAMPLE: below −55 °C or above 170 °C. -/
def temperatureSample (tj : Int) (s : State) : State :=
  if !monitored s then s
  else if tj < -55 || tj > 170 then tamperOnset 6 s
  else { s with tmp.active := s.tmp.active &&& ~~~(onBit 8 6) }

def execTemperatureMonitorSample (tj : Int) (s : State) : Host.Outcome State Fault Refusal := done s (temperatureSample tj s)

/-- TAMPER_CONDITION_END: the condition has been absent for a time; after 1 ms a new onset is an event again (R498). -/
def conditionEnd (src absentNs : Nat) (s : State) : State :=
  let s := { s with tmp.active := s.tmp.active &&& ~~~(onBit 8 src) }
  if absentNs ≥ 1000000 then dtcClear (0xB76000 + src) { s with tmp.onset := s.tmp.onset &&& ~~~(onBit 8 src) } else s

def execTamperConditionEnd (source : Fin 7) (absentNs : Nat) (s : State) : Host.Outcome State Fault Refusal :=
  done s (conditionEnd source.val absentNs s)

/-- ERASE_PENDING_RETRY (R504): once start-up has run. -/
def eraseRetry (s : State) : State :=
  if s.pwr.st == .startUp || s.pwr.st == .waitNoPair || !tamperHeld s then s else heldRetry s

def execErasePendingRetry (vholdMv : Nat) (s : State) : Host.Outcome State Fault Refusal :=
  done s (eraseRetry (seeVhold vholdMv s))

/-! ### Cipher parity (R448) -/

/-- A job whose run on the engine a parity fault meets: until its completion it has no end but the run's own.
DEDUCED, log 80. -/
def onEngine (s : State) (o : Op) : Bool :=
  s.cip.running = some o.tag && dsKind o.desc = 1 &&
    (match o.result with
     | none => true
     | some r => r.1 == .ok || r.1 == .tagMismatch || r.1 == .denied)

/-- The job now on the cipher engine ends with FAULT, its window bytes and its gate are zeroed, and source 7 reports. The
status stands whatever a tamper step then does to the job (R508). -/
def parityError (s : State) : State :=
  match s.job.ops.find? (onEngine s) with
  | none => s
  | some o =>
    let s := opMod o.tag (fun o => { o with result := some (.fault, false, []), written := 0 }) (zeroOut o s)
    let s := if namesGate o then pageMod o.page gateZero s else s
    let s := evAes 0 { s with cip.running := none, cip.faults := satInc 65535 s.cip.faults }
    tamperEvent 7 s

def execCipherParityError (s : State) : Host.Outcome State Fault Refusal := done s (parityError s)

end Sys2Proof.Machine
end

