-- ==== Sys2Proof/Machine/Keystore.lean ====
section
/-! DEFINITION. The key store's routines (R481 to R497, R505): life-cycle transitions with their journal, the debug seal, slot
writes, the device identity, and the clearing of the tamper latch. Each answers the status that ends the routine. -/

namespace Sys2Proof.Machine

/-! ### Life-cycle transitions (R484 to R486) -/

/-- The single state that may be entered next (R482). -/
def lcNext : LifeCycle → Option LifeCycle
  | .blank => some .factory
  | .factory => some .field
  | .field => some .retn
  | .retn => none

/-- A persistent slot that leaving `a` for `b` destroys (R484): empty slots are among them. -/
def lcDestroys (a b : LifeCycle) (k : Slot) : Bool := a == .blank || !(atLc k.attr).testBit b.code

/-- Do an action for each number below `n` until one fails. -/
def eachTill (f : Nat → State → Bool × State) : Nat → State → Bool × State
  | 0, s => (true, s)
  | n + 1, s =>
    let r := eachTill f n s
    if r.1 then f n r.2 else r

/-- A write of one record. -/
def recOne (rid : Nat) (data : Bytes) (s : State) : Bool × State :=
  let r := recWrite false rid data s
  (r.1.isOk, r.2)

/-- Step 2: the secret of the state entered is drawn and its helper records are written (R478). -/
def lcEnrol (b : LifeCycle) (s : State) : Bool × State :=
  let k := drawKey s
  let r := eachTill (fun i => recOne (helperRid b + i) (padTo 240 (Config.helperData k.1 (Fin.ofNat 2 i)))) 2 k.2
  if r.1 then (true, { r.2 with ks.secrets := vset r.2.ks.secrets b.code (some k.1) }) else r

/-- Step 3: destroyed slots are overwritten, both copies. DEDUCED, log 85. -/
def lcSlots (a b : LifeCycle) (s : State) : Bool × State :=
  eachTill (fun i s =>
    let k := slotGet s i
    if lcDestroys a b k && (k.key.isSome || k.attr != 0) then
      let r := recWriteBoth false (0x40 + i) (slotRecord s Slot.empty) s
      if r.1 then (true, slotMod i (fun _ => Slot.empty) r.2) else r
    else (true, s)) 56 s

/-- Step 4: credentials of destroyed slots go to `STATE` 0. -/
def lcCreds (a b : LifeCycle) (s : State) : Bool × State :=
  eachTill (fun i s =>
    let c := credGet s i
    if c.st ≠ 0 && c.slot < 56 && lcDestroys a b (slotGet s c.slot) then
      let c := { c with st := 0 }
      let r := recOne (0x100 + i) (credBytes i c) s
      if r.1 then (true, credMod i (fun _ => c) r.2) else r
    else (true, s)) 256 s

/-- The bytes of the device identity that its 16 parts carry, wrapped under the root (R497, R517). -/
def identityBytes (root : BitVec 256) (i : CrtKey × Bytes) : Bytes :=
  padTo 3840 (Config.wrapRoot root (beNat (beBytes 256 i.1.p ++ beBytes 256 i.1.q ++ beBytes 256 i.1.dP ++ beBytes 256 i.1.dQ
    ++ beBytes 256 i.1.qInv ++ i.2)))

/-- Write the identity: its 16 parts, then the index that commits them. -/
def identityStore (both : Bool) (root : BitVec 256) (i : CrtKey × Bytes) (s : State) : Bool × State :=
  let b := identityBytes root i
  let r := eachTill (fun n => recOne (0x29 + n) (sl b (240 * n) 240)) 16 s
  let idx := padTo 240 (leBytes 2 i.2.length)
  if !r.1 then r else if both then recWriteBoth false 0x28 idx r.2 else recOne 0x28 idx r.2

/-- Step 5: class keys under the root of the state entered: fresh when BLANK is left, re-wrapped, or erased when the root of
the state left cannot be rebuilt (R486). -/
def lcClasses (a b : LifeCycle) (s : State) : Bool × State :=
  let known := a == .blank || ((vget s.ks.secrets a.code none).isSome && !s.boot.pufFail)
  let s := { s with ks.root := vget s.ks.secrets b.code none }
  let s := if known then s else dtc 0xB75100 s
  let r := eachTill (fun c s =>
    if a == .blank then
      let k := drawKey s
      let s := { k.2 with ks.classKey := vset k.2.ks.classKey c (some k.1) }
      recWriteBoth false (0x20 + c) (classRecord s c) s
    else if known then recWriteBoth false (0x20 + c) (classRecord s c) s
    else classErase c s) 4 s
  if !r.1 then r
  else match r.2.ks.identity, r.2.ks.root with
    | some i, some k => identityStore true k i r.2
    | _, _ => r

/-- Step 6: the head gets its MAC under the root of the state entered (R124). -/
def lcHead (b : LifeCycle) (s : State) : Bool × State :=
  match select s 0x400, vget s.ks.secrets b.code none with
  | .copy c _ _, some n => recOne 0x400 (c.data.take 148 ++ headMac n c.data) s
  | _, _ => (true, s)

/-- Step 8: the helper records of the state left and the journal are overwritten, both copies; no state can rebuild the root
of another (R480). -/
def lcClear (a : LifeCycle) (s : State) : Bool × State :=
  let r := if a == .blank then (true, s)
    else eachTill (fun i => recWriteBoth false (helperRid a + i) (List.replicate 240 0)) 2
      { s with ks.secrets := vset s.ks.secrets a.code none }
  if !r.1 then r
  else
    let r := recWriteBoth false 0x3 (List.replicate 16 0) r.2
    if r.1 then (true, { r.2 with ks.journal := none }) else r

/-- One step of R485. -/
def lcStep (j : Journal) (s : State) : Bool × State :=
  match j.step with
  | 2 => lcEnrol j.to_ s
  | 3 => lcSlots j.from_ j.to_ s
  | 4 => lcCreds j.from_ j.to_ s
  | 5 => lcClasses j.from_ j.to_ s
  | 6 => lcHead j.to_ s
  | 7 => (true, { s with ks.fuses := s.ks.fuses ||| j.to_.fuses })
  | _ => lcClear j.from_ s

/-- A committed transition takes its next step; a step whose write is refused waits, and after the last one comes LCR with `LC_EVT`
(R485, R486). DEDUCED, log 84. -/
def lcResume (s : State) : State :=
  match s.ks.journal with
  | none => s
  | some j =>
    if !s.boot.nvmReady then s
    else
      let r := lcStep j s
      if !r.1 then r.2
      else if r.2.ks.journal.isNone then evKs 3 (resetTo .lcr r.2)
      else { r.2 with ks.journal := some { j with step := j.step + 1 } }

/-- LC_TRANSITION: the checks of R483 in the order that R616 and R617 give the dimensions, then the journal record commits
it, and the steps follow tick by tick. -/
def lcTransition (page target : Nat) (roleOk : Bool) (s : State) : Status × State :=
  if s.tmp.latch then (.tamper, s)
  else match lcNext s.ks.lc with
  | none => (.locked, s)
  | some b =>
    if target ≠ b.code || !roleOk || page ≠ (if s.ks.lc == .field then 6 else 7) then (.denied, s)
    else if s.boot.pufFail || s.permit.latch || s.acc.seqn.isSome || learning s || s.ks.journal.isSome then (.locked, s)
    else if !s.boot.rngReady then (.entropyFail, s)
    else if s.sup.region != .full || !s.boot.nvmReady || s.sup.vholdLow then (.lowEnergy, s)
    else if s.sup.thermOff then (.notReady, s)
    else
      let r := recOne 0x3 (padTo 16 [1, BitVec.ofNat 8 s.ks.lc.code, BitVec.ofNat 8 b.code]) s
      if !r.1 then (.lowEnergy, r.2)
      else (.ok, { r.2 with ks.journal := some { from_ := s.ks.lc, to_ := b, step := 2 } })

/-! ### Debug seal (R487) -/

def debugSeal (roleOk : Bool) (s : State) : Status × State :=
  if !roleOk then (.denied, s) else if s.ks.sealed then (.locked, s) else (.ok, { s with ks.fuses := s.ks.fuses ||| 0xC0 })

/-! ### Slots (R491, R493) -/

/-- The page that may write keys in the present state (R482). -/
def keyPage (s : State) : Nat := match s.ks.lc with
  | .blank => 7
  | .factory => 7
  | .field => 6
  | .retn => 6

/-- R491; CLASS and COUNTER of a volatile slot. -/
def attrBad (s : State) (n : Nat) (a : BitVec 32) : Bool :=
  a.getLsbD 21 || ((atDerive a || atPin a) && (atEnc a || atDec a)) || (atDerive a && atPin a)
    || !(atLc a).testBit s.ks.lc.code || (n ≥ 56 && (atClass a ≠ 0 || atCounter a ≠ 255))

/-- The slot holds a key. -/
def slotOccupied (s : State) (n : Nat) : Bool :=
  let k := slotGet s n
  k.key.isSome && (n ≥ 56 || (!k.rejected && (vget s.ks.classKey (atClass k.attr) none).isSome
    && k.epoch = vget s.ks.epoch (atClass k.attr) 0))

/-- The checks of R493 in order; `attr` none for an erase, `gen` true for a generate. -/
def slotCheck (page n : Nat) (roleOk : Bool) (attr : Option (BitVec 32)) (expect : Nat) (gen : Bool) (s : State) :
    Option Status :=
  if page ≠ keyPage s || !roleOk || (56 ≤ n && n < 60) then some .denied
  else if (match attr with | some a => attrBad s n a | none => false) then some .badDesc
  else if s.tmp.latch then some .locked
  else if slotOccupied s n && atOnce (slotGet s n).attr then some .locked
  else if expect ≠ 0xFFFF && expect ≠ (slotGet s n).gen then some .keyGone
  else if (match attr with
      | some a => n < 56 && atCounter a < 128 && (ctrGet s (atCounter a)).value ≥ 2 ^ 32 - 1
      | none => false) then some .locked
  else if gen && rngFails s then some .entropyFail
  else if n < 56 && s.ks.root.isNone then some .keyGone
  else none

/-- VOLATILE is read-only (R490). -/
def attrStored (n : Nat) (a : BitVec 32) : BitVec 32 := if n ≥ 56 then a ||| 0x100000 else a &&& 0xFFEFFFFF

/-- A slot operation: SLOT_WRITE and SLOT_GENERATE place a key, SLOT_ERASE leaves the attributes. -/
def slotOp (page n : Nat) (roleOk : Bool) (attr : Option (BitVec 32)) (expect : Nat) (key : Option (BitVec 256)) (s : State) :
    Status × State :=
  match slotCheck page n roleOk attr expect (attr.isSome && key.isNone) s with
  | some st => (st, s)
  | none =>
    match attr with
    | none =>
      let r := slotCommit n (slotGet s n).attr none s
      (r.1, if r.1 == .ok then evKs 1 r.2 else r.2)
    | some a =>
      let k := match key with
        | some k => (k, s)
        | none => drawKey s
      let r := slotCommit n (attrStored n a) (some k.1) k.2
      (r.1, if r.1 == .ok then evKs 0 r.2 else r.2)

/-! ### Identity (R497) -/

def identityWrite (roleOk : Bool) (key : CrtKey) (cert : Bytes) (s : State) : Status × State :=
  if s.ks.lc != .factory then (.locked, s)
  else if !roleOk then (.denied, s)
  else if s.ks.identity.isSome then (.locked, s)
  else match s.ks.root with
    | none => (.keyGone, s)
    | some k =>
      let r := identityStore false k (key, cert) s
      if r.1 then (.ok, { r.2 with ks.identity := some (key, cert) }) else (.lowEnergy, r.2)

/-! ### Clearing the tamper latch (R505) -/

/-- A source whose applied step was 4 is still present. -/
def tamperPresent (s : State) : Bool :=
  (List.range 8).any (fun i => s.tmp.active.getLsbD i && vget s.tmp.applied i 0 = 4)

/-- TAMPER_CLEAR: the latch and every count, the latch record, a log entry with no source (8) and step 0. -/
def tamperUnlatch (roleOk : Bool) (s : State) : Status × State :=
  if s.ks.lc == .blank then (.locked, s)
  else if !roleOk then (.denied, s)
  else if tamperPresent s then (.locked, s)
  else
    let s := { s with tmp.latch := false, tmp.count := Vector.replicate 8 0 }
    let s := latchRecord s
    let s := logRecord { source := 8, step := 0, count := 0, reset := false, wake := false, state := stateCode s, time := now48 s,
                         stale := !(s.clk.mode == .following || s.clk.mode == .master) || s.clk.stale } s
    (.ok, evTmp 8 s)

end Sys2Proof.Machine
end

