-- ==== Sys2Proof/Machine/Image.lean ====
section
/-! DEFINITION. The configuration image in flash (R98, R110 to R115) and the tuning of the LF channels (R239 to R244, R257). -/

namespace Sys2Proof.Machine

/-! ### The image (R110 to R114) -/

/-- Fixed part of the image. -/
def imHead (s : State) : Bytes := flashRead s 0 0x1050
/-- The signed region. -/
def imSigned (h : Bytes) : Bytes := h.take 0xA40
/-- The maker certificate. -/
def imCert (h : Bytes) : Bytes := sl h 0xC40 1040
def imId (h : Bytes) : Bytes := sl h 0x18 8
def ceMaker (c : Bytes) : Nat := u32 c 4
def ceKeyVersion (c : Bytes) : Nat := u16 c 8
def ceLcMask (c : Bytes) : Nat := u16 c 10
def ceModulus (c : Bytes) : Nat := beNat (sl c 0x10 512)

/-- Entries of the section table in use. -/
def imEntries (h : Bytes) : List Bytes := (List.range (imCount h)).map (imEntry h)

/-- `structure_bad` of R114. DEDUCED, log 42. -/
def structureBad (h : Bytes) : Bool :=
  let es := imEntries h
  u16 h 4 ≠ 1 || !rg (imCount h) 1 32 || es.any (fun e => seRev e ≠ 1 || !rg (seType e) 1 11)
    || !distinctB ((es.map seType).filter (· ≠ 11)) || (es.filter (fun e => seType e = 11)).length > 4
    || es.any (fun e => seOff e < 0x1050 || seOff e + seLen e > imLen h)
    || !disjoint (es.map (fun e => (seOff e, seLen e))) || (es.map seLen).sum > 98304

/-- The certificate is signed by the production root, or in BLANK by the test root, and names the image's maker (R111). -/
def certValid (lc : LifeCycle) (h : Bytes) : Bool :=
  let c := imCert h
  let ok := fun (m e : Nat) => pssVerify m e 64 (c.take 0x210) (sl c 0x210 512)
  c.take 4 = [0x48, 0x46, 0x4B, 0x43] && u32 c 12 = 65537 && ceLcMask c < 16
    && (ok Config.prodRootModulus Config.prodRootExp || (lc == .blank && ok Config.testRootModulus Config.testRootExp))

/-- Bytes of a section. -/
def secBytes (s : State) (e : Bytes) : Bytes := flashRead s (seOff e) (seLen e)

/-- The sections in table order. -/
def imSections (s : State) (h : Bytes) : List (Nat × Bytes) := (imEntries h).map (fun e => (seType e, secBytes s e))

/-- Verdict of R114; `head` is the authenticated retained head. DESIGN CHOICE, log 44. -/
def verdict (answers : Bool) (bad : List Nat) (head : Option Bytes) (s : State) : Nat :=
  let h := imHead s
  let c := imCert h
  let lc := s.ks.lc
  if !answers || h.take 4 ≠ [0x48, 0x46, 0x4B, 0x49] then 2
  else if structureBad h then 3
  else if !certValid lc h || imMaker h ≠ ceMaker c || !(ceLcMask c).testBit lc.code then 4
  else if !pssVerify (ceModulus c) 65537 64 (imSigned h) (sl h 0xA40 512) then 5
  else if (match head with | some r => imSec h < hdSecMin r || ceKeyVersion c < hdKeyMin r | none => false) then 6
  else if (lc == .field || lc == .retn) && (match head with | some r => imMaker h ≠ hdMaker r | none => false) then 7
  else if (List.range (imCount h)).any (fun i =>
      bad.contains i || sha512 (secBytes s (imEntry h i)) ≠ seDigest (imEntry h i)) then 8
  else if !settingsOk (settingsOf (imSections s h))
      || (((imEntries h).filter (fun e => seType e = 11)).map seLen).sum > 32768 then 9
  else if (imEntries h).any (fun e => seType e = 11) && imRom h ≠ Config.romRev.toNat then 10
  else if (match head with | some r => decide (hdImage r = sha512 (imSigned h)) | none => false) then 1
  else 0

/-- The head when it authenticates. -/
def headGood (s : State) : Option Bytes := match headOf s with
  | .good h => some h
  | _ => none

/-! ### Tuning -/

/-- Q scaled by 2^20, and whether it can be told: π N / ln(I_0 / I_N). -/
def qScaled (m : LfMeasure) : Option Nat :=
  if m.iN = 0 || m.i0 ≤ m.iN || lnRatio m.i0 m.iN = 0 then none
  else some (piF * m.periods * 2 ^ 10 / lnRatio m.i0 m.iN)

/-- |Z| in µΩ. -/
def zAbs (m : LfMeasure) : Nat := isqrt (m.zRe.natAbs * m.zRe.natAbs + m.zIm.natAbs * m.zIm.natAbs)

/-- The classification of R241, first matching row. DESIGN CHOICE, log 47. -/
def tuneResult (limit : Nat) (m : LfMeasure) : TuneResult :=
  if m.pins == .nearSupply then .shortSupply
  else if m.pins == .nearGnd || m.highTrip then .shortGnd
  else if zAbs m < 250000 || m.lowTrip then .shortCoil
  else if m.driveMa < 10 || m.crossings < 4 then .open
  else if zAbs m * 256 > limit * m.zRe.toNat || m.fRes < 110000 || m.fRes > 140000
      || (match qScaled m with | some q => q < 4 * 2 ^ 20 || q > 60 * 2 ^ 20 | none => true) then .detuned
  else .ok

/-- A result that excludes the channel for a fault. -/
def TuneResult.isFault (r : TuneResult) : Bool := 3 ≤ r.code

/-- The measurement of a channel; a channel the surroundings give none for carries no current. -/
def measureOf (l : List LfMeasure) (ch : Nat) : LfMeasure :=
  (l.find? (fun m => m.ch.val = ch)).getD
    { ch := Fin.ofNat 16 ch, pins := .clean, highTrip := false, lowTrip := false, driveMa := 0, zRe := 1000000, zIm := 0,
      crossings := 0, fRes := 0, i0 := 0, iN := 0, periods := 0, couplings := [] }

/-- A tuned channel before reversal. -/
def tuneCh (ant : Bytes) (m : LfMeasure) (ch : Nat) : Channel :=
  let r := tuneResult (antDetune ant) m
  let clean := m.pins == .clean
  { Channel.reset with
    result := r,
    fRes := if clean then m.fRes else 0,
    q := if clean then min 255 (((qScaled m).getD (64 * 2 ^ 20) * 4 + 2 ^ 19) / 2 ^ 20) else 0,
    rloop := if clean then m.zRe.toNat else 0,
    zmag := if clean then zAbs m else 0,
    zphase := if clean then sgn 8 (toU 8 (roundDiv (angle m.zRe m.zIm) (2 ^ 56))) else 0,
    st := if r.isFault then 2 else if r == .detuned && bit (antFlags ant ch) 1 then 3 else 1,
    lastFault := if r.isFault then r.code else 0,
    faults := b2n r.isFault }

/-- Sign of a valid coupling: true is negative (R242). -/
def couplingSign (m : LfMeasure) (r : Nat) : Option Bool :=
  match m.couplings.find? (fun c => c.ref.val = r) with
  | some c => if c.re * c.re + c.im * c.im ≥ 4000000 && c.im.natAbs ≥ c.re.natAbs then some (decide (c.im < 0)) else none
  | none => none

/-- rev of a channel when it is checked, none when it is unchecked; the anchor's is false (R242). -/
def revOf (ant : Bytes) (l : List LfMeasure) (ch : Nat → Channel) : Nat → Nat → Option Bool
  | 0, _ => none
  | n + 1, c =>
    let r := antRef ant c
    if r = c then some false
    else if r = 255 || (ch r).st ≥ 2 || (ch c).st ≥ 2 then none
    else match revOf ant l ch n r, couplingSign (measureOf l c) r with
      | some v, some g => some ((g != bit (antFlags ant c) 0) != v)
      | _, _ => none

/-- A DTC of tuning: present, it stays active and is confirmed at the second start-up in a row; absent, it ends (R257). -/
def dtcTune (present : Bool) (code : Nat) (s : State) : State :=
  if present then
    let s := dtcRaise dtcPending code s
    { s with diag.dtcs := s.diag.dtcs.map (fun d =>
        if d.code = code then { d with starts := d.starts + 1, st := if d.starts ≥ 1 then d.st ||| 0x08 else d.st } else d) }
  else
    let s := dtcClear code s
    { s with diag.dtcs := s.diag.dtcs.map (fun d => if d.code = code then { d with starts := 0 } else d) }

/-- The DTCs of one channel. -/
def tuneDtcs (s : State) (n : Nat) : State :=
  let c := chGet s n
  let s := dtcTune (c.result == .open) (0xB72100 + n) s
  let s := dtcTune (c.result.code ≥ 4) (0xB72200 + n) s
  let s := dtcTune c.revBit (0xB72300 + n) s
  let s := dtcTune (c.result == .detuned) (0xB72400 + n) s
  dtcTune (c.rev = 2) (0xB72500 + n) s

/-- Tuning of every mapped channel (R239 to R244). -/
def tune (l : List LfMeasure) (s : State) : State :=
  let ant := s.set.antenna
  let chs := if ant = [] then [] else antChannels ant
  let ch0 : Nat → Channel := fun n => if chs.contains n then tuneCh ant (measureOf l n) n else Channel.reset
  let rev : Nat → Option Bool := revOf ant l ch0 17
  let others := chs.filter (fun c => antRef ant c ≠ c)
  let checked := others.filter (fun c => (rev c).isSome)
  let inv := decide (2 * (checked.filter (fun c => rev c == some true)).length > checked.length)
  let fin : Nat → Channel := fun n =>
    if !chs.contains n then Channel.reset
    else match rev n with
      | some v =>
        let b := v != inv
        { ch0 n with revBit := b, rev := if antRef ant n = n then 3 else if b then 1 else 0 }
      | none => { ch0 n with rev := 2 }
  let s := { s with lf.ch := Vector.ofFn (fun (i : Fin 16) => fin i.val), lf.tuned := true, lf.anchorInv := inv }
  let s := if chs.any (fun n => (fin n).revBit) then evLf 1 s else s
  let s := if chs.any (fun n => (fin n).result == .detuned) then evLf 2 s else s
  (List.range 16).foldl tuneDtcs s

end Sys2Proof.Machine
end

