-- ==== Sys2Proof/Machine/Startup.lean ====
section
/-! DEFINITION. Start-up (R97 to R107), the VHOLD measurement (R103 to R105), the retained settings' write (R119 to R122), and
the start with no pair (R605). -/

namespace Sys2Proof.Machine

/-! ### Steps 1 to 5 -/

/-- RESET_KIND: the first of the coincident kinds in the order of R147. -/
def resetKind (l : List ResetKind) : Nat :=
  match l with
  | [] => 0
  | k :: r => (r.foldl (fun a b => if b.rank < a.rank then b else a) k).code

/-- Highest WEAR among headers and free markers. -/
def maxWear (s : State) : Nat :=
  ((s.nvm.lower ++ s.nvm.upper).map (·.wear) ++ (s.nvm.freeLower ++ s.nvm.freeUpper).map (·.2)).foldl max 0

/-- Steps 1 to 3: the kind is latched, retained memory is indexed, the VHOLD measurement begins, the 40 MHz oscillator runs. -/
def bootBegin (rtc : Bool) (s : State) : State :=
  { s with boot.kind := resetKind s.boot.kinds, nvm.maxWear := maxWear s, sup.measured := false,
           sup.measureUntil := some (s.elapsed + tMs 500), clk.xo40 := true, clk.rtcRunning := rtc, boot.step := 3 }

/-- Step 4: the source starts; failures of the startup test count as R468 says, the third in a row latches. -/
def bootSeed (fails : Nat) (s : State) : State :=
  let s := (List.range (min 3 fails)).foldl (fun s _ => healthFail .startup s) { s with rng.sourceOn := true }
  if s.rng.latched then { s with boot.step := 4 }
  else
    let s := dtcClear 0xB74101 (dtcClear 0xB74100 (rngFresh { s with boot.rngReady := true, boot.step := 4 }))
    if fails > 0 then evRng 3 s else s

/-- Roles by the pairs that pass (R604, R605): code by physical pair. -/
def rolesOf (ok : List Bool) : List Nat :=
  let n := (ok.filter (· == true)).length
  if n = 1 then ok.map (fun b => if b then 1 else 3)
  else (ok.foldl (fun (a : List Nat × Nat) b => if b then (a.1 ++ [a.2], a.2 + 1) else (a.1 ++ [3], a.2)) ([], 0)).1

/-- Step 5. -/
def bootRoles (ok : List Bool) (s : State) : State :=
  let r := rolesOf ok
  let s := { s with flt.role := Vector.ofFn (fun (i : Fin 3) => r.getD i.val 3), flt.spare := r.contains 2, boot.step := 5 }
  let s := dtcClear 0xB78020 s
  (List.range 3).foldl (fun s i =>
    if ok.getD i false then dtcClear (0xB78000 + i) s else dtc (0xB78000 + i) (evFlt 1 s)) s

/-- No pair passed: the part waits (R605). DEDUCED, log 40. -/
def bootNoPair (s : State) : State :=
  { s with pwr.st := .waitNoPair, boot.step := 4, boot.retryAt := some (s.elapsed + tS 1) }

/-! ### Step 7 (R118) -/

/-- The retained tamper policy comes into force, the log-only default without an authentic head or its POLICY section.
DEDUCED, log 45. -/
def bootPolicy (s : State) : State :=
  let p : Bytes := match headOf s with
    | .good h => retainedPolicy s h
    | _ => []
  let s := { s with set := { Settings.empty with policy := p } }
  pinModes (policySec s) s

/-- Pins at their active level are onsets, captured with the rest. -/
def bootPins (pins : BitVec 4) (s : State) : State :=
  (List.range 4).foldl (fun s i => if pins.getLsbD i then tamperPin i s else s) s

/-- Captured events are answered in order until one resets; the rest stay captured. -/
def bootAnswer : List Nat → State → State
  | [], s => { s with tmp.captured := [] }
  | x :: r, s =>
    let s := tamperApply x s
    if s.boot.step = 1 then { s with tmp.captured := r } else bootAnswer r s

/-! ### Steps 10 to 12 -/

/-- What an image that is accepted or unchanged leaves in the boot registers. -/
def bootImage (v : Nat) (s : State) : State :=
  let h := imHead s
  let secs := imSections s h
  settingsIn (settingsOf secs) { s with
    boot.src := 0, boot.secVersion := imSec h, boot.keyVersion := ceKeyVersion (imCert h), boot.digest := sha512 (imSigned h),
    boot.imageId := imId h, boot.maker := imMaker h, boot.swp := false,
    boot.swNext := if v = 0 && !s.boot.pufFail then some 0 else none,
    boot.staged := if v = 0 && !s.boot.pufFail then staged secs else [] }

/-- Settings restored from the retained set of a head. -/
def bootRetained (h : Bytes) (l : List (Nat × Bytes)) (s : State) : State :=
  settingsIn (settingsOf l) { s with
    boot.src := 1, boot.secVersion := hdSecMin h, boot.keyVersion := hdKeyMin h, boot.digest := hdImage h,
    boot.imageId := leBytes 8 (Config.retainedImageId (staged l)).toNat, boot.swp := false, boot.staged := [],
    boot.swNext := none }

/-- Built-in defaults (R116). -/
def bootDefaults (src : Nat) (s : State) : State :=
  settingsIn Settings.empty { s with
    boot.src := src, boot.secVersion := 0, boot.keyVersion := 0, boot.digest := List.replicate 64 0,
    boot.imageId := leBytes 8 (Config.retainedImageId []).toNat, boot.swp := false, boot.staged := [],
    boot.swNext := none }

/-- The verdict and the settings that follow from it (R114, R115). Where the table leaves a point open: a head record that is absent
gives SETTINGS_SRC 2 with `PUF_FAIL` too, and under verdicts 0 and 1 the retained payload's digest is not checked, so RETAINED_BAD
tells the head alone. DESIGN CHOICE, log 119. -/
def bootSettings (answers : Bool) (bad : List Nat) (s : State) : State :=
  let v := verdict answers bad (headGood s) s
  let s := (List.range 9).foldl (fun s i => if i + 2 = v then dtc (0xB71002 + i) s else dtcClear (0xB71002 + i) s) s
  let headBad := headOf s == .bad
  let s := if headBad then dtc 0xB71101 s else dtcClear 0xB71101 s
  let s := ckptItem 1 (.image v) { s with boot.verdict := v, boot.retBad := headBad, boot.step := 12 }
  if v ≤ 1 then bootImage v s
  else match headOf s with
    | .absent => bootDefaults 2 s
    | .bad => bootDefaults 3 s
    | .good h => match retainedOf s h with
      | some l => bootRetained h l s
      | none => bootDefaults 3 { s with boot.retBad := true }

/-! ### Steps 13 and 14 -/

/-- A slot whose linked counter rejects its record reads empty (R495); the increments wait for NVM writes. -/
def slotReject (s : State) (n : Nat) : State :=
  let k := slotGet s n
  if k.key.isNone || atCounter k.attr ≥ 128 then slotMod n (fun k => { k with rejected := false }) s
  else
    let r := ctrRead (atCounter k.attr) s
    match r.1 with
    | some v =>
      if k.ctr = v || k.ctr = v + 1 then slotMod n (fun k => { k with rejected := false }) r.2
      else dtc 0xB75101 (evKs 2 (slotMod n (fun k => { k with rejected := true }) r.2))
    | none => dtc 0xB75101 (evKs 2 (slotMod n (fun k => { k with rejected := true }) r.2))

/-- Run begins on the settings in force; a start from low VBAT begins in crank hold (R64, R68), and it sets no CRANK_EVT: R95 names
entries from full function and from Heath and Fallow. DESIGN CHOICE, log 120; DEDUCED, log 39; DEDUCED, log 48. -/
def bootRun (s : State) : State :=
  let low := if s.boot.kind ≤ 2 then decide (s.sup.vbat < Config.vChx) else decide (s.sup.vbat < Config.vChe)
  let s := (List.range 56).foldl slotReject s
  let s := domainsStart (calAllDue { s with
    boot.ready := true, boot.step := 13, pwr.st := .run, pwr.idleSince := s.elapsed, tmp.meshDue := true,
    sup.shedVio := vioMask s, sup.region := if low then .crank else .full,
    sup.shedCrank := if low then shedFrom s (poShedCrank (policySec s)) else 0 })
  let s := thermOff (thermDerate (thermWarn s))
  if s.sup.vbat > Config.vOve then overvoltEnter s else s

/-- Tuning, and Burin begins executing entries. -/
def bootTune (l : List LfMeasure) (s : State) : State := ttLoad { tune l s with boot.step := 14 }

/-! ### START_UP -/

/-- Steps 6 to 14; a journal found at step 6 is completed first, and its LCR starts anew (R486). DEDUCED, log 32. -/
def bootRest (env : StartEnv) (s : State) : State :=
  let s := rootStart env.pufFails s
  let s := { s with boot.step := 6 }
  if s.ks.journal.isSome then s
  else
    let s := bootPins env.pinActive (bootPolicy s)
    let s := bootAnswer s.tmp.captured s
    if s.boot.step = 1 then s
    else bootTune env.tuning (bootRun (bootSettings env.flashAnswers env.badReads s))

/-- START_UP: once per reset, with VBAT above V_RTX after a PON or BOR (R97, R104). DEDUCED, log 30. -/
def startUp (env : StartEnv) (s : State) : State :=
  let s := seeTj env.tj (seeVhold env.vholdMv s)
  let cold := s.boot.kinds.any (fun k => k == .pon || k == .bor)
  if s.pwr.st != .startUp || s.boot.step ≠ 1 || (cold && s.sup.vbat < Config.vRtx) then s
  else if s.sup.vbat < Config.vRte then resetTo .bor s
  else
    let s := bootSeed env.seedFails (bootBegin env.rtcRunning s)
    let ok := [env.pairOk0, env.pairOk1, env.pairOk2]
    if !ok.contains true then bootNoPair (bootRoles ok s) else bootRest env (bootRoles ok s)

def execStartUp (env : StartEnv) (s : State) : Host.Outcome State Fault Refusal := withVbat env.vbatMv s (startUp env)

/-- NO_PAIR_RETRY: start-up is repeated as a WFR every 1 s. -/
def noPairRetry (s : State) : State :=
  if s.pwr.st == .waitNoPair && expired s s.boot.retryAt then resetTo .wfr s else s

def execNoPairRetry (s : State) : Host.Outcome State Fault Refusal := done s (noPairRetry s)

/-! ### The VHOLD measurement (R59, R103 to R105) -/

/-- The measurement is running. -/
def measuring (s : State) : Bool := s.sup.measureUntil.isSome && !s.sup.measured

/-- The measurement ends with a capacitance in µF; below 150 µF the DTC and VHOLD_LOW (R59). DESIGN CHOICE, log 31. -/
def measureEnd (c : Nat) (s : State) : State :=
  let s := { s with
    sup.measured := true, sup.measureUntil := none, sup.vholdCap := min 255 (c / 2), sup.vholdLow := decide (c < 150),
    sup.tHoldNs := 50000000 * min c 150 / 150, boot.nvmReady := true, boot.step := if s.boot.step = 14 then 15 else s.boot.step }
  let s := if c < 150 then dtc 0xB71102 s else dtcClear 0xB71102 s
  (List.range 56).foldl (fun s n => slotOpen n s) s

/-- VHOLD_MEASUREMENT_COMPLETE: C = I × Δt / 1.0 V with 40 mA above V_CHX and 16 mA below; the VBAT seen at the end of the charge
decides the current for the whole span, since R103 does not say what a crossing during it does. DESIGN CHOICE, log 121. -/
def measureDone (ns : Nat) (s : State) : State :=
  if !measuring s then s
  else measureEnd ((if s.sup.vbat ≥ Config.vChx then 40 else 16) * ns / 1000000) { s with sup.vhold := 14000 }

def execVholdMeasurementComplete (chargeNs : Nat) (s : State) : Host.Outcome State Fault Refusal :=
  done s (measureDone chargeNs s)

/-- VHOLD_MEASUREMENT_TIMEOUT: C = 0 after 500 ms. -/
def measureTimeout (s : State) : State := if measuring s && expired s s.sup.measureUntil then measureEnd 0 s else s

def execVholdMeasurementTimeout (s : State) : Host.Outcome State Fault Refusal := done s (measureTimeout s)

/-! ### The retained settings' write (R119 to R122) -/

/-- A bank's copy carries a generation. -/
def carries (b : List Copy) (rid gen : Nat) : Option (BitVec 32) :=
  match bankCopy b rid with
  | some c => if c.valid && u32 c.data 0 = gen then some c.seq else none
  | none => none

/-- The copy R120 overwrites: the one whose GEN differs from the committed one, or the lower SEQ when both carry it. Where neither
copy carries it the rule says nothing, and the record layer's own choice stands. DESIGN CHOICE, log 118. -/
def genTarget (s : State) (rid : Nat) : Option Nat → Option Bool
  | none => none
  | some gen =>
    match carries s.nvm.lower rid gen, carries s.nvm.upper rid gen with
    | some a, some b => some (decide ((a - b).toInt > 0))
    | some _, none => some true
    | none, some _ => some false
    | none, none => none

/-- Payload record `i` of the set. -/
def payloadWrite (gen : Nat) (old : Option Nat) (i : Nat) (s : State) : Bool × State :=
  let d := sl s.boot.staged (232 * i) 232
  let r := recWriteV false (genTarget s (0x401 + i) old) true true (0x401 + i)
    (leBytes 4 gen ++ leBytes 2 i ++ [BitVec.ofNat 8 d.length, 0] ++ padTo 232 d) s
  (r.1.isOk, r.2)

/-- The new head (R119, R121). -/
def newHead (gen : Nat) (root : BitVec 256) (s : State) : Bytes :=
  let b := s.boot.staged
  let h := leBytes 4 gen ++ leBytes 2 s.boot.secVersion ++ leBytes 2 s.boot.keyVersion ++ leBytes 4 s.boot.maker
    ++ leBytes 4 b.length ++ leBytes 2 ((b.length + 231) / 232) ++ [0, 0] ++ s.boot.digest ++ sha512 b
  h ++ headMac root h

/-- No set is left to write: the next start-up that accepts an image writes it again (R122). -/
def setDone (s : State) : State := { s with boot.swp := false, boot.staged := [], boot.swNext := none }

/-- RETAINED_SETTINGS_WRITE: the next record of the set, the head last, one record per job (R121). A record that is refused ends the
write and leaves the committed set (R122); SETTINGS_WRITE_PENDING then clears, which the rule leaves open. DESIGN CHOICE, log 46. -/
def settingsWrite (s : State) : State :=
  match s.boot.swNext, s.ks.root with
  | some n, some root =>
    if !s.boot.nvmReady then s
    else
      let old := (headGood s).map hdGen
      let gen := (old.getD 0 + 1) % 2 ^ 32
      let s := { s with boot.swp := true }
      if 232 * n < s.boot.staged.length then
        let r := payloadWrite gen old n s
        if r.1 then { r.2 with boot.swNext := some (n + 1) } else setDone r.2
      else setDone (recWriteV false (genTarget s 0x400 old) true true 0x400 (newHead gen root s) s).2
  | _, _ => s

def execRetainedSettingsWrite (vholdMv : Nat) (s : State) : Host.Outcome State Fault Refusal :=
  done s (settingsWrite (seeVhold vholdMv s))

end Sys2Proof.Machine
end

