-- ==== Sys2Proof/Machine/Power.lean ====
section
/-! DEFINITION. Power states (R127 to R145, R148 to R152): requests, entry to Heath and Fallow with what each loses, and wakes. -/

namespace Sys2Proof.Machine

/-! ### Requests (R131, R136, R148, R152) -/

/-- A write of PWR_CMD. -/
def pwrCmd (page req : Nat) (key : BitVec 16) (s : State) : Status × State :=
  if page ≠ 1 then (.denied, s)
  else if key ≠ 0xA5C3 then (.ok, s)
  else (.ok, { s with pwr.req := if req = 3 then 0 else req })

/-- The same from the host: before `READY` it is answered with NOT_READY (R148). -/
def pwrRequest (page req : Nat) (key : BitVec 16) (s : State) : State :=
  if !s.boot.ready && page = 1 then hostNote page .notReady 0x010004 s
  else hostDo page 0x010004 (pwrCmd page req key) s

def execPwrRequestHeath (page : Fin 8) (key : BitVec 16) (s : State) : Host.Outcome State Fault Refusal :=
  done s (pwrRequest page.val 1 key s)
def execPwrRequestFallow (page : Fin 8) (key : BitVec 16) (s : State) : Host.Outcome State Fault Refusal :=
  done s (pwrRequest page.val 2 key s)
def execPwrRequestCancel (page : Fin 8) (key : BitVec 16) (s : State) : Host.Outcome State Fault Refusal :=
  done s (pwrRequest page.val 3 key s)

/-- IDLE_TO_HEATH_EXPIRY: a sequence or round that is open keeps the timer from running (R136). -/
def idleExpiry (s : State) : State :=
  let t := poIdle (policySec s)
  if isRun s && t ≠ 0 && s.acc.seqn.isNone && s.acc.round.isNone && s.pwr.req = 0 && reached s (s.pwr.idleSince + tS t) then { s with pwr.req := 1 } else s

def execIdleToHeathExpiry (s : State) : Host.Outcome State Fault Refusal := done s (idleExpiry s)

/-! ### What Heath and Fallow lose (R127 to R133, R149, R150, and the Kept over column of R623) -/

/-- Settings entries whose action runs end without a completion, counted at their due instants (R133); entries that
prepare go back; run-time entries go. -/
def ttSleep (s : State) : State :=
  let s := (ttAll s).foldl (fun s x =>
    if x.2.st == .running && x.2.ofSettings then occSkip x.1 x.2 s
    else if (x.2.st == .preparing || x.2.st == .waiting) && x.2.ofSettings then
      ttPut x.1 (some { x.2 with st := .pending, holdUntil := none, claim := false }) s
    else s) s
  dropRuntime s

/-- A client page keeps its grants alone. -/
def pageSleep (p : Page) : Page := { Page.reset with base := p.base, len := p.len, ctrMask := p.ctrMask, pairSlot := p.pairSlot }

/-- The ports and controllers go down. DESIGN CHOICE, log 37. -/
def swSleep (s : State) : State :=
  { s with sw := { Sw.reset with evt := s.sw.evt },
           can := s.can.map (fun c => { Can.reset with on := c.on, evt := c.evt }) }

/-- The UHF domain: calibration results stay over Heath (R321). -/
def uhfSleep (s : State) : State := uhfOff { s with uhf.trx := s.uhf.trx.map (fun t => { t with blindUntil := 0 }) }

/-- A poll that had not begun is forgotten. -/
def pollsDrop (s : State) : State :=
  { s with lf.ch := s.lf.ch.map (fun c => { c with trigger := none }), lf.retestUntil := 0 }

/-- What both states lose; SESSION_OPEN, `SESSION` and the grid of its tokens are kept (R409), the re-grant is not (R149).
DEDUCED, log 38. -/
def sleepCommon (s : State) : State :=
  let s := pollsDrop (swSleep (uhfSleep (lfdOff (ttSleep s))))
  let s := domainsOff (holdover s)
  { s with
    pwr.req := 0, pwr.heathSince := s.elapsed,
    sup.lfScale := 1024, sup.tj := -64, sup.vdrvLimit := false,
    acc.eligible := false, acc.queue := [], acc.remotes := [], acc.decisions := 0,
    ov := Overrides.none, job := Job.reset, pages := s.pages.map pageSleep, cip := { s.cip with running := none, hpkRunning := none },
    rng.queue := [], rng.data := 0, rng.valid := false,
    clk.tpo := Vector.replicate 4 Tpo.reset, clk.nowHi := 0, clk.acc := 0, clk.learning := none, clk.freqSat := false,
    kl.frames := 0, kl.replies := 0, loc := { s.loc with fixXy := 0, fixZ := 0x00FF0000, range := 0xFFFFFFFF },
    spi := { Spi.reset with lock := s.spi.lock, pageOff := s.spi.pageOff, scratch := s.spi.scratch },
    diag := { Diag.reset with dtcs := s.diag.dtcs, waiting := s.diag.waiting, conditions := s.diag.conditions, evt := s.diag.evt, authFails := s.diag.authFails,
                              exceeded := s.diag.exceeded, lockUntil := s.diag.lockUntil },
    flt.ckpts := Vector.replicate 2 0, flt.mem := Flt.reset.mem, tmp.diff := Vector.replicate 2 0, win := [] }

/-- Heath is entered; entries it excludes are suspended (R216). -/
def enterHeath (s : State) : State :=
  let s := suspendResume (sleepCommon { s with pwr.st := .heath })
  { s with clk.tickInc := some (tickOf s) }

/-- What Fallow loses besides (R142, R145, R149): volatile slots and the root, the generator's state, UHF calibration, the
servo and its holdover table, ICNT values, FALLOW_DENIED. Entries stay on their grids; no step re-anchors them (R217). -/
def enterFallow (s : State) : State :=
  let s := sleepCommon s
  { s with
    pwr.st := .fallow, pwr.fallowDenied := false,
    ks.root := none, ks.slots := (ksReset s.ks).slots,
    rng.seeded := false, rng.recovering := false, rng.reinst := false, rng.sourceOn := false, rng.requests := 0,
    uhf.trx := s.uhf.trx.map (fun _ => Trx.reset),
    clk.table := [], clk.freqAdj := 0, clk.xo40 := s.clk.xo40,
    acc.creds := s.acc.creds.map (fun c => { c with icnt := none, lastCmd := none }), acc.resync := [] }

/-- The settings in force can be rebuilt at a wake without the flash (R134). -/
def rebuildable (s : State) : Bool :=
  s.boot.src ≥ 2 || (match headGood s with | some h => decide (hdImage h = s.boot.digest) | none => false)

/-- ENTER_HEATH: no hold condition is true on a pending Heath request. -/
def heathEntry (s : State) : State :=
  if isRun s && s.pwr.req = 1 && !held s then enterHeath s else s

def execEnterHeath (s : State) : Host.Outcome State Fault Refusal := done s (heathEntry s)

/-- ENTER_FALLOW: Fallow, or Heath with FALLOW_DENIED (R134). -/
def fallowEntry (s : State) : State :=
  if !(isRun s && s.pwr.req = 2 && !held s) then s
  else if rebuildable s then enterFallow s
  else enterHeath { s with pwr.fallowDenied := true }

def execEnterFallow (s : State) : Host.Outcome State Fault Refusal := done s (fallowEntry s)

/-- HEATH_TO_FALLOW_EXPIRY (R135), subject to R134. DEDUCED, log 35. -/
def heathExpiry (s : State) : State :=
  let t := poHeathFallow (policySec s)
  if !(s.pwr.st == .heath && t ≠ 0 && s.pwr.debounce = [] && reached s (s.pwr.heathSince + tS (60 * t))) then s
  else if rebuildable s then enterFallow s
  else { s with pwr.fallowDenied := true, pwr.heathSince := s.elapsed }

def execHeathToFallowExpiry (s : State) : Host.Outcome State Fault Refusal := done s (heathExpiry s)

/-! ### Wakes (R138, R139, R141, R142) -/

/-- An edge: its time is kept (R46), debounce begins on the active edge, and in Heath or Fallow the domains power up with it when the
pin is enabled (R139). DEDUCED, log 36. -/
def wakeEdge (pin : Nat) (rising : Bool) (fails : Nat) (s : State) : State :=
  let active := rising != (poWakeEdge (policySec s)).testBit pin
  let s := { s with pwr.wakePins := if active then s.pwr.wakePins ||| onBit 8 pin else s.pwr.wakePins &&& ~~~(onBit 8 pin) }
  if !active || s.pwr.debounce.any (fun d => d.1 = pin) || !(isRun s || (asleep s && wakeEnabled s pin)) then s
  else
    { s with pwr.debounce := s.pwr.debounce ++ [(pin, s.elapsed + tUs (100 * poDebounce (policySec s)), fails)],
             pwr.edgeAt := vset s.pwr.edgeAt pin (now48 s) }

def execWakePinEdge (pin : Fin 8) (rising : Bool) (env : WakeEnv) (s : State) : Host.Outcome State Fault Refusal :=
  withVbat env.vbatMv s (fun s => wakeEdge pin.val rising env.pufFails (seeTj env.tj s))

/-- Run is reached from Heath or Fallow on a debounced pin. -/
def pinWake (pin fails : Nat) (s : State) : State :=
  let s := evWake pin s
  if s.pwr.st == .heath then runSupply (enterRun 1 s) else fallowToRun fails s

/-- Debounce of an edge ends: a wake, a pin trigger, or a rejection with SPURIOUS. -/
def debounceEnd (pin : Nat) (ok : Bool) (s : State) : State :=
  match s.pwr.debounce.find? (fun d => d.1 = pin) with
  | none => s
  | some d =>
    if !reached s d.2.1 then s
    else
      let s := { s with pwr.debounce := s.pwr.debounce.filter (fun x => !(x.1 = pin)) }
      if ok then
        let s := if asleep s && wakeEnabled s pin then pinWake pin d.2.2 s else s
        if isRun s then pinTrigger pin s else s
      else if asleep s && wakeEnabled s pin then evWake 13 s
      else s

def execWakeDebounceEnd (pin : Fin 8) (held : Bool) (s : State) : Host.Outcome State Fault Refusal :=
  done s (debounceEnd pin.val held s)

/-- FALLOW_VBAT_WAKE: VBAT rises through V_CHX. -/
def vbatWake (old fails : Nat) (s : State) : State :=
  if s.pwr.st == .fallow && wakeEnabled s 11 && old < Config.vChx && s.sup.vbat ≥ Config.vChx then fallowToRun fails (evWake 11 s)
  else s

def execFallowVbatWake (env : WakeEnv) (s : State) : Host.Outcome State Fault Refusal :=
  withVbat env.vbatMv s (fun t => vbatWake s.sup.vbat env.pufFails (seeTj env.tj t))

end Sys2Proof.Machine
end

