-- ==== Sys2Proof/Machine/Switch.lean ====
section
/-! DEFINITION. Switch events (R538, R540, R548, R551, R555, R556, R568): links, ageing, recovery, PLCA, blocked flows; frames
that leave. -/

namespace Sys2Proof.Machine

/-- RATE code a port runs at (R538); on a SerDes port in SGMII the PHY signals it. -/
def rateFits (b : Bytes) (p rate : Nat) : Bool :=
  if p < 2 then (if bit (u8 b 1) p then rate = 4 else rg rate 1 3)
  else if p < 6 then rate = (if bit (u8 b 2) (p - 2) then 3 else 2)
  else rate = 1

def plcaId (s : State) (p : Nat) : Nat := u8 (nwPort (netSec s) p) 28

/-- LINK_UP: an enabled port that is not shed. The coordinator's PLCA runs at once, a follower's at its first BEACON.
DEDUCED, log 99. -/
def linkUp (p rate : Nat) (s : State) : State :=
  if !swOn s || !nwPortEn (netSec s) p || portShed s p || !rateFits (netSec s) p rate || (portGet s p).rate = rate then s
  else evSw 0 (portMod p (fun x => { x with rate := rate, plca := p ≥ 6 && plcaId s p = 0 }) s)

def execLinkUp (port : Fin 8) (rate : Fin 5) (s : State) : Host.Outcome State Fault Refusal :=
  done s (linkUp port.val rate.val s)

/-- LINK_DOWN: the port's queues are emptied (R540). -/
def linkDown (p : Nat) (s : State) : State := if (portGet s p).rate = 0 then s else portDown p s

def execLinkDown (port : Fin 8) (s : State) : Host.Outcome State Fault Refusal := done s (linkDown port.val s)

def execFrameTransmit (port : Fin 9) (cls : Fin 8) (s : State) : Host.Outcome State Fault Refusal :=
  done s (frameTransmit port.val cls.val s)

/-- ADDRESS_AGE_OUT (R548). -/
def ageOut (mac : BitVec 48) (vid : BitVec 12) (s : State) : State :=
  { s with sw.learnt := s.sw.learnt.filter (fun l =>
      !(l.mac = mac && l.vid = vid && reached s (l.seen + tS (nwAge (netSec s))))) }

def execAddressAgeOut (mac : BitVec 48) (vid : BitVec 12) (s : State) : Host.Outcome State Fault Refusal :=
  done s (ageOut mac vid s)

/-- FRER_RESET: no frame has passed for `RESET` × 10 ms (R555). -/
def frerReset (n : Nat) (s : State) : State :=
  let f := vget s.sw.frer n Frer.reset
  let r := netRec (netSec s) 7 8 n
  if n < (netDir (netSec s) 7).2 && f.recv.isSome && reached s (f.passedAt + tMs (10 * u8 r 3)) then
    evSw 3 { s with sw.frer := vset s.sw.frer n { f with recv := none, hist := 0 } }
  else s

def execFrerReset (fn : Fin 16) (s : State) : Host.Outcome State Fault Refusal := done s (frerReset fn.val s)

/-- PLCA_STATUS_LOST on P6 or P7 (R556). -/
def plcaLost (p : Nat) (s : State) : State :=
  if (portGet s p).plca then evSw 4 (portMod p (fun x => { x with plca := false }) s) else s

def execPlcaStatusLost (port : Fin 2) (s : State) : Host.Outcome State Fault Refusal := done s (plcaLost (6 + port.val) s)

/-- PLCA_BEACON_RESUME. -/
def plcaResume (p : Nat) (s : State) : State :=
  if (portGet s p).rate ≠ 0 && plcaId s p ≠ 255 then portMod p (fun x => { x with plca := true }) s else s

def execPlcaBeaconResume (port : Fin 2) (s : State) : Host.Outcome State Fault Refusal := done s (plcaResume (6 + port.val) s)

/-- SW_FLOW_UNBLOCK (R551, R568). -/
def flowUnblock (page : Nat) (w : Word) (s : State) : Status × State :=
  let i := w.toNat % 2048
  if page ≠ 1 then (.denied, s)
  else if w.toNat / 65536 ≠ 0x5B1E || !(flowGet s i).blocked then (.ok, s)
  else (.ok, flowPut { flowGet s i with blocked := false } s)

def execSwFlowUnblock (page : Fin 8) (word : Word) (s : State) : Host.Outcome State Fault Refusal :=
  done s (hostDo page.val 0x0F0014 (flowUnblock page.val word) s)

end Sys2Proof.Machine
end

