-- ==== Sys2Proof/Machine/CanCtl.lean ====
section
/-! DEFINITION. The CAN controllers (R560 to R563, R570) and the reception of ISO 15765-2 messages (R587). -/

namespace Sys2Proof.Machine

def canGet (s : State) (n : Nat) : Can := vget s.can n Can.reset
def canMod (n : Nat) (f : Can → Can) (s : State) : State := { s with can := vmod s.can n f }

/-- The controller takes part in its bus: Run, outside ride-through, with a record. -/
def canLive (s : State) (n : Nat) : Bool := swOn s && (canGet s n).on && !(canGet s n).busOff

/-- Error passive (ISO 11898-1). -/
def canPassive (c : Can) : Bool := c.tec > 127 || c.rec_ > 127

/-- Head of a token frame: `PERMIT_ID` as EXT_ID and BRS of the record give it, DLC 13 (R562). -/
def canTokenHead (r : Bytes) : CanHead :=
  { id := BitVec.ofNat 29 (u32 r 12), ext := bit (u8 r 1) 2, fd := true, brs := bit (u8 r 1) 1, dlc := 13 }

/-- CAN_TOKEN_TRANSMIT: the queued token frame wins arbitration. -/
def canSend (n : Nat) (s : State) : State :=
  match (canGet s n).token with
  | none => s
  | some t =>
    if !canLive s n then s
    else canMod n (fun c => { c with token := none, lastTx := t, lastHead := some (canTokenHead (nwCan (netSec s) n)), sent := satInc 65535 c.sent, tec := c.tec - 1 }) s

def execCanTokenTransmit (ctl : Fin 2) (s : State) : Host.Outcome State Fault Refusal := done s (canSend ctl.val s)

/-- What one error adds to TEC (ISO 11898-1; PRESUMED, log 98): 8, but nothing for a missing acknowledgement while error passive
and for a stuff error during arbitration. -/
def tecAdd (passive : Bool) : CanFault → Nat
  | .tx | .txFlag | .txDominant => 8
  | .txNoAck => if passive then 0 else 8
  | _ => 0

/-- What one error adds to REC (ISO 11898-1; PRESUMED, log 98): 1 for an error detected, 8 in the other cases. -/
def recAdd : CanFault → Nat
  | .rx => 1
  | .rxFirstDominant | .rxFlag | .rxDominant => 8
  | _ => 0

/-- CAN_BUS_ERROR: the counters go up; entering error passive sets PASSIVE_EVT (R563, R570). -/
def canError (n : Nat) (f : CanFault) (s : State) : State :=
  if !canLive s n then s
  else
    let c := canGet s n
    let d := { c with tec := min 256 (c.tec + tecAdd (canPassive c) f), rec_ := min 255 (c.rec_ + recAdd f) }
    let s := canMod n (fun _ => d) s
    if canPassive d && !canPassive c then evCan n 1 s else s

def execCanBusError (ctl : Fin 2) (fault : CanFault) (s : State) : Host.Outcome State Fault Refusal :=
  done s (canError ctl.val fault s)

/-- CAN_BUS_OFF: TEC is above 255; the token frame waiting is discarded and counted (R563). -/
def canOff (n : Nat) (s : State) : State :=
  if !canLive s n || (canGet s n).tec < 256 then s
  else canMod n (fun c => { c with
      busOff := true, late := if c.token.isSome then satInc 65535 c.late else c.late, token := none }) s

def execCanBusOff (ctl : Fin 2) (s : State) : Host.Outcome State Fault Refusal := done s (canOff ctl.val s)

/-- CAN_BUS_OFF_RECOVERY. -/
def canBack (n : Nat) (s : State) : State :=
  if (canGet s n).busOff && swOn s then evCan n 0 (canMod n (fun c => { c with busOff := false, tec := 0, rec_ := 0 }) s) else s

def execCanBusOffRecovery (ctl : Fin 2) (s : State) : Host.Outcome State Fault Refusal := done s (canBack ctl.val s)

/-! ### Reception -/

def connGet (s : State) (c : Nat) : Conn := vget s.diag.conns c Conn.reset
def connMod (c : Nat) (f : Conn → Conn) (s : State) : State := { s with diag.conns := vmod s.diag.conns c f }

/-- The controller that carries UDS (R598). -/
def canDiag (s : State) (n : Nat) : Bool := (dgCan (diagSec s)).testBit n

/-- A whole request has arrived over CAN. -/
def canRequest (m : Bytes) (s : State) : State :=
  connMod 2 (fun c => { c with active := true, req := m, isoTp := none, seen := s.elapsed }) s

/-- Flow control: BS 0, STmin 1 ms; `st` 0 continue, 2 overflow (R587). -/
def flowControl (n st : Nat) (s : State) : State :=
  let b := diagSec s
  canMod n (fun c => { c with
    lastTx := [BitVec.ofNat 8 (0x30 + st), 0, 1] ++ List.replicate 5 0xCC,
    lastHead := some { id := BitVec.ofNat 29 (dgRespId b), ext := bit (dgCan b) 3, fd := bit (dgCan b) 2,
                       brs := bit (dgCan b) 2 && bit (u8 (nwCan (netSec s) n) 1) 1, dlc := 8 } }) s

/-- One frame of a segmented or single message; functional requests are single frames only. -/
def isoFrame (n : Nat) (functional : Bool) (d : Bytes) (s : State) : State :=
  let t := u8 d 0 / 16
  let lo := u8 d 0 % 16
  if t = 0 then
    let len := if lo = 0 then u8 d 1 else lo
    let m := d.drop (if lo = 0 then 2 else 1)
    if len = 0 || len > m.length || (lo = 0 && d.length ≤ 8) then s else canRequest (m.take len) s
  else if t = 1 && !functional then
    let len := lo * 256 + u8 d 1
    if len = 0 then flowControl n 2 s
    else flowControl n 0 (connMod 2 (fun c => { c with isoTp := some (d.drop 2, len, s.elapsed, 1), seen := s.elapsed }) s)
  else if t = 2 && !functional then
    match (connGet s 2).isoTp with
    | none => s
    | some (b, len, _, sn) =>
      if lo ≠ sn then connMod 2 (fun c => { c with isoTp := none }) s
      else
        let b := b ++ d.drop 1
        if b.length ≥ len then canRequest (b.take len) s
        else connMod 2 (fun c => { c with isoTp := some (b, len, s.elapsed, (sn + 1) % 16) }) s
  else s

/-- A correct frame lowers REC; above 127 it goes to 119, the lowest value ISO 11898-1 allows (PRESUMED, log 98). -/
def recDown (n : Nat) (s : State) : State :=
  canMod n (fun c => { c with rec_ := if c.rec_ > 127 then 119 else c.rec_ - 1 }) s

/-- CAN_FRAME_RECEIVE: accepted when the filters of DIAG name it; every other frame is ignored (R560). -/
def canReceive (n : Nat) (id : BitVec 29) (ext : Bool) (d : Bytes) (s : State) : State :=
  let b := diagSec s
  if !canLive s n then s
  else
    let s := recDown n s
    let mine := canDiag s n && ext == bit (dgCan b) 3 && (d.length ≤ 8 || (bit (dgCan b) 2 && d.length ≤ 64)) && s.boot.ready
    if !mine then s
    else if id.toNat = dgReqId b then isoFrame n false d s
    else if id.toNat = dgFuncId b then isoFrame n true d s
    else s

def execCanFrameReceive (ctl : Fin 2) (id : BitVec 29) (ext : Bool) (data : List Byte) (s : State) :
    Host.Outcome State Fault Refusal := done s (canReceive ctl.val id ext data s)

/-- N_CR_TIMEOUT: 1,000 ms without the next frame (R587). -/
def nCr (s : State) : State :=
  match (connGet s 2).isoTp with
  | some x => if reached s (x.2.2.1 + tMs 1000) then connMod 2 (fun c => { c with isoTp := none }) s else s
  | none => s

def execNCrTimeout (s : State) : Host.Outcome State Fault Refusal := done s (nCr s)

end Sys2Proof.Machine
end

