-- ==== Sys2Proof/Machine/Gptp.lean ====
section
/-! DEFINITION. Network time (R156 to R193): the servo, the domain states, selection, steps of the clock and what they do to
entries and pulses, peer delay, holdover, the RTC trim and the timer pulse outputs. -/

namespace Sys2Proof.Machine

/-! ### A step of the local clock (R158, R185, R212 to R214) -/

/-- s32 saturating at ±(2^31 − 1). -/
def satS32 (n : Int) : Int := max (-2147483647) (min 2147483647 n)

/-- The pulse of an output goes active for its width; a one-shot clears EN (R183, R193). -/
def tpoPulse (now : Nat) (t : Tpo) : Tpo :=
  { t with activeUntil := some (now + tNs (8 * t.width)), en := t.en && t.periodic, byEntry := t.byEntry && t.periodic }

/-- A step of `sigma` carries the clock to or past the target: one pulse at once, LATE, and the next grid instant (R185). -/
def tpoStep1 (now : Nat) (old : BitVec 48) (sigma : Int) (t : Tpo) : Tpo × Bool :=
  let d := s48 t.target old
  if t.en && decide (0 < d) && decide (d ≤ sigma) then
    let p : Int := max 1 t.period
    ({ tpoPulse now t with
        late := true, target := if t.periodic then t.target + BitVec.ofInt 48 (((sigma - d) / p + 1) * p) else t.target }, true)
  else (t, false)

def tpoStep (old : BitVec 48) (sigma : Int) (s : State) : State :=
  let r := s.clk.tpo.map (tpoStep1 s.elapsed old sigma)
  let s := { s with clk.tpo := r.map (·.1) }
  if r.toList.any (·.2) then evTim 8 s else s

/-- Insert into a list in serving order. -/
def byAhead (x : Nat × Entry) : List (Nat × Entry) → List (Nat × Entry)
  | [] => [x]
  | y :: r => if ahead x y then x :: y :: r else y :: byAhead x r

/-- One-shot entries that have not started. -/
def oneShots (s : State) : List (Nat × Entry) :=
  (ttAll s).filter (fun x => !x.2.periodic && (x.2.st == .pending || x.2.st == .waiting || (x.2.st == .preparing && x.2.kind ≠ 10)))

/-- One-shot entries that a forward step has passed start at once (R213). -/
def oneShotsStart (s : State) : State :=
  let l := ((oneShots s).filter (fun x => x.2.st != .waiting && x.2.isDue s && !x.2.excluded s)).foldr byAhead []
  if s.tt.exec then l.foldl (fun s x => entryDue x.1 s) s else s

/-- Pending one-shot entries complete with BAD_TIME without starting (R214). -/
def oneShotsDiscard (s : State) : State :=
  let l := (oneShots s).filter (fun x => !(s.lf.round && x.2.owner == .access && x.2.ref % 64 = 30))
  let s := l.foldl (fun s x => entrySkip x.1 x.2 .badTime s) s
  if l = [] then s else evTt 4 s

/-- The token slot grid follows a step as a periodic entry does (R212, R397). DEDUCED, log 61. -/
def slotStep (ref : Nat) (sigma : Int) (s : State) : State :=
  { s with acc.slot := s.acc.slot.map (fun e => (reanchor1 s ref sigma false e).1) }

/-- A round runs on carrier timing: the instant of its next frame, and the entry created for it, move with the clock (R307). -/
def roundStep (sigma : Int) (s : State) : State :=
  let m (t : BitVec 48) : BitVec 48 := t + BitVec.ofInt 48 sigma
  (oneShots s).foldl (fun s x =>
      if s.lf.round && x.2.owner == .access && x.2.ref % 64 = 30 then ttPut x.1 (some { x.2 with due := m x.2.due, grid := m x.2.grid }) s
      else s)
    { s with lf.roundDue := m s.lf.roundDue }

/-- The clock steps by `sigma`; `s` of R166 clears, and offsets and timestamps read earlier are taken on the stepped clock.
DEDUCED, log 58. -/
def clockStep (sigma : Int) (s : State) : State :=
  let old := now48 s
  let ref := fullNs s
  let n := (((fullNs s : Int) + sigma) % 281474976710656000000000).toNat
  let mv : Domain → Domain := fun d => { d with
    hist := d.hist.map (· + sigma), last := d.last.map (fun x => (x.1, x.2.1, x.2.2 + sigma)) }
  let pt : PortTime → PortTime := fun p => { p with
    t1 := p.t1.map (· + sigma), prev := p.prev.map (fun x => (x.1, x.2 + sigma)) }
  let s := evTim 0 { s with
    clk.sec := n / 1000000000, clk.ns := n % 1000000000, clk.lastStep := satS32 sigma, clk.acc := 0,
    clk.pri := mv s.clk.pri, clk.red := mv s.clk.red, clk.ports := s.clk.ports.map pt }
  let small := decide (sigma.natAbs < 2 ^ 46)
  let s := slotStep ref sigma (reanchor (fun _ => true) ref sigma small (stepRunning sigma (roundStep sigma (tpoStep old sigma (if sigma > 0 then launchStep s else s)))))
  if small then oneShotsStart s else oneShotsDiscard s

/-! ### The servo (R166, R168, R178) -/

/-- t_sync as a power of two of a second: intervals of 2^`LOG_SYNC` s, in 1/64 ns. -/
def syncTicks (s : State) : Nat := tS 1 / 2 ^ (-(tiLogSync s)).toNat

/-- The servo's frequency adjust before the clamp to s32, 2^-16 ppb. -/
def servoRate (s : State) (o acc : Int) : Int :=
  let f := -((tiKp s : Int) * o + (tiKi s : Int) * acc) * (2 ^ (-(tiLogSync s)).toNat : Nat)
  let lim : Int := (tiSlew s * 100 * 65536 : Nat)
  max (learned s - lim) (min (learned s + lim) f)

/-- The adjust joins the mean of the bin being learned (R178). -/
def learnAdd (s : State) : State :=
  match s.clk.learning with
  | some (t, since, sum, n) =>
    if t = s.uhf.temp then { s with clk.learning := some (t, since, sum + s.clk.freqAdj, n + 1) }
    else { s with clk.learning := some (s.uhf.temp, s.elapsed, s.clk.freqAdj, 1) }
  | none => { s with clk.learning := some (s.uhf.temp, s.elapsed, s.clk.freqAdj, 1) }

/-- A servo update with offset `o` (R166). DEDUCED, log 57. -/
def servo (o : Int) (s : State) : State :=
  let acc := (BitVec.ofInt 48 (s.clk.acc + o)).toInt
  let f := servoRate s o acc
  let g := max (-2147483648) (min 2147483647 f)
  { s with clk.acc := acc, clk.freqAdj := g, clk.freqSat := s.clk.freqSat || decide (f ≠ g) }

/-- Alignment to `o`: a step when it is forced or beyond `STEP_THRESH`, the servo otherwise (R168). -/
def align (force : Bool) (o : Int) (s : State) : State :=
  if force || decide (o.natAbs > tiStep s) then clockStep (-o) s else servo o s

/-! ### Domains (R169 to R175) -/

/-- The last 8 offsets lie within ±`LOCK_THRESH`: about zero when selected, about their mean otherwise (R169). -/
def lockNow (s : State) (sel : Bool) (h : List Int) : Bool :=
  let m := h.foldl (· + ·) 0
  decide (h.length = 8) && h.all (fun o => if sel then decide (o.natAbs ≤ tiLock s) else decide ((8 * o - m).natAbs ≤ 8 * tiLock s))

/-- An offset lies outside ±4 × `LOCK_THRESH`, measured the same way. -/
def lockOut (s : State) (sel : Bool) (o : Int) (h : List Int) : Bool :=
  let n := h.length
  if sel then decide (o.natAbs > 4 * tiLock s)
  else decide ((n * o - h.foldl (· + ·) 0).natAbs > 4 * n * tiLock s)

def toLocked (d : Dom) (s : State) : State :=
  domMod d (fun x => { x with st := .locked, lockedSince := some s.elapsed, outCount := 0, gmNew := false, suspectUntil := none,
                              backCount := 0 }) s

/-- SUSPECT (R173): Δ_before is formed from the 8 offsets of each domain before the trigger, when both have them and the other
domain is LOCKED (R174). `h` are the domain's offsets before the trigger. -/
def suspect (d : Dom) (h : List Int) (s : State) : State :=
  let o := domGet s (domOther d)
  let sum := fun (l : List Int) => l.foldl (· + ·) 0
  let df := sum h - sum o.hist
  let ok := o.st == .locked && h.length = 8 && o.hist.length = 8
  evTim 3 (domMod d (fun x => { x with
    st := .suspect, lockedSince := none, sinceTrigger := 0, otherN := 0, after := [], backCount := 0, outCount := 0,
    before := if ok then some (if d = .pri then df else -df) else none, noVerdict := !ok,
    suspectUntil := some (s.elapsed + tMs (10 * tiSuspect s)) }) s)

/-- `SUSPECT_HOLD` ends without a verdict; the slave port's latest delay is the new baseline (R174). -/
def suspectEnd (d : Dom) (s : State) : State :=
  let x := domGet s d
  if x.st == .suspect && x.noVerdict && expired s x.suspectUntil then
    let s := domMod d (fun x => { x with st := .acquiring, hist := [], suspectUntil := none, outCount := 0, syncAt := s.elapsed }) s
    evTim 5 { s with clk.ports := vmod s.clk.ports (tiSlave s d) (fun p => { p with hist := p.hist.take 1 }) }
  else s

/-- Δ: the primary's latest offset minus the redundant's (R174, R175). The spec does not say what Δ is while a domain has no
offset; the model takes 0 for that offset. DESIGN CHOICE, log 123. -/
def deltaNow (s : State) : Int := s.clk.pri.hist.headD 0 - s.clk.red.hist.headD 0

/-- A Sync of a SUSPECT domain (R174). -/
def suspectSync (d : Dom) (s : State) : State :=
  let o := domGet s (domOther d)
  let s := domMod d (fun x =>
    let n := x.sinceTrigger + 1
    { x with sinceTrigger := n, noVerdict := x.noVerdict || (n ≤ 9 && o.st != .locked),
             after := if rg n 2 9 then x.after ++ [deltaNow s] else x.after }) s
  let x := domGet s d
  if x.sinceTrigger = 9 then
    match x.before with
    | some b =>
      if x.noVerdict || x.otherN < 8 then domMod d (fun x => { x with noVerdict := true }) s
      else if (x.after.foldl (· + ·) 0 - b).natAbs ≤ 8 * tiXcheck s then toLocked d s
      else evTim 4 (domMod d (fun x => { x with st := .rerouted, suspectUntil := none, backCount := 0 }) s)
    | none => domMod d (fun x => { x with noVerdict := true }) s
  else s

/-- A Sync of a REROUTED domain (R175). -/
def reroutedSync (d : Dom) (s : State) : State :=
  let x := domGet s d
  let near : Bool := match x.before with
    | some b => decide ((8 * deltaNow s - b).natAbs ≤ 8 * tiXcheck s)
    | none => false
  if near && x.backCount + 1 ≥ 8 then toLocked d s
  else domMod d (fun x => { x with backCount := if near then x.backCount + 1 else 0 }) s

/-- A Sync of an ACQUIRING or LOCKED domain (R169). -/
def lockSync (d : Dom) (o : Int) (s : State) : State :=
  let x := domGet s d
  let sel := decide (s.clk.sel = some d)
  if x.st == .acquiring then (if lockNow s sel x.hist then toLocked d s else s)
  else if lockOut s sel o x.hist then
    if x.outCount + 1 ≥ 3 then domMod d (fun x => { x with st := .acquiring, outCount := 0, lockedSince := none }) s
    else domMod d (fun x => { x with outCount := x.outCount + 1 }) s
  else domMod d (fun x => { x with outCount := 0 }) s

/-! ### Sync (R166, R181) -/

/-- A port's peer delay makes it asCapable; a port with the computation disabled, and P6 and P7, use their stored delay (R159,
R160). -/
def portCapable (s : State) (p : Nat) : Bool :=
  decide (p < 6) && (bit (tiPdelayOff s) p || (vget s.clk.ports p PortTime.reset).capable)

def linkDelay (s : State) (p : Nat) : Int :=
  if p ≥ 6 || bit (tiPdelayOff s) p then tiStored s p else (vget s.clk.ports p PortTime.reset).delay

/-- Local time minus domain time at the ingress of a Sync (R164, R166). DEDUCED, log 53. -/
def syncOffset (s : State) (p origin : Nat) (corr : Int) : Int :=
  ((fullNs s : Int) - tiIng s p) - ((origin : Int) + corr / 65536 + linkDelay s p + tiAsym s p)

/-- gPTP messages reach the domain's slave port (R160, R170). DEDUCED, log 54. -/
def slaveOn (s : State) (d : Dom) : Bool :=
  let p := tiSlave s d
  domLive s d && decide (p < 6) && swOn s && (portGet s p).rate ≠ 0

/-- What the Sync does to the clock (R166, R168, R181). `led` says that the domain was selected and ACQUIRING or LOCKED when
the Sync came: a domain whose servo is frozen, or that the Sync's processing selects, leads from its next Sync. -/
def syncClock (d : Dom) (led : Bool) (o : Int) (s : State) : State :=
  let st := (domGet s d).st
  match s.clk.sel with
  | none =>
    if st == .locked then
      let s' := align (s.clk.mode == .free) o { s with clk.sel := some d }
      learnAdd (evTim 7 { s' with clk.mode := .following, clk.stale := false })
    else s
  | some c =>
    if led && c = d && (st == .acquiring || st == .locked) then
      let s := { align false o s with clk.mode := .following }
      if st == .locked then learnAdd s else { s with clk.learning := none }
    else s

/-- SYNC_RECEIVE. -/
def syncReceive (d : Dom) (origin : Nat) (corr : Int) (s : State) : State :=
  let p := tiSlave s d
  if !slaveOn s d || !portCapable s p then s
  else
    let o := syncOffset s p origin corr
    let x0 := domGet s d
    let x := if x0.st == .lost then { x0 with st := .acquiring, hist := [], gmNew := false } else x0
    let led := s.clk.sel = some d && (x.st == .acquiring || x.st == .locked)
    let jump : Bool := match x.hist.head? with
      | some h => x.st == .locked && decide ((o - h).natAbs > 200)
      | none => false
    let s := domMod d (fun _ => { x with
      offset := o, hist := (o :: x.hist).take 8, syncAt := s.elapsed,
      last := some (origin, corr, (fullNs s : Int) - tiIng s p) }) s
    let s := domMod (domOther d) (fun y =>
      if y.st == .suspect && y.sinceTrigger ≥ 1 then { y with otherN := y.otherN + 1 } else y) s
    let s :=
      if jump then suspect d x.hist s
      else if x.st == .suspect then suspectEnd d (suspectSync d s)
      else if x.st == .rerouted then reroutedSync d s
      else lockSync d o s
    syncClock d led o (selectDom s)

def execSyncReceive (dom : Dom) (originNs : Nat) (correction : Int) (s : State) : Host.Outcome State Fault Refusal :=
  done s (syncReceive dom originNs correction s)

/-- ANNOUNCE_RECEIVE (R172, R173). -/
def announceReceive (d : Dom) (gm : BitVec 64) (steps : BitVec 8) (path : List (BitVec 64)) (s : State) : State :=
  if !slaveOn s d || !portCapable s (tiSlave s d) then s
  else
    let x := domGet s d
    let s := domMod d (fun x => { x with gmSeen := true, gm := gm, steps := steps.toNat, path := path }) s
    if x.gmSeen && x.gm ≠ gm then
      let s := if s.clk.sel = some d then evTim 2 s else s
      let s := if x.st == .acquiring || x.st == .locked || x.st == .suspect || x.st == .lost then
          domMod d (fun x => { x with st := .acquiring, gmNew := true, hist := [], outCount := 0, lockedSince := none,
                                      suspectUntil := none, syncAt := s.elapsed }) s
        else s
      selectDom s
    else if x.gmSeen && x.path ≠ path && (x.st == .acquiring || x.st == .locked) then selectDom (suspect d x.hist s)
    else s

def execAnnounceReceive (dom : Dom) (gm : BitVec 64) (steps : BitVec 8) (path : List (BitVec 64)) (s : State) :
    Host.Outcome State Fault Refusal :=
  done s (announceReceive dom gm steps path s)

/-- SYNC_RECEIPT_TIMEOUT (R170). -/
def syncTimeout (d : Dom) (s : State) : State :=
  if reached s ((domGet s d).syncAt + tiTimeout s * syncTicks s) then domLost d s else s

def execSyncReceiptTimeout (dom : Dom) (s : State) : Host.Outcome State Fault Refusal := done s (syncTimeout dom s)

def execSuspectHoldExpiry (dom : Dom) (s : State) : Host.Outcome State Fault Refusal := done s (selectDom (suspectEnd dom s))

/-! ### Peer delay (R159, R173) -/

/-- A link that carries gPTP peer delay: P0 to P5, up. -/
def linkOn (s : State) (p : Nat) : Bool := decide (p < 6) && swOn s && (portGet s p).rate ≠ 0

/-- A domain whose slave port's link delay has jumped (R173). DEDUCED, log 58. -/
def delayJump (p : Nat) (s : State) : State :=
  selectDom ([Dom.pri, Dom.red].foldl (fun s d =>
    let x := domGet s d
    if domLive s d && tiSlave s d = p && (x.st == .acquiring || x.st == .locked) then suspect d x.hist s else s) s)

/-- Timestamps of the local clock for a message that arrives at or leaves a port now (R164). -/
def ingressNs (s : State) (p : Nat) : Int := (fullNs s : Int) - tiIng s p
def egressNs (s : State) (p : Nat) : Int := (fullNs s : Int) + tiEgr s p

/-- A timestamp that the peer's message carries: whole ns and the message's correctionField, in 2^-16 ns (IEEE 802.1AS-2020).
PRESUMED, log 136. -/
def peerTime (t : Nat) (corr : Int) : Int := 65536 * t + corr

/-- PDELAY_EXCHANGE_COMPLETE: the Pdelay_Resp to the request sent at t1 arrives now, at t4; mean link delay by the partner's rate,
with the correctionField of its two messages, asCapable, and a jump against the mean of the previous 8. -/
def pdelayDone (p t2 t3 : Nat) (c2 c3 : Int) (s : State) : State :=
  let x := vget s.clk.ports p PortTime.reset
  match x.t1 with
  | none => s
  | some t1 =>
  if !linkOn s p || bit (tiPdelayOff s) p then s
  else
    let t4 := ingressNs s p
    let r3 := peerTime t3 c3
    let ratio : Nat := match x.prev with
      | some (a, b) => if r3 > a && t4 > b then ((r3 - a) * 65536 / (t4 - b)).toNat else x.ratio
      | none => x.ratio
    let delay := ((t4 - t1) * ratio / 65536 - (r3 - peerTime t2 c2)) / 131072
    let jump := decide (x.hist.length = 8) && decide ((8 * delay - x.hist.foldl (· + ·) 0).natAbs > 1600)
    let cap := decide (delay ≤ 800)
    let s := { s with clk.ports := vset s.clk.ports p { x with
      delay := delay, ratio := ratio, prev := some (r3, t4), t1 := none, hist := (delay :: x.hist).take 8, capable := cap } }
    let s := if jump then delayJump p s else s
    if x.capable && !cap then slaveLost p s else s

def execPdelayExchangeComplete (port : Fin 6) (t2 t3 : Nat) (c2 c3 : Int) (s : State) : Host.Outcome State Fault Refusal :=
  done s (pdelayDone port.val t2 t3 c2 c3 s)

/-- PDELAY_REQUEST_TRANSMIT: the request leaves with its egress timestamp t1. DEDUCED, log 60. -/
def pdelayReq (p : Nat) (s : State) : State :=
  if !linkOn s p || bit (tiPdelayOff s) p then s
  else { s with clk.ports := vmod s.clk.ports p (fun x => { x with reqSent := x.reqSent + 1, t1 := some (egressNs s p) }) }

def execPdelayRequestTransmit (port : Fin 6) (s : State) : Host.Outcome State Fault Refusal := done s (pdelayReq port.val s)

/-- PDELAY_REQUEST_RECEIVE: answered on P0 to P5; an instance-specific request of domain 0 alone; discarded on P6, P7 (R160). -/
def pdelayResp (p : Nat) (inst : Bool) (domain : BitVec 8) (s : State) : State :=
  if !linkOn s p || (inst && domain ≠ 0) then s
  else { s with clk.ports := vmod s.clk.ports p (fun x => { x with respSent := x.respSent + 1, resp := some (ingressNs s p, egressNs s p) }) }

def execPdelayRequestReceive (port : Fin 8) (instanceSpecific : Bool) (domain : BitVec 8) (s : State) :
    Host.Outcome State Fault Refusal :=
  done s (pdelayResp port.val instanceSpecific domain s)

/-! ### Master ports (R160, R162) -/

/-- Master ports of a domain that can send: up, asCapable on P0 to P5. -/
def masterPorts (s : State) (d : Dom) : List Nat :=
  if (domGet s d).st == .off || !swOn s || tiRole s d = 0 then []
  else (List.range 8).filter (fun p => bit (tiMaster s d) p && (portGet s p).rate ≠ 0 && (p ≥ 6 || portCapable s p))

/-- Sync and Follow_Up on a master port now: the local clock for a grandmaster; for a bridge the last Sync received, its correction
grown by the link delay and the residence time (R162). DEDUCED, log 124. -/
def syncMsg (s : State) (d : Dom) (p : Nat) : Option SyncMsg :=
  let out := egressNs s p
  if tiRole s d = 2 then some { port := p, origin := out.toNat, corr := 0, egress := out }
  else (domGet s d).last.map (fun x =>
    { port := p, origin := x.1, egress := out,
      corr := x.2.1 + 65536 * (linkDelay s (tiSlave s d) + tiAsym s (tiSlave s d) + (out - x.2.2)) })

/-- SYNC_TRANSMIT: Sync and Follow_Up leave on each master port. -/
def syncTransmit (d : Dom) (s : State) : State :=
  let l := (masterPorts s d).filterMap (syncMsg s d)
  domMod d (fun x => { x with syncSent := x.syncSent + l.length, syncOut := l }) s

def execSyncTransmit (dom : Dom) (s : State) : Host.Outcome State Fault Refusal := done s (syncTransmit dom s)

/-- Announce on a master port, with this system's identity appended to the path trace (R159). A bridge passes on the last Announce
received, one step further. DEDUCED, log 124. -/
def announceMsg (s : State) (d : Dom) (p : Nat) : Option AnnounceMsg :=
  let x := domGet s d
  if tiRole s d = 2 then some { port := p, gm := Config.clockId, steps := 0, path := [Config.clockId] }
  else if x.gmSeen then some { port := p, gm := x.gm, steps := x.steps + 1, path := x.path ++ [Config.clockId] }
  else none

/-- ANNOUNCE_TRANSMIT. -/
def announceTransmit (d : Dom) (s : State) : State :=
  let l := (masterPorts s d).filterMap (announceMsg s d)
  domMod d (fun x => { x with annSent := x.annSent + l.length, annOut := l }) s

def execAnnounceTransmit (dom : Dom) (s : State) : Host.Outcome State Fault Refusal := done s (announceTransmit dom s)

/-! ### Holdover (R178, R180) -/

/-- A bin takes the mean adjust. -/
def binPut (t f : Int) : List (Int × Int) → List (Int × Int)
  | [] => [(t, f)]
  | b :: r => if b.1 = t then (t, f) :: r else b :: binPut t f r

/-- The selected domain is LOCKED. -/
def selLocked (s : State) : Bool :=
  match s.clk.sel with
  | some d => (domGet s d).st == .locked && tiRole s d ≠ 2
  | none => false

/-- HOLDOVER_BIN_LEARN: 10 s LOCKED at the temperature. -/
def binLearn (t : Int) (s : State) : State :=
  match s.clk.learning with
  | some (u, since, sum, n) =>
    if selLocked s && t = u && decide (-40 ≤ t) && decide (t ≤ 150) && n ≠ 0 && reached s (since + tS 10) then
      { s with clk.table := binPut t (roundDiv sum n) s.clk.table, clk.learning := some (t, s.elapsed, 0, 0) }
    else s
  | none => s

def execHoldoverBinLearn (tempC : Int) (s : State) : Host.Outcome State Fault Refusal := done s (binLearn tempC s)

/-- RTC_TRIM: spans add up in Heath; at 100 ms of 40 MHz cycles the tick increment is trimmed. -/
def rtcTrim (cycles ticks : Nat) (s : State) : State :=
  if s.pwr.st != .heath || !s.clk.rtcRunning then s
  else
    let c := s.clk.trimCycles + cycles
    let t := s.clk.trimTicks + ticks
    if c < 4000000 || t = 0 then { s with clk.trimCycles := c, clk.trimTicks := t }
    else
      let s := { s with clk.ratio := some (c, t), clk.trimCycles := 0, clk.trimTicks := 0 }
      { s with clk.tickInc := some (tickOf s) }

def execRtcTrim (cycles ticks : Nat) (s : State) : Host.Outcome State Fault Refusal := done s (rtcTrim cycles ticks s)

/-! ### Timer pulse outputs (R183, R184, R193, R206) -/

def tpoGet (s : State) (n : Nat) : Tpo := vget s.clk.tpo n Tpo.reset
def tpoMod (n : Nat) (f : Tpo → Tpo) (s : State) : State := { s with clk.tpo := vmod s.clk.tpo n f }

/-- An entry's pulse is armed and has not fired. -/
def tpoOwned (s : State) (n : Nat) : Bool := (tpoGet s n).en && (tpoGet s n).byEntry

/-- A kind 9 entry names the output, or its pulse is still armed (R206). -/
def tpoNamed (s : State) (n : Nat) : Bool := (ttAll s).any (fun x => x.2.kind = 9 && x.2.unit = n) || tpoOwned s n

/-- The conditions of R184 and R206 for arming. -/
def tpoArms (s : State) (n : Nat) (t : Tpo) : Bool :=
  let d := s48 t.target (now48 s)
  decide (0 < d) && decide (d ≤ 2 ^ 46) && (!t.periodic || decide (8 * t.width < t.period)) && !tpoNamed s n

/-- A write of `TIM_TPOn_CTRL`: CPG1 alone. Setting EN arms the output or sets ERR; EN of an output that a kind 9 entry names sets ERR
alone, and a pulse that an entry has armed stays as it is (R206). -/
def tpoCtrl (page n : Nat) (w : Word) (s : State) : Status × State :=
  if page ≠ 1 then (.denied, s)
  else if (w.getLsbD 0 && tpoNamed s n) || tpoOwned s n then
    (.ok, tpoMod n (fun t => { t with
      late := t.late && !w.getLsbD 3, err := w.getLsbD 0 || (t.err && !w.getLsbD 4) }) s)
  else
    let t := tpoGet s n
    let t := { t with periodic := w.getLsbD 1, pol := w.getLsbD 2, late := t.late && !w.getLsbD 3, err := t.err && !w.getLsbD 4,
                      width := w.toNat / 256 }
    let t :=
      if !w.getLsbD 0 then { t with en := false }
      else if t.en then t
      else if tpoArms s n t then { t with en := true }
      else { t with err := true }
    (.ok, tpoMod n (fun _ => t) s)

def tpoAddr (n : Nat) : Nat := 0x100040 + 0x10 * n

/-- TPO_ARM: a write with EN set. -/
def execTpoArm (page : Fin 8) (n : Fin 4) (word : Word) (s : State) : Host.Outcome State Fault Refusal :=
  done s (hostDo page.val (tpoAddr n.val) (tpoCtrl page.val n.val (word ||| 1)) s)

/-- TPO_FIRE: the clock has reached the target; the next target of a periodic output is one period on. -/
def tpoFire (n : Nat) (s : State) : State :=
  let t := tpoGet s n
  if t.en && swOn s && decide (s48 t.target (now48 s) ≤ 0) then
    tpoMod n (fun t => { tpoPulse s.elapsed t with
      target := if t.periodic then t.target + BitVec.ofNat 48 t.period else t.target }) s
  else s

def execTpoFire (n : Fin 4) (s : State) : Host.Outcome State Fault Refusal := done s (tpoFire n.val s)

/-- TPO_PULSE_END. -/
def execTpoPulseEnd (n : Fin 4) (s : State) : Host.Outcome State Fault Refusal :=
  done s (tpoMod n.val (fun t => if expired s t.activeUntil then { t with activeUntil := none } else t) s)

/-! ### The clock's read latch (R189) -/

/-- A read of `TIM_NOW_LO`: bits [31:0] of short time, and [47:32] latched. -/
def nowLo (s : State) : Nat × State :=
  let t := now48 s
  (t.toNat % 2 ^ 32, { s with clk.nowHi := t.extractLsb' 32 16 })

def execTimNowLoRead (page : Fin 8) (s : State) : Host.Outcome State Fault Refusal :=
  done s (portRead page.val 0x100004 nowLo s)

end Sys2Proof.Machine
end

