-- ==== Sys2Proof/Machine/RegRead.lean ====
section
/-! DEFINITION. Reads of the host registers (R9 to R14, R621 to R626 and each block's register rules): value and status, by
page and address. -/

namespace Sys2Proof.Machine

/-- What an access answers: its status under R575 and the word. -/
abbrev RegRes := Status × Nat

/-- A word from its fields: value and lowest bit. -/
def pk (l : List (Nat × Nat)) : Nat := (l.map (fun x => x.1 * 2 ^ x.2)).sum % 2 ^ 32

/-- A register every page reads. -/
def rdAll (v : Nat) : RegRes := (.ok, v % 2 ^ 32)
/-- A register that only some pages read: 0 and DENIED to the others (R575, R623). -/
def rdFor (ok : Bool) (v : Nat) : RegRes := if ok then (.ok, v % 2 ^ 32) else (.denied, 0)
/-- A write-only register: no page reads it (R12, R623). -/
def rdNone : RegRes := (.denied, 0)
/-- An unmapped word (R10). -/
def rdHole : RegRes := (.addrError, 0)

/-- Pages 1 and 6. -/
def p16 (p : Nat) : Bool := p = 1 || p = 6

/-- The word at `addr` of a row of words from `base`. -/
def inRow (addr base n : Nat) : Bool := decide (base ≤ addr) && decide (addr < base + 4 * n)

/-! ### SYS and PWR (R95, R96, R125, R126, R151 to R155, R601, R624, R625) -/

def bootStat (s : State) : Nat :=
  pk [(s.boot.kind, 0), (s.boot.step, 4), (s.boot.verdict, 8), (s.boot.src, 12), (b2n s.boot.pufFail, 14), (b2n s.boot.retBad, 15),
      (b2n s.boot.swp, 16), (b2n s.boot.nvmReady, 17), (b2n s.boot.ready, 18), (b2n s.boot.rngReady, 19)]

/-- Bits of `SYS_RING_IRQ` that CPG1 sees: its own rings JR4 to JR11 (R601). DEDUCED, log 92. -/
def ringIrqSeen (s : State) : Nat := (s.spi.ringIrq &&& 0xFF0).toNat

def sysLoad (s : State) (p a : Nat) : RegRes :=
  if inRow a 0x20 16 then rdAll (u32 s.boot.digest (a - 0x20))
  else if inRow a 0xA0 8 then rdFor (p = 1) (vget s.spi.scratch ((a - 0xA0) / 4) 0).toNat
  else match a with
  | 0x00 => rdAll (Config.romRev.toNat * 65536 + 0x1648)
  | 0x04 => rdFor (p = 1) (b2n s.spi.lock)
  | 0x08 => rdNone
  | 0x10 => rdAll (bootStat s)
  | 0x14 => rdAll (pk [(s.boot.secVersion, 0), (s.boot.keyVersion, 16)])
  | 0x18 => rdAll Config.uid.toNat
  | 0x1C => rdAll (Config.uid.toNat / 2 ^ 32)
  | 0x80 => rdFor (p = 1) (irqStat s)
  | 0x84 => rdFor (p = 1) s.spi.irqEn.toNat
  | 0x88 => rdFor (p = 1) (ringIrqSeen s)
  | 0x8C => rdFor (p = 1) s.spi.hostErr.toNat
  | 0x90 => rdFor (p = 1) (4 * s.spi.pageOff.toNat)
  | _ => rdHole

/-- PWR_STATE (R151): the hold bits report the present conditions, with or without a request; a wake source holds a request for the
state it is enabled in, so HOLD_WAKE needs one (R131). DESIGN CHOICE, log 130. -/
def pwrState (s : State) : Nat :=
  pk [(s.pwr.wokeFrom, 0), (s.pwr.req, 2), (b2n (holdPermit s), 4), (b2n (holdAccess s), 5), (b2n (holdDiag s), 6), (b2n (holdNvm s), 7),
      (b2n (holdSupply s), 8), (b2n (holdJobs s), 9), (b2n (holdWake s), 10), (b2n s.pwr.fallowDenied, 11)]

def supplyStat (s : State) : Nat :=
  pk [(s.sup.region.code, 0), (s.sup.evt.toNat, 8), (b2n s.sup.vholdLow, 15), (min 255 s.sup.vholdCap, 16),
      (min 255 (s.sup.tj + 64).toNat, 24)]

def pwrLoad (s : State) (a : Nat) : RegRes :=
  match a with
  | 0x00 => rdAll (pwrState s)
  | 0x04 => rdNone
  | 0x08 => rdAll s.pwr.wakeSrc.toNat
  | 0x0C => rdAll (domainOn s)
  | 0x40 => rdAll (supplyStat s)
  | 0x44 => rdAll (pk [(if s.sup.vdrvOn then min 255 s.sup.vdrvSet else 0, 0), (vdrvNow s, 8), (s.sup.lfScale, 16), (b2n s.sup.vdrvLimit, 27)])
  | _ => rdHole

/-! ### TT (R221 to R226) -/

/-- The selected entry, when the page may read it (R200). -/
def ttSeen (s : State) (p : Nat) : Option Entry :=
  match ttGet s (pageGet s p).ttSel with
  | some e => if e.ofSettings || e.page = p then some e else none
  | none => none

def EntryState.code : EntryState → Nat
  | .pending => 1 | .waiting => 2 | .preparing => 3 | .running => 3 | .suspended => 4

def entryCtrl (e : Entry) : Nat :=
  pk [(e.kind, 0), (b2n e.periodic, 4), (b2n e.run, 5), (b2n e.heath, 6), (e.catchup, 7), (e.prio, 9), (b2n (!e.ofSettings), 11),
      (if e.ofSettings then 0 else e.page, 12), (e.unit, 16), (e.st.code, 24)]

def ttLoadReg (s : State) (p a : Nat) : RegRes :=
  let f (g : Entry → Nat) : RegRes := rdAll (match ttSeen s p with | some e => g e | none => 0)
  match a with
  | 0x00 => rdAll (pk [((ttAll s).length, 0), (s.tt.nSettings, 9), (((ttAll s).filter (fun x => x.2.st == .waiting)).length, 18)])
  | 0x04 => rdAll s.tt.evt.toNat
  | 0x10 => rdAll (pageGet s p).ttSel
  | 0x14 => f entryCtrl
  | 0x18 => f (fun e => e.due.toNat)
  | 0x1C => f (fun e => e.due.toNat / 2 ^ 32)
  | 0x20 => f (fun e => pk [(min 65535 e.lateCount, 0), (min 65535 e.passed, 16)])
  | 0x24 => f (fun e => min (2 ^ 32 - 1) e.lag)
  | 0x28 => f (fun e => if e.periodic && e.count ≠ 0 then e.remain else 0)
  | _ => rdHole

/-! ### LF and KL (R259, R260, R626) -/

def chTune (c : Channel) : Nat := pk [(min 16383 (c.fRes / 10), 0), (min 255 c.q, 14), (c.result.code, 22), (c.rev, 25)]
def chImp (c : Channel) : Nat := pk [(min 65535 (c.rloop / 2000), 0), (min 65535 (c.zmag / 2000), 16)]
def chStat (c : Channel) : Nat := pk [(c.st, 0), (c.lastFault, 3), (min 255 c.faults, 8), (toU 8 c.zphase, 16)]
def chPing (c : Channel) : Nat :=
  match c.base with
  | some b => pk [(min 65535 (pingMag b), 0), (toU 16 (angle16 b.1 b.2), 16)]
  | none => 0

/-- A channel register; an unmapped channel reads 0 in every field. -/
def chLoad (s : State) (n r : Nat) : Nat :=
  let c := chGet s n
  if !antMapped s.set.antenna n then 0
  else if r = 0 then chTune c else if r = 1 then chImp c else if r = 2 then chStat c else chPing c

def lfLoad (s : State) (a : Nat) : RegRes :=
  if inRow a 0x100 64 then rdAll (chLoad s ((a - 0x100) / 16) (a / 4 % 4))
  else match a with
  | 0x00 => rdAll (pk [(antMask s.set.antenna % 65536, 0), (b2n s.lf.tuned, 16), (b2n s.lf.anchorInv, 17)])
  | 0x04 => rdAll s.lf.carrier
  | 0x08 => rdAll s.lf.evt.toNat
  | 0x0C => rdAll (bitsOf (fun n => decide ((chGet s n).st ≥ 2)) 16 + 65536 * bitsOf (fun n => (chGet s n).revBit) 16)
  | _ => rdHole

def klLoad (s : State) (a : Nat) : RegRes :=
  match a with
  | 0x00 => rdAll (pk [(klResp s.set.keylink, 0), (klExtMax s.set.keylink, 9), (klFrames s.set.keylink, 13), (b2n s.lf.round, 19)])
  | 0x04 => rdAll s.kl.evt.toNat
  | 0x08 => rdAll (pk [(s.kl.frames, 0), (s.kl.replies, 16)])
  | _ => rdHole

/-! ### UHF, LOC and ACC (R343, R344, R375, R408, R409) -/

def uhfLoad (s : State) (a : Nat) : RegRes :=
  let t0 := trxGet s 0
  let t1 := trxGet s 1
  let temps (t : Trx) : Nat := pk ((List.range 4).map (fun b => (vget t.temp b 0, 8 * b)))
  if inRow a 0x20 6 then
    let w := vget s.uhf.wrx ((a - 0x20) / 4) Wrx.reset
    rdAll (pk [(w.hits, 0), (w.followLost, 16)])
  else match a with
  | 0x00 => rdAll (pk [(t0.st.code, 0), (b2n t0.cal.isSome, 3), (t1.st.code, 8), (b2n t1.cal.isSome, 11),
                       (bitsOf (fun n => (vget s.uhf.wrx n Wrx.reset).on) 6, 16)])
  | 0x04 => rdAll (pk [(t0.valid.toNat, 0), (t1.valid.toNat, 4), (t0.due.toNat, 8), (t1.due.toNat, 12), (t0.fail.toNat, 16), (t1.fail.toNat, 20)])
  | 0x08 => rdNone
  | 0x0C => rdAll s.uhf.evt.toNat
  | 0x10 => rdAll (temps t0)
  | 0x14 => rdAll (temps t1)
  | _ => rdHole

def locLoad (s : State) (p a : Nat) : RegRes :=
  match a with
  | 0x00 => rdAll (pk [(b2n (antMask s.set.antenna ≠ 0), 0), (b2n (s.set.ranging != [] && b4Both s), 1), (znCount s.set.zones, 8)])
  | 0x04 => rdAll s.loc.evt.toNat
  | 0x08 => rdFor (p16 p) s.loc.fixXy.toNat
  | 0x0C => rdFor (p16 p) s.loc.fixZ.toNat
  | 0x10 => rdFor (p16 p) s.loc.range.toNat
  | _ => rdHole

def accLoad (s : State) (a : Nat) : RegRes :=
  match a with
  | 0x00 => rdAll (pk [(b2n (profileOk s), 0), (b2n s.permit.latch, 1), (b2n s.acc.sessOpen, 2), (b2n s.acc.eligible, 3),
                       (b2n s.acc.seqn.isSome, 4), (b2n (learning s), 5), ((s.acc.creds.toList.filter (fun c => c.st = 1)).length, 8)])
  | 0x04 => rdAll s.acc.evt.toNat
  | 0x08 => rdAll (pk [(s.acc.lastKind, 0), (b2n s.acc.keyInside, 4), (s.acc.lastCred, 8), (s.acc.lastStatus.code, 16), (s.acc.lastCmd, 24)])
  | 0x0C => rdAll s.acc.session
  | 0x10 => rdAll s.acc.tokenSeq
  | _ => rdHole

/-! ### JOB and CPG (R434, R435, R457) -/

def ringLoad (s : State) (n r : Nat) : Nat :=
  let x := ringGet s n
  match r with
  | 0 => pk [(x.depth, 0), (x.cls, 3), (b2n x.gated, 5), (b2n x.en, 6)]
  | 1 => x.dbase
  | 2 => x.cbase
  | 3 => x.pi.toNat
  | 4 => x.fi.toNat
  | 5 => x.cqPi.toNat
  | 6 => x.cqCi.toNat
  | _ => pk [(tagsRing s n, 0), (b2n x.full, 9), (b2n x.stopped, 10), (b2n x.seqErr, 11), (x.credit, 16), (x.dup, 25)]

def jobLoad (s : State) (p a : Nat) : RegRes :=
  if inRow a 0x100 256 then
    let n := (a - 0x100) / 32
    rdFor (ringPage n = p) (ringLoad s n (a / 4 % 8))
  else match a with
  | 0x00 => rdAll (pk [(s.job.ops.length, 0), (min 63 (tagsCpg0 s), 10)])
  | 0x04 => rdAll s.job.evt.toNat
  | _ => rdHole

def popBits (n : Nat) (v : BitVec n) : Nat := ((List.range n).filter (fun i => v.getLsbD i)).length

def cpgLoad (s : State) (p a : Nat) : RegRes :=
  let n := a / 0x1000
  let g := pageGet s n
  if n > 7 then rdHole
  else match a % 0x1000 with
  | 0x00 => rdFor (n = p) g.base
  | 0x04 => rdFor (n = p) g.len
  | 0x08 => rdFor (n = p) (bitsOf (ksMask s n) 32)
  | 0x0C => rdFor (n = p) (bitsOf (fun i => ksMask s n (32 + i)) 32)
  | 0x10 => rdFor (n = p) (pk [(popBits 256 g.written, 0), (popBits 256 g.covered, 9), (b2n g.overrun, 18), (b2n g.hash.isSome, 19)])
  | 0x14 => rdNone
  | _ => rdHole

/-! ### AES, HPK, RNG (R458, R474 to R476) -/

def runningOp (s : State) (t : Option Nat) : Option Op := match t with | some t => opFind s t | none => none

def aesLoad (s : State) (p a : Nat) : RegRes :=
  match a with
  | 0x00 => rdFor (p16 p) (match runningOp s s.cip.running with
      | some o => pk [(1, 0), (o.cls, 1), (b2n (s.job.ops.any (·.suspended)), 3), (o.page, 4)]
      | none => pk [(b2n (s.job.ops.any (·.suspended)), 3)])
  | 0x04 => rdFor (p16 p) s.cip.aesEvt.toNat
  | 0x08 => rdFor (p16 p) s.cip.faults
  | _ => rdHole

def hpkLoad (s : State) (p a : Nat) : RegRes :=
  match a with
  | 0x00 => rdFor (p16 p) (pk ([(b2n s.ks.identity.isSome, 6)] ++ (match runningOp s s.cip.hpkRunning with
      | some o => [(1, 0), (if dsKind o.desc = 2 then 0 else rsOp (dsParams o.desc) % 4, 1), (o.page, 3)]
      | none => [])))
  | 0x04 => rdFor (p16 p) s.cip.hpkEvt.toNat
  | _ => rdHole

def rngLoad (s : State) (p a : Nat) : RegRes :=
  match a with
  | 0x00 => rdAll (pk [(b2n s.boot.rngReady, 0), (b2n s.rng.recovering, 1), (b2n s.rng.latched, 2), (b2n (s.rng.sourceOn && secNvmOn s), 3),
                       (s.rng.failRun, 4), (s.rng.queue.length, 6)])
  | 0x04 => rdAll s.rng.evt.toNat
  | 0x08 => rdAll (pk [(min 65535 s.rng.reseeds, 0), (min 65535 s.rng.failures, 16)])
  | 0x0C => rdAll s.rng.requests
  | 0x10 => rdFor (p = 1) 0
  | 0x14 => rdFor (p = 1) (s.rng.data.toNat % 2 ^ 32)
  | 0x18 => rdFor (p = 1) (s.rng.data.toNat / 2 ^ 32)
  | 0x1C => rdFor (p = 1) (s.rng.data.toNat / 2 ^ 64)
  | 0x20 => rdFor (p = 1) (b2n s.rng.valid)
  | _ => rdHole

/-! ### KS, NVM, TMP (R509, R510, R536, R537) -/

/-- A page sees a slot in its mask; CPG1, CPG6 and CPG7 see every slot. -/
def ksSeen (s : State) (p : Nat) : Bool := p = 1 || p = 6 || p = 7 || ksMask s p (pageGet s p).ksSel

def ksLoad (s : State) (p a : Nat) : RegRes :=
  let n := (pageGet s p).ksSel
  let x := slotGet s n
  match a with
  | 0x00 => rdAll (pk [(s.ks.lc.code, 0), (b2n s.ks.sealed, 2), (b2n s.ks.journal.isSome, 3), (b2n s.ks.identity.isSome, 4),
                       (bitsOf (fun c => (vget s.ks.classKey c none).isSome) 4, 8)])
  | 0x04 => rdAll n
  | 0x08 => rdFor (ksSeen s p) x.attr.toNat
  | 0x0C => rdFor (ksSeen s p) (pk [(b2n x.key.isSome, 0), (b2n (slotUnreadable s n), 1), (x.gen, 8)])
  | 0x10 => rdAll s.ks.evt.toNat
  | _ => rdHole

def nvmLoad (s : State) (a : Nat) : RegRes :=
  match a with
  | 0x00 => rdAll (pk [(min (freeFrames s.nvm.lower) (freeFrames s.nvm.upper), 0),
                       (b2n (s.nvm.ctrs.toList.any (fun c => c.preclear.isSome)), 14), (b2n s.nvm.ledger.isSome, 15)])
  | 0x04 => rdAll s.nvm.evt.toNat
  | 0x08 => rdAll (pk [(min 65535 s.nvm.maxWear, 0), (min 65535 s.nvm.corrections, 16)])
  | 0x0C => rdAll (pk [(min 65535 (s.nvm.ledger.getD 0), 0), (min 65535 (eRes s), 16)])
  | _ => rdHole

def tmpLoad (s : State) (a : Nat) : RegRes :=
  let cnt (i : Nat) : Nat := pk ((List.range 4).map (fun k => (min 255 (vget s.tmp.count (i + k) 0), 8 * k)))
  match a with
  | 0x00 => rdAll (pk [(s.tmp.active.toNat % 128, 0), (b2n s.tmp.latch, 8), (b2n (s.tmp.erasePending != 0), 9)])
  | 0x04 => rdAll s.tmp.evt.toNat
  | 0x08 => rdAll (cnt 0)
  | 0x0C => rdAll (cnt 4)
  | 0x10 => rdAll s.tmp.last.toNat
  | _ => rdHole

/-! ### SW, TIM, CAN (R188 to R193, R568 to R570) -/

def portLoad (s : State) (n r : Nat) : Nat :=
  let x := portGet s n
  match r with
  | 0 => pk [(x.rate, 0), (b2n x.plca, 3)]
  | 1 => x.rx | 2 => x.tx | 3 => x.dropBuf | 4 => x.dropFilter | 5 => x.dropGate | 6 => x.dropDown
  | _ => x.fcsErr

def swLoad (s : State) (p a : Nat) : RegRes :=
  let f := flowGet s (pageGet s p).flowSel
  if inRow a 0x100 72 then rdFor (p16 p) (portLoad s ((a - 0x100) / 32) (a / 4 % 8))
  else match a with
  | 0x00 => rdFor (p16 p) (pk [(bitsOf (fun n => n = 8 || decide ((portGet s n).rate ≠ 0)) 9, 0), (bitsOf (portShed s) 9, 9),
                               (min 4096 s.sw.learnt.length, 18)])
  | 0x04 => rdFor (p16 p) s.sw.evt.toNat
  | 0x08 => rdFor (p16 p) (pageGet s p).flowSel
  | 0x0C => rdFor (p16 p) f.pass
  | 0x10 => rdFor (p16 p) (f.drop + 2 ^ 31 * b2n f.blocked)
  | 0x14 => rdNone
  | _ => rdHole

/-- STATE to SLAVE_PORT of a domain: no domainNumber and no slave port is in use while it is OFF (R191). -/
def domStat (s : State) (d : Dom) : Nat :=
  let x := domGet s d
  let off := x.st == .off
  pk [(x.st.code, 0), (b2n x.gmSeen, 3), (if off then 0 else tiDomain s d, 4), (x.steps, 16),
      (if off || tiRole s d = 2 then 255 else tiSlave s d, 24)]

/-- The latest offset, saturating at ±(2^31 − 1). -/
def domOffset (s : State) (d : Dom) : Nat := toU 32 (satS32 (domGet s d).offset)

def tpoLoad (s : State) (n r : Nat) : Nat :=
  let t := tpoGet s n
  match r with
  | 0 => pk [(b2n t.en, 0), (b2n t.periodic, 1), (b2n t.pol, 2), (b2n t.late, 3), (b2n t.err, 4), (t.width, 8)]
  | 1 => t.target.toNat % 2 ^ 32
  | 2 => t.target.toNat / 2 ^ 32
  | _ => t.period

def timLoad (s : State) (a : Nat) : RegRes :=
  if inRow a 0x40 16 then rdAll (tpoLoad s ((a - 0x40) / 16) (a / 4 % 4))
  else match a with
  | 0x00 => rdAll (pk [(s.clk.mode.code, 0), (b2n (s.clk.sel = some .red), 2), (b2n (s.pwr.st == .heath), 3), (b2n s.clk.stale, 4),
                       (b2n s.clk.freqSat, 5)])
  | 0x04 => rdAll (now48 s).toNat
  | 0x08 => rdAll s.clk.nowHi.toNat
  | 0x0C => rdAll (toU 32 s.clk.freqAdj)
  | 0x10 => rdAll (domStat s .pri)
  | 0x14 => rdAll (domOffset s .pri)
  | 0x18 => rdAll (domStat s .red)
  | 0x1C => rdAll (domOffset s .red)
  | 0x20 => rdAll s.clk.evt.toNat
  | 0x24 => rdAll (toU 32 s.clk.lastStep)
  | _ => rdHole

def canLoad (s : State) (p a : Nat) : RegRes :=
  let c := canGet s (a / 16)
  if a ≥ 0x20 then rdHole
  else match a % 16 with
  | 0x0 => rdFor (p16 p) (pk [(if !c.on then 3 else if c.busOff then 2 else if canPassive c then 1 else 0, 0), (min 255 c.tec, 2), (min 127 c.rec_, 10)])
  | 0x4 => rdFor (p16 p) c.evt.toNat
  | 0x8 => rdFor (p16 p) (pk [(min 65535 c.sent, 0), (min 65535 c.late, 16)])
  | _ => rdHole

/-! ### DIAG and FLT (R602, R619, R620) -/

def diagStat (s : State) : Nat :=
  let c := vget s.diag.conns s.diag.cur Conn.reset
  pk [(c.session, 0), (c.page, 8), (c.roles.toNat, 11), (b2n c.untimed, 16), (b2n s.diag.lockUntil.isSome, 17),
      (b2n s.diag.download.isSome, 18), (b2n (match s.diag.routine with | some r => r.running | none => false), 19)]

def diagLoad (s : State) (p a : Nat) : RegRes :=
  match a with
  | 0x0 => rdFor (p16 p) (diagStat s)
  | 0x4 => rdFor (p16 p) s.diag.evt.toNat
  | 0x8 => rdFor (p16 p) (pk [(bitsOf (fun n => n ≥ 1 && (pageGet s n).aspKey.isSome) 6, 0), (min 65535 s.diag.macFails, 16)])
  | 0xC => rdFor (p16 p) (pk [(s.diag.dtcs.length, 0), ((s.diag.dtcs.filter (fun d => d.st.getLsbD 0)).length, 8)])
  | _ => rdHole

def fltLoad (s : State) (p a : Nat) : RegRes :=
  let f := s.flt
  match a with
  | 0x00 => rdFor (p16 p) (pk [(vget f.role 0 0, 0), (vget f.role 1 0, 2), (vget f.role 2 0, 4), (b2n f.spare, 6), (b2n f.retest.isSome, 7),
                               (b2n s.sup.spaFault, 8), (b2n s.sup.spbFault, 9)])
  | 0x04 => rdFor (p16 p) f.evt.toNat
  | 0x08 => rdFor (p16 p) (pk [(min 255 f.count, 0), (f.lastRole, 8), (f.lastCause, 10), (min 65535 f.lastDelay, 16)])
  | 0x0C => rdFor (p16 p) (pk [(min 65535 f.corrected, 0), (min 255 f.uncorrected, 16), (f.lastMem, 24)])
  | 0x10 => rdFor (p16 p) f.eccAddr
  | _ => rdHole

/-! ### The whole address space (R621, R622) -/

/-- A window word: within the page's grant, over memory (R572, R622). -/
def winLoad (s : State) (p off : Nat) : RegRes :=
  if inGrant s p off 4 && off + 4 ≤ 0x400000 then (.ok, u32 (winRead s off 4) 0) else (.denied, 0)

/-- The word at an address as a page reads it, without side effects. -/
def regLoad (s : State) (p addr : Nat) : RegRes :=
  let a := addr % 0x10000
  if addr % 4 ≠ 0 then rdHole
  else if 0x200000 ≤ addr && addr ≤ 0x9FFFFF then winLoad s p (addr - 0x200000)
  else match addr / 0x10000 with
  | 0x00 => sysLoad s p a
  | 0x01 => pwrLoad s a
  | 0x02 => ttLoadReg s p a
  | 0x03 => lfLoad s a
  | 0x04 => klLoad s a
  | 0x05 => uhfLoad s a
  | 0x06 => locLoad s p a
  | 0x07 => accLoad s a
  | 0x08 => jobLoad s p a
  | 0x09 => cpgLoad s p a
  | 0x0A => if a < 0x8000 then aesLoad s p a else hpkLoad s p (a - 0x8000)
  | 0x0B => rngLoad s p a
  | 0x0C => ksLoad s p a
  | 0x0D => nvmLoad s a
  | 0x0E => tmpLoad s a
  | 0x0F => swLoad s p a
  | 0x10 => timLoad s a
  | 0x11 => canLoad s p a
  | 0x12 => diagLoad s p a
  | 0x13 => fltLoad s p a
  | _ => rdHole

/-- Registers whose read has a side effect (R606). -/
def readActs (addr : Nat) : Bool := addr = 0x100004 || inRow addr 0x0B0010 4

/-- A read of a page: status, word and state. Before `READY` SYS alone answers (R101, R575). DEDUCED, log 90. -/
def regRead (p addr : Nat) (s : State) : RegRes × State :=
  if !s.boot.ready && addr ≥ 0x10000 then ((.notReady, 0), s)
  else
    let r := regLoad s p addr
    if r.1 != .ok || !readActs addr then (r, s)
    else if addr = 0x100004 then let x := nowLo s; ((.ok, x.1), x.2)
    else if addr = 0x0B0010 then let x := rngData0 s; ((.ok, x.1), x.2)
    else let x := rngDataN ((addr - 0x0B0014) / 4) s; ((.ok, x.1), x.2)

end Sys2Proof.Machine
end

