-- ==== Sys2Proof/Machine/Regs.lean ====
section
/-! DEFINITION. Writes of the host registers by access code and page rights (R11 to R13, R623), the lock and the ASP gate
(R628 to R630), SYS_RESET_CMD and UHF_CAL_CMD. -/

namespace Sys2Proof.Machine

/-- W1C: a 1 clears (R12). -/
def w1c {n : Nat} (v : BitVec n) (w : Nat) : BitVec n := v &&& ~~~(BitVec.ofNat n w)

/-- A write only CPG1 may make. -/
def own1 (page : Nat) (s : State) (f : State) : Status × State := if page = 1 then (.ok, f) else (.denied, s)

/-- The session of a page ends with its subscriptions and its outbound events (R582, R629). -/
def aspShut (page : Nat) (s : State) : State :=
  pageMod page (fun p => { p with
    aspKey := none, subs := 0, evPend := [], lost := 0, delivered := [],
    outQ := p.outQ.filter (fun m => u8 m.bytes 3 / 4 % 2 = 0) }) s

/-- PAGE_OFF is set for a page (R629). -/
def pageShut (s : State) (page : Nat) : Bool := decide (2 ≤ page) && s.spi.pageOff.getLsbD (page - 2)

/-- A shut page closes once its accepted requests are done (R629). -/
def gateClose (s : State) : State :=
  [2, 3, 4, 5].foldl (fun s p => if pageShut s p && (pageGet s p).inQ = [] && (pageGet s p).aspKey.isSome then aspShut p s else s) s

/-! ### SYS -/

def sysLock (page : Nat) (w : Word) (s : State) : Status × State :=
  own1 page s { s with spi.lock := s.spi.lock || w.getLsbD 0 }

/-- SYS_RESET_CMD (R155). -/
def sysResetCmd (page : Nat) (w : Word) (s : State) : Status × State :=
  own1 page s (if w.toNat / 65536 = 0x5EC7 then resetTo .hcr s else s)

/-- An RWL word of SYS: nothing changes while LOCK_SYS is set (R628). -/
def rwl (page : Nat) (s : State) (f : State) : Status × State :=
  if page ≠ 1 || s.spi.lock then (.denied, s) else (.ok, f)

/-- SYS_ASP_GATE (R629). -/
def aspGate (page : Nat) (w : Word) (s : State) : Status × State :=
  rwl page s (gateClose { s with spi.pageOff := w.extractLsb' 2 4 })

/-- A write that the block does not take: mapped words are read-only or not the page's, others unmapped. -/
def wrNone (page addr : Nat) (s : State) : Status × State :=
  (if (regLoad s page addr).1 == .addrError then .addrError else .denied, s)

def sysStore (page a : Nat) (w : Word) (s : State) : Status × State :=
  if inRow a 0xA0 8 then rwl page s { s with spi.scratch := vset s.spi.scratch ((a - 0xA0) / 4) w }
  else match a with
  | 0x04 => sysLock page w s
  | 0x08 => sysResetCmd page w s
  | 0x84 => own1 page s { s with spi.irqEn := BitVec.ofNat 19 w.toNat }
  | 0x88 => own1 page s { s with spi.ringIrq := w1c s.spi.ringIrq (w.toNat % 4096 / 16 * 16) }
  | 0x90 => aspGate page w s
  | _ => wrNone page a s

def pwrStore (page a : Nat) (w : Word) (s : State) : Status × State :=
  match a with
  | 0x04 => if page = 1 && w.toNat % 4 = 0 then (.ok, s) else pwrCmd page (w.toNat % 4) (w.extractLsb' 16 16) s
  | 0x08 => own1 page s { s with pwr.wakeSrc := w1c s.pwr.wakeSrc w.toNat }
  | 0x40 => own1 page s { s with sup.evt := w1c s.sup.evt (w.toNat / 256) }
  | _ => wrNone page (0x010000 + a) s

/-! ### Jobs and pages -/

/-- A ring's register (R413, R435): while EN is 1, DBASE and CBASE keep their values. -/
def ringStore (page n r : Nat) (w : Word) (s : State) : Status × State :=
  if ringPage n ≠ page then (.denied, s)
  else match r with
  | 0 => ringCfg page n w s
  | 1 => (.ok, ringMod n (fun x => if x.en then x else { x with dbase := w.toNat % 2 ^ 23 / 64 * 64 }) s)
  | 2 => (.ok, ringMod n (fun x => if x.en then x else { x with cbase := w.toNat % 2 ^ 23 / 32 * 32 }) s)
  | 3 => ringPiWrite page n (w.extractLsb' 0 16) s
  | 6 => ringCqCi page n (w.extractLsb' 0 16) s
  | 7 => (.ok, ringMod n (fun x => { x with full := x.full && !w.getLsbD 9, seqErr := x.seqErr && !w.getLsbD 11 }) s)
  | _ => (.denied, s)

def jobStore (page a : Nat) (w : Word) (s : State) : Status × State :=
  if inRow a 0x100 256 then ringStore page ((a - 0x100) / 32) (a / 4 % 8) w s
  else if a = 4 then own1 page s { s with job.evt := w1c s.job.evt w.toNat }
  else wrNone page (0x080000 + a) s

def cpgStore (page a : Nat) (w : Word) (s : State) : Status × State :=
  if a = 0x1000 * page + 0x14 then (.ok, gateClear page w s) else wrNone page (0x090000 + a) s

/-! ### Events and selections of the other blocks -/

def swStore (page a : Nat) (w : Word) (s : State) : Status × State :=
  match a with
  | 0x04 => own1 page s { s with sw.evt := w1c s.sw.evt w.toNat }
  | 0x08 => if p16 page then (.ok, pageMod page (fun p => { p with flowSel := w.toNat % 2048 }) s) else (.denied, s)
  | 0x14 => flowUnblock page w s
  | _ => wrNone page (0x0F0000 + a) s

/-- Writes of the TPO registers; the target and period of a pulse that an entry has armed stay (R206). -/
def tpoStore (page n r : Nat) (w : Word) (s : State) : Status × State :=
  if r ≠ 0 && page = 1 && tpoOwned s n then (.ok, s) else
  match r with
  | 0 => tpoCtrl page n w s
  | 1 => own1 page s (tpoMod n (fun t => { t with target := BitVec.ofNat 48 (t.target.toNat / 2 ^ 32 * 2 ^ 32 + w.toNat) }) s)
  | 2 => own1 page s (tpoMod n (fun t => { t with target := BitVec.ofNat 48 (t.target.toNat % 2 ^ 32 + w.toNat % 65536 * 2 ^ 32) }) s)
  | _ => own1 page s (tpoMod n (fun t => { t with period := w.toNat }) s)

def timStore (page a : Nat) (w : Word) (s : State) : Status × State :=
  if inRow a 0x40 16 then tpoStore page ((a - 0x40) / 16) (a / 4 % 4) w s
  else if a = 0x20 then own1 page s { s with clk.evt := w1c s.clk.evt w.toNat }
  else wrNone page (0x100000 + a) s

def uhfStore (page a : Nat) (w : Word) (s : State) : Status × State :=
  match a with
  | 0x08 => own1 page s (uhfCalWord w s)
  | 0x0C => own1 page s { s with uhf.evt := w1c s.uhf.evt w.toNat }
  | _ => wrNone page (0x050000 + a) s

def secStore (page addr : Nat) (w : Word) (s : State) : Status × State :=
  let n := w.toNat
  match addr with
  | 0x0A0004 => own1 page s { s with cip.aesEvt := w1c s.cip.aesEvt n }
  | 0x0A8004 => own1 page s { s with cip.hpkEvt := w1c s.cip.hpkEvt n }
  | 0x0B0004 => own1 page s { s with rng.evt := w1c s.rng.evt n }
  | 0x0C0004 => (.ok, pageMod page (fun p => { p with ksSel := n % 64 }) s)
  | 0x0C0010 => own1 page s { s with ks.evt := w1c s.ks.evt n }
  | 0x0D0004 => own1 page s { s with nvm.evt := w1c s.nvm.evt n }
  | 0x0E0004 => own1 page s { s with tmp.evt := w1c s.tmp.evt n }
  | _ => wrNone page addr s

def evtStore (page addr : Nat) (w : Word) (s : State) : Status × State :=
  let n := w.toNat
  match addr with
  | 0x020004 => own1 page s { s with tt.evt := w1c s.tt.evt n }
  | 0x020010 => (.ok, pageMod page (fun p => { p with ttSel := n % 256 }) s)
  | 0x030008 => own1 page s { s with lf.evt := w1c s.lf.evt n }
  | 0x040004 => own1 page s { s with kl.evt := w1c s.kl.evt n }
  | 0x060004 => own1 page s { s with loc.evt := w1c s.loc.evt n }
  | 0x070004 => own1 page s { s with acc.evt := w1c s.acc.evt n }
  | 0x110004 => own1 page s { s with can := vmod s.can 0 (fun c => { c with evt := w1c c.evt n }) }
  | 0x110014 => own1 page s { s with can := vmod s.can 1 (fun c => { c with evt := w1c c.evt n }) }
  | 0x120004 => own1 page s { s with diag.evt := w1c s.diag.evt n }
  | 0x130004 => own1 page s { s with flt.evt := w1c s.flt.evt n }
  | _ => wrNone page addr s

/-! ### The whole address space -/

def winStore (page off : Nat) (w : Word) (s : State) : Status × State :=
  if inGrant s page off 4 && off + 4 ≤ 0x400000 then (.ok, winWrite s off (leBytes 4 w.toNat)) else (.denied, s)

/-- A write of a page: its status and the state. -/
def regWrite (page addr : Nat) (w : Word) (s : State) : Status × State :=
  let a := addr % 0x10000
  if addr % 4 ≠ 0 then (.addrError, s)
  else if !s.boot.ready && addr ≥ 0x10000 then (.notReady, s)
  else if 0x200000 ≤ addr && addr ≤ 0x9FFFFF then winStore page (addr - 0x200000) w s
  else match addr / 0x10000 with
  | 0x00 => sysStore page a w s
  | 0x01 => pwrStore page a w s
  | 0x05 => uhfStore page a w s
  | 0x08 => jobStore page a w s
  | 0x09 => cpgStore page a w s
  | 0x0A => secStore page addr w s
  | 0x0B => secStore page addr w s
  | 0x0C => secStore page addr w s
  | 0x0D => secStore page addr w s
  | 0x0E => secStore page addr w s
  | 0x0F => swStore page a w s
  | 0x10 => timStore page a w s
  | _ => evtStore page addr w s

/-- A page's access reaches the registers: CPG1 while pair B is powered, the others in Run after `READY` (R101, R576). -/
def regLive (s : State) (page : Nat) : Bool := if page = 1 then ppbOn s else s.boot.ready && isRun s

/-- One register write by a page, with its status noted (R575, R601). DEDUCED, log 91. -/
def regDo (page addr : Nat) (f : State → Status × State) (s : State) : State :=
  if !regLive s page then s
  else
    let r := if !s.boot.ready && addr ≥ 0x10000 then (Status.notReady, s) else f s
    hostSeen page (hostNote page (if r.1 == .ringFull then .ok else r.1) addr r.2)

def execRegisterWrite (page : Fin 8) (addr : BitVec 24) (word : Word) (s : State) : Host.Outcome State Fault Refusal :=
  done s (regDo page.val addr.toNat (regWrite page.val addr.toNat word) s)

def execSysResetCmd (page : Fin 8) (word : Word) (s : State) : Host.Outcome State Fault Refusal :=
  done s (regDo page.val 0x000008 (sysResetCmd page.val word) s)

def execSysLockSet (page : Fin 8) (word : Word) (s : State) : Host.Outcome State Fault Refusal :=
  done s (regDo page.val 0x000004 (sysLock page.val word) s)

def execSysAspGateWrite (page : Fin 8) (word : Word) (s : State) : Host.Outcome State Fault Refusal :=
  done s (regDo page.val 0x000090 (aspGate page.val word) s)

/-- UHF_CAL_CMD (R343). -/
def execUhfCalCmd (page : Fin 8) (word : Word) (s : State) : Host.Outcome State Fault Refusal :=
  done s (regDo page.val 0x050008 (fun s => own1 page.val s (uhfCalWord word s)) s)

end Sys2Proof.Machine
end

