-- ==== Sys2Proof/Machine/Spi.lean ====
section
/-! DEFINITION. The SPI host interface (R573 to R576): one command per transaction. -/

namespace Sys2Proof.Machine

/-- Bytes that HCRC covers: CMD, ADDR and LEN, each most significant byte first. DEDUCED, log 93. -/
def spiHead (cmd : Nat) (addr : BitVec 24) (len : BitVec 16) : Bytes :=
  leBytes 1 cmd ++ beBytes 3 addr.toNat ++ beBytes 2 len.toNat

/-- RCRC, over STATUS and RDATA (R574). -/
def spiRcrc (st : Status) (rdata : Bytes) : BitVec 16 := BitVec.ofNat 16 (crc16 (leBytes 1 st.code ++ rdata))

/-- The end of a transaction: STATUS, RDATA, RCRC and, for a status other than OK, the first word that caused it (R575). -/
def spiEnd (st : Status) (addr : Nat) (rdata : Bytes) (s : State) : State :=
  let s := { s with spi.status := st, spi.rdata := rdata, spi.rcrc := spiRcrc st rdata, spi.answered := true,
                    pwr.idleSince := if isRun s then s.elapsed else s.pwr.idleSince }
  if st == .ok then s else { s with spi.hostErr := BitVec.ofNat 32 (st.code + 256 * addr) }

/-- Nothing drives HMISO. -/
def spiSilent (s : State) : State := { s with spi.answered := false, spi.rdata := [] }

/-- Order of the rows of R575 among word statuses. -/
def spiRank : Status → Nat
  | .notReady => 3 | .addrError => 2 | .denied => 1 | _ => 0

/-- The first matching row over the words so far, and its first word. -/
def spiWorse (a b : Status × Nat) : Status × Nat := if spiRank b.1 > spiRank a.1 then b else a

/-- Read `n` words from `addr` in ascending order. -/
def readWords (page : Nat) : Nat → Nat → (Status × Nat) → Bytes → State → (Status × Nat) × Bytes × State
  | _, 0, st, out, s => (st, out, s)
  | addr, n + 1, st, out, s =>
    let r : RegRes × State := if addr > 0xFFFFFF then ((.addrError, 0), s) else regRead page addr s
    readWords page (addr + 4) n (spiWorse st (r.1.1, addr)) (out ++ leBytes 4 r.1.2) r.2

/-- Write words from `addr` in ascending order; a keyed SYS_RESET_CMD takes effect after the last word (R155, R576). -/
def writeWords (page : Nat) : Nat → List Word → (Status × Nat) → State → (Status × Nat) × State
  | _, [], st, s => (st, s)
  | addr, w :: r, st, s =>
    let x : Status × State :=
      if addr > 0xFFFFFF then (.addrError, s)
      else if addr = 8 && page = 1 then (.ok, s)
      else regWrite page addr w s
    writeWords page (addr + 4) r (spiWorse st (if x.1 == .ringFull then .ok else x.1, addr)) x.2

/-- Some word is a keyed SYS_RESET_CMD. -/
def resetAsked (page : Nat) : Nat → List Word → Bool
  | _, [] => false
  | addr, w :: r => (page = 1 && addr = 8 && w.toNat / 65536 = 0x5EC7) || resetAsked page (addr + 4) r

/-- Words of a byte sequence, least significant byte first (R6). -/
def wordsOf : Bytes → List Word
  | a :: b :: c :: d :: r => (d ++ c ++ b ++ a) :: wordsOf r
  | _ => []

/-- REG_READ. -/
def spiRegRead (addr : BitVec 24) (len hcrc : BitVec 16) (s : State) : State :=
  let zeros : Bytes := List.replicate (4 * min 64 len.toNat) 0
  if !ppbOn s then spiSilent s
  else if crc16 (spiHead 1 addr len) ≠ hcrc.toNat then spiEnd .crcError addr.toNat zeros s
  else if len = 0 || len.toNat > 64 || addr.toNat % 4 ≠ 0 then spiEnd .frameError addr.toNat zeros s
  else
    let r := readWords 1 addr.toNat len.toNat (.ok, addr.toNat) [] s
    spiEnd r.1.1 r.1.2 r.2.1 r.2.2

def execSpiRegRead (addr : BitVec 24) (len hcrc : BitVec 16) (s : State) : Host.Outcome State Fault Refusal :=
  done s (spiRegRead addr len hcrc s)

/-- A transaction abandoned before DCRC ends performs nothing (R576). -/
def spiWhole (s : State) (unit : Nat) (len : BitVec 16) (data : Bytes) (ended : Bool) : Bool :=
  ppbOn s && ended && data.length = unit * len.toNat

/-- REG_WRITE. -/
def spiRegWrite (addr : BitVec 24) (len hcrc : BitVec 16) (data : Bytes) (dcrc : BitVec 16) (ended : Bool) (s : State) : State :=
  if !spiWhole s 4 len data ended then spiSilent s
  else if crc16 (spiHead 2 addr len) ≠ hcrc.toNat then spiEnd .crcError addr.toNat [] s
  else if len = 0 || len.toNat > 64 || addr.toNat % 4 ≠ 0 then spiEnd .frameError addr.toNat [] s
  else if crc16 data ≠ dcrc.toNat then spiEnd .crcError addr.toNat [] s
  else
    let w := wordsOf data
    let r := writeWords 1 addr.toNat w (.ok, addr.toNat) s
    let s := spiEnd r.1.1 r.1.2 [] r.2
    if resetAsked 1 addr.toNat w then { resetTo .hcr s with spi.answered := true } else s

def execSpiRegWrite (addr : BitVec 24) (len hcrc : BitVec 16) (data : List Byte) (dcrc : BitVec 16) (ended : Bool) (s : State) :
    Host.Outcome State Fault Refusal :=
  done s (spiRegWrite addr len hcrc data dcrc ended s)

/-- ASP_PUT: into CPG1's inbound queue of 4; a message that names another page is discarded (R571, R584). -/
def spiAspPut (addr : BitVec 24) (len hcrc : BitVec 16) (data : Bytes) (dcrc : BitVec 16) (ended : Bool) (s : State) : State :=
  if !spiWhole s 1 len data ended then spiSilent s
  else if crc16 (spiHead 3 addr len) ≠ hcrc.toNat then spiEnd .crcError addr.toNat [] s
  else if len.toNat < 20 || len.toNat > 1044 || addr.toNat % 4 ≠ 0 then spiEnd .frameError addr.toNat [] s
  else if crc16 data ≠ dcrc.toNat then spiEnd .crcError addr.toNat [] s
  else if !s.boot.ready || (pageGet s 1).inQ.length ≥ 4 then spiEnd .notReady addr.toNat [] s
  else if u8 data 1 ≠ 1 then spiEnd .ok addr.toNat [] s
  else
    spiEnd .ok addr.toNat []
      (pageMod 1 (fun p => { p with inQ := p.inQ ++ [{ bytes := data, srcMac := 0, srcIp := 0, srcPort := 0 }] }) s)

def execSpiAspPut (addr : BitVec 24) (len hcrc : BitVec 16) (data : List Byte) (dcrc : BitVec 16) (ended : Bool) (s : State) :
    Host.Outcome State Fault Refusal :=
  done s (spiAspPut addr len hcrc data dcrc ended s)

/-- What identifies a message in the outbound queue: page, TYPE, FLAGS, SEQ (R606). -/
def aspKeyOf (m : Bytes) : Nat × Nat × Nat × BitVec 32 := (u8 m 1, u8 m 2, u8 m 3, BitVec.ofNat 32 (beNat (sl m 4 4)))

/-- ASP_GET: the oldest outbound message, removed once RCRC has been clocked in full. -/
def spiAspGet (addr : BitVec 24) (len hcrc : BitVec 16) (rcrcClocked : Bool) (s : State) : State :=
  let n := len.toNat
  let zeros : Bytes := List.replicate (min 1046 n) 0
  if !ppbOn s then spiSilent s
  else if crc16 (spiHead 4 addr len) ≠ hcrc.toNat then spiEnd .crcError addr.toNat zeros s
  else if n < 2 || n > 1046 || addr.toNat % 4 ≠ 0 then spiEnd .frameError addr.toNat zeros s
  else if !s.boot.ready then spiEnd .notReady addr.toNat zeros s
  else match (pageGet s 1).outQ with
    | [] => spiEnd .ok addr.toNat zeros s
    | m :: _ =>
      let head := beBytes 2 m.bytes.length
      if n < m.bytes.length + 2 then spiEnd .frameError addr.toNat (padTo n head) s
      else
        let s := spiEnd .ok addr.toNat (padTo n (head ++ m.bytes)) s
        if rcrcClocked then
          pageMod 1 (fun p => { p with outQ := p.outQ.drop 1, delivered := p.delivered ++ [aspKeyOf m.bytes] }) s
        else s

def execSpiAspGet (addr : BitVec 24) (len hcrc : BitVec 16) (rcrcClocked : Bool) (s : State) :
    Host.Outcome State Fault Refusal :=
  done s (spiAspGet addr len hcrc rcrcClocked s)

end Sys2Proof.Machine
end

