-- ==== Sys2Proof/Machine/NetOps.lean ====
section
/-! DEFINITION. IPv4 over P8 (R585): the interface's address, the packets the pairs send, and how frames for the pairs are read. -/

namespace Sys2Proof.Machine

/-! ### The interface -/

/-- Force into 1 to 254. -/
def octet (x : Nat) : Nat := max 1 (min 254 x)

/-- The IPv4 address, bytes in transmission order; 0 selects 169.254.x.y from `DEV_MAC` (R598). -/
def ownIp (s : State) : Bytes :=
  let a := sl (diagSec s) 0 4
  let m := nwDevMac (netSec s)
  if beNat a = 0 then [169, 254, BitVec.ofNat 8 (octet (u8 m 4)), BitVec.ofNat 8 (u8 m 5)] else a

/-- RFC 1071 checksum of bytes in 16-bit words, most significant byte first. -/
def sum16 : Bytes → Nat
  | a :: b :: r => a.toNat * 256 + b.toNat + sum16 r
  | [a] => a.toNat * 256
  | [] => 0

def fold16 : Nat → Nat → Nat
  | 0, v => v
  | n + 1, v => fold16 n (v % 65536 + v / 65536)

def ipSum (b : Bytes) : Nat := 65535 - fold16 4 (sum16 b)

/-- An IPv4 packet without options and unfragmented. -/
def ipPacket (s : State) (dst : Bytes) (proto : Nat) (pay : Bytes) : Bytes :=
  let head (sum : Nat) : Bytes :=
    [0x45, 0] ++ beBytes 2 (20 + pay.length) ++ beBytes 2 (Config.ipIdent (portGet s 8).rx).toNat ++ [0, 0, Config.ipTtl]
      ++ leBytes 1 proto ++ beBytes 2 sum ++ ownIp s ++ dst
  head (ipSum (head 0)) ++ pay

/-- A UDP datagram; the checksum is always sent (R585). -/
def udpPacket (s : State) (dst : Bytes) (sport dport : Nat) (pay : Bytes) : Bytes :=
  let n := 8 + pay.length
  let body (sum : Nat) : Bytes := beBytes 2 sport ++ beBytes 2 dport ++ beBytes 2 n ++ beBytes 2 sum ++ pay
  let c := ipSum (ownIp s ++ dst ++ [0, 17] ++ beBytes 2 n ++ body 0)
  body (if c = 0 then 65535 else c)

/-- The pairs send a frame through P8 (R557). -/
def pairSend (dst : Bytes) (etype : Nat) (pay : Bytes) (s : State) : State :=
  let f := padTo (max 60 (14 + pay.length)) (dst ++ nwDevMac (netSec s) ++ beBytes 2 etype ++ pay)
  frameIn 8 (f ++ fcs f) { s with diag.out := f }

def udpSend (mac : BitVec 48) (ip : BitVec 32) (sport dport : Nat) (pay : Bytes) (s : State) : State :=
  let d := beBytes 4 ip.toNat
  pairSend (beBytes 6 mac.toNat) 0x0800 (ipPacket s d 17 (udpPacket s d sport dport pay)) s

/-! ### Frames for the pairs -/

/-- A UDP datagram for the interface in a frame delivered to the pairs: source MAC, address, port, destination port, payload.
Fragments and packets with a bad checksum are discarded (R585). -/
def udpOf (s : State) (f : Bytes) : Option (BitVec 48 × BitVec 32 × Nat × Nat × Bytes) :=
  let g := frUntag f
  let p := g.drop 14
  let h := 4 * (u8 p 0 % 16)
  let len := beNat (sl p 2 2)
  let u := sl p h (len - h)
  let n := beNat (sl u 4 2)
  let ipBad := beNat (sl g 12 2) ≠ 0x0800 || u8 p 0 / 16 ≠ 4 || h < 20 || len < h + 8 || len > p.length || ipSum (p.take h) ≠ 0
    || beNat (sl p 6 2) % 2 ^ 14 ≠ 0 || u8 p 9 ≠ 17 || sl p 16 4 ≠ ownIp s || n < 8 || n > u.length
  let udpBad := beNat (sl u 6 2) ≠ 0 && ipSum (sl p 12 8 ++ [0, 17] ++ beBytes 2 n ++ u.take n) ≠ 0
  if ipBad || udpBad then none
  else some (macBits (frSa f), BitVec.ofNat 32 (beNat (sl p 12 4)), beNat (sl u 0 2), beNat (sl u 2 2), sl u 8 (n - 8))

end Sys2Proof.Machine
end

