-- ==== Sys2Proof/Machine/Asp.lean ====
section
/-! DEFINITION. The access service protocol (R571, R578 to R585, R606): sessions, requests, responses and events. -/

namespace Sys2Proof.Machine

/-! ### Messages (R578) -/

def msPage (m : Bytes) : Nat := u8 m 1
def msType (m : Bytes) : Nat := u8 m 2
def msSeq (m : Bytes) : BitVec 32 := BitVec.ofNat 32 (beNat (sl m 4 4))
def msBody (m : Bytes) : Bytes := sl m 12 (beNat (sl m 8 2))
def msMac (m : Bytes) : Bytes := m.drop (12 + beNat (sl m 8 2))

/-- The layout of R578 in a request to a page. -/
def msOk (page : Nat) (m : Bytes) : Bool :=
  u8 m 0 = 1 && msPage m = page && u8 m 3 = 0 && beNat (sl m 8 2) ≤ 1024 && u16 m 10 = 0 && m.length = 20 + beNat (sl m 8 2)

/-- The MAC is right under a key. -/
def msAuth (key : BitVec 128) (m : Bytes) : Bool := mac128 key 8 (m.take (m.length - 8)) == msMac m

/-- A message the device forms. -/
def msMake (key : BitVec 128) (page type flags : Nat) (seq : BitVec 32) (body : Bytes) : Bytes :=
  let m := [1] ++ leBytes 1 page ++ leBytes 1 type ++ leBytes 1 flags ++ beBytes 4 seq.toNat ++ beBytes 2 body.length ++ [0, 0] ++ body
  m ++ mac128 key 8 m

/-- Message types of R582. -/
def msKnown (t : Nat) : Bool :=
  [0x01, 0x02, 0x10, 0x11, 0x12, 0x13, 0x20, 0x21, 0x30, 0x31, 0x40, 0x41, 0x42, 0x50, 0x51, 0x60, 0x61].contains t

/-! ### The outbound queue (R584, R606) -/

def isEvent (m : AspMsg) : Bool := bit (u8 m.bytes 3) 2

/-- The oldest EVENT leaves the queue: it and the events it counted are lost. -/
def dropEvent (page : Nat) (s : State) : State :=
  match (pageGet s page).outQ.find? isEvent with
  | none => s
  | some m => evDiag 6 (pageMod page (fun p => { p with
      outQ := p.outQ.eraseP isEvent, lost := p.lost + 1 + u8 (msBody m.bytes) 5 }) s)

/-- Room for a response: fewer than 16 messages, or an EVENT that gives way. -/
def outRoom (s : State) (page : Nat) : Bool :=
  page ≠ 1 || (pageGet s page).outQ.length < 16 || (pageGet s page).outQ.any isEvent

/-- A message goes out and stands in checkpoint memory (R606): to CPG1's queue, or over UDP to a network page's peer. One already queued or delivered in the session
is discarded, save an answer that a repeated request itself calls for (`again`). -/
def aspOut (page : Nat) (m : Bytes) (again : Bool) (src : AspMsg) (s : State) : State :=
  let p := pageGet s page
  if !again && (p.delivered.contains (aspKeyOf m) || p.outQ.any (fun x => aspKeyOf x.bytes = aspKeyOf m)) then s
  else
    let s := ckptItem 1 (.message page (msType m) (u8 m 3) (msSeq m)) s
    let s := if page = 1 && p.outQ.length ≥ 16 then dropEvent 1 s else s
    if page = 1 then pageMod 1 (fun p => { p with outQ := p.outQ ++ [{ src with bytes := m }] }) s
    else
      udpSend src.srcMac src.srcIp (dgAspPort (diagSec s)) src.srcPort.toNat m
        (pageMod page (fun p => { p with delivered := p.delivered ++ [aspKeyOf m] }) s)

/-! ### Requests (R579 to R581) -/

/-- Pair B serves ASP. -/
def aspOn (s : State) : Bool := s.boot.ready && isRun s && ppbOn s

/-- What a request does: its status, the body after it, and the state. -/
abbrev AspRun := Bytes → State → Status × Bytes × State

/-- Types that CPG1 alone may use (R582). -/
def onlyOne (t : Nat) : Bool := [0x40, 0x41, 0x42, 0x60, 0x61].contains t

/-- The oldest message leaves the inbound queue. -/
def inPop (page : Nat) (s : State) : State := pageMod page (fun p => { p with inQ := p.inQ.drop 1 }) s

/-- A response to request `m` under a key. -/
def respond (page : Nat) (key : BitVec 128) (m : AspMsg) (st : Status) (body : Bytes) (s : State) : State :=
  aspOut page (msMake key page (msType m.bytes) 3 (msSeq m.bytes) (leBytes 1 st.code ++ body)) (st == .replayed) m s

/-- An authenticated request in order runs and is answered. -/
def aspAccept (page : Nat) (key : BitVec 128) (m : AspMsg) (f : AspRun) (s : State) : State :=
  let s := pageMod page (fun p => { p with aspLast := msSeq m.bytes, peerMac := m.srcMac, peerIp := m.srcIp, peerPort := m.srcPort }) s
  let bad := !msKnown (msType m.bytes) || msType m.bytes = 0x31 || (onlyOne (msType m.bytes) && page ≠ 1)
  let r := if bad then (Status.denied, ([] : Bytes), s) else f (msBody m.bytes) s
  if !r.2.2.boot.ready then r.2.2 else respond page key m r.1 r.2.1 r.2.2

/-- A message's MAC fails: it is discarded and counted (R580). -/
def macFail (s : State) : State := evDiag 4 { s with diag.macFails := satInc 65535 s.diag.macFails }

/-- Serve the page's oldest request when it is of the type named; one of no known type, or malformed, is served by any.
DESIGN CHOICE, log 94. -/
def aspServe (page : Nat) (mine : Bytes → Bool) (f : AspRun) (s : State) : State :=
  match (pageGet s page).inQ with
  | [] => s
  | m :: _ =>
    if !aspOn s || !outRoom s page then s
    else if !msOk page m.bytes then gateClose (inPop page s)
    else if msKnown (msType m.bytes) && !mine m.bytes then s
    else gateClose (match (pageGet s page).aspKey with
      | none => macFail (inPop page s)
      | some key =>
        if !msAuth key m.bytes then macFail (inPop page s)
        else if (msSeq m.bytes - (pageGet s page).aspLast).toInt ≤ 0 then
          evDiag 5 (respond page key m .replayed [] (inPop page s))
        else aspAccept page key m f (inPop page s))

/-- Serve a request of one type. -/
def aspOf (page t : Nat) (f : AspRun) (s : State) : State := aspServe page (fun m => msType m = t) f s

/-! ### OPEN and CLOSE (R579, R629) -/

/-- The key of the page's `PAIR_SLOT`, when it may open a session. -/
def pairKey (s : State) (page : Nat) : Option (BitVec 128) :=
  let n := (pageGet s page).pairSlot
  if n ≥ 64 || !atEnc (slotGet s n).attr then none else slotKey128 s n

/-- The session key S (R579). -/
def sessionKey (kp : BitVec 128) (page : Nat) (nh nd : Bytes) : BitVec 128 :=
  cmac128 kp ([0x41, 0x53, 0x50, 0x01] ++ leBytes 1 page ++ nh ++ nd)

/-- ASP_OPEN: while the generator cannot serve but is not failed, the request waits. DEDUCED, log 95. -/
def aspOpen (page : Nat) (s : State) : State :=
  match (pageGet s page).inQ with
  | [] => s
  | m :: _ =>
    if !aspOn s || !outRoom s page || !msOk page m.bytes || msType m.bytes ≠ 1 || page = 0 || page > 5 then s
    else if pageShut s page || (msBody m.bytes).length ≠ 16 then gateClose (inPop page s)
    else match pairKey s page with
      | none => inPop page s
      | some kp =>
        if !msAuth kp m.bytes then macFail (inPop page s)
        else match takeQueue s with
          | (none, s') => if rngFails s then inPop page s' else s
          | (some w, s') =>
            let nd := blockBytes w
            let key := sessionKey kp page (msBody m.bytes) nd
            let s' := pageMod page (fun p => { p with
              aspKey := some key, aspLast := msSeq m.bytes, evtSeq := 0, subs := 0, evPend := [], lost := 0, delivered := [],
              peerMac := m.srcMac, peerIp := m.srcIp, peerPort := m.srcPort }) (inPop page s')
            respond page key m .ok nd s'

def execAspOpen (page : Fin 8) (s : State) : Host.Outcome State Fault Refusal := done s (aspOpen page.val s)

def noBody (f : State → Status × Bytes × State) : AspRun := fun b s => if b ≠ [] then (.frameError, [], s) else f s

/-- CLOSE: the answer leaves under the key of the session that ends. -/
def execAspClose (page : Fin 8) (s : State) : Host.Outcome State Fault Refusal :=
  done s (aspOf page.val 0x02 (noBody (fun s => (.ok, [], aspShut page.val s))) s)

/-! ### Registers and the window -/

/-- REG_READ: a register with a read side effect is refused (R606). -/
def aspRegRead (page : Nat) : AspRun := fun b s =>
  let a := beNat (b.take 3)
  let n := u8 b 3
  if b.length ≠ 4 || n = 0 || n > 64 || a % 4 ≠ 0 then (.frameError, [], s)
  else if (List.range n).any (fun k => readActs (a + 4 * k)) then (.denied, [], s)
  else
    let r := readWords page a n (.ok, a) [] s
    (r.1.1, r.2.1, s)

def execAspRegRead (page : Fin 8) (s : State) : Host.Outcome State Fault Refusal :=
  done s (aspOf page.val 0x10 (aspRegRead page.val) s)

/-- SYS_LOCK and the RWL words, which no network page may name (R630). -/
def lockWord (a : Nat) : Bool := a = 0x04 || a = 0x90 || inRow a 0xA0 8

/-- REG_WRITE. -/
def aspRegWrite (page : Nat) : AspRun := fun b s =>
  let a := beNat (b.take 3)
  let n := u8 b 3
  if b.length ≠ 4 + 4 * n || n = 0 || n > 64 || a % 4 ≠ 0 then (.frameError, [], s)
  else if page ≠ 1 && (List.range n).any (fun k => lockWord (a + 4 * k)) then (.denied, [], s)
  else
    let w := wordsOf (b.drop 4)
    let r := writeWords page a w (.ok, a) s
    (r.1.1, [], if resetAsked page a w then resetTo .hcr r.2 else r.2)

def execAspRegWrite (page : Fin 8) (s : State) : Host.Outcome State Fault Refusal :=
  done s (aspOf page.val 0x11 (aspRegWrite page.val) s)

/-- The span lies in the page's grant and over memory. -/
def winHas (s : State) (page off n : Nat) : Bool := inGrant s page off n && off + n ≤ 0x400000

def aspWinRead (page : Nat) : AspRun := fun b s =>
  let off := beNat (b.take 4)
  let n := beNat (sl b 4 2)
  if b.length ≠ 6 || n = 0 || n > 1008 then (.frameError, [], s)
  else if !winHas s page off n then (.denied, [], s)
  else (.ok, winRead s off n, s)

def execAspWinRead (page : Fin 8) (s : State) : Host.Outcome State Fault Refusal :=
  done s (aspOf page.val 0x12 (aspWinRead page.val) s)

def aspWinWrite (page : Nat) : AspRun := fun b s =>
  let off := beNat (b.take 4)
  let n := beNat (sl b 4 2)
  if b.length ≠ 6 + n || n = 0 then (.frameError, [], s)
  else if !winHas s page off n then (.denied, [], s)
  else (.ok, [], winWrite s off (b.drop 6))

def execAspWinWrite (page : Fin 8) (s : State) : Host.Outcome State Fault Refusal :=
  done s (aspOf page.val 0x13 (aspWinWrite page.val) s)

/-! ### Rings -/

/-- Descriptors into the array from index `i`. -/
def putDescs (base depth : Nat) : Nat → Nat → Bytes → State → State
  | _, 0, _, s => s
  | i, n + 1, b, s => putDescs base depth (i + 1) n (b.drop 64) (winWrite s (base + 64 * (i % depth)) (b.take 64))

/-- RING_SUBMIT (R413, R428). DEDUCED, log 96. -/
def aspSubmit (page : Nat) : AspRun := fun b s =>
  let ring := u8 b 0
  let n := u8 b 1
  let r := ringGet s ring
  let pi (s : State) : Bytes := beBytes 2 (ringGet s ring).pi.toNat
  if n = 0 || n > 15 || b.length ≠ 2 + 64 * n then (.frameError, [], s)
  else if ring ≥ 32 || ringPage ring ≠ page then (.denied, [], s)
  else if !r.en then (.ok, pi s, s)
  else if (r.pi - r.fi).toNat + n > depthOf r.depth then (.ringFull, pi s, ringMod ring (fun r => { r with full := true }) s)
  else
    let s := putDescs r.dbase (depthOf r.depth) r.pi.toNat n (b.drop 2) s
    let s := ringMod ring (fun r => { r with pi := r.pi + BitVec.ofNat 16 n, fedB := true,
                                             cqCiCkpt := if r.fedB then r.cqCiCkpt else r.cqCi }) s
    (.ok, pi s, s)

def execAspRingSubmit (page : Fin 8) (s : State) : Host.Outcome State Fault Refusal :=
  done s (aspOf page.val 0x20 (aspSubmit page.val) s)

/-- RING_COLLECT: CQ_CI becomes ACK, which lies from CQ_CI to CQ_PI; completions from ACK are returned. -/
def aspCollect (page : Nat) : AspRun := fun b s =>
  let ring := u8 b 0
  let ack := BitVec.ofNat 16 (beNat (sl b 1 2))
  let mx := u8 b 3
  let r := ringGet s ring
  if b.length ≠ 4 || mx = 0 || mx > 31 then (.frameError, [], s)
  else if ring ≥ 32 || ringPage ring ≠ page then (.denied, [], s)
  else if (ack - r.cqCi).toNat > (r.cqPi - r.cqCi).toNat then (.frameError, [], s)
  else
    let n := min mx (r.cqPi - ack).toNat
    let d := depthOf r.depth
    (.ok, leBytes 1 n ++ (List.range n).flatMap (fun k => winRead s (r.cbase + 32 * ((ack.toNat + k) % d)) 32),
     ringItem ring (.cqCi ring ack) (ringMod ring (fun r => { r with cqCi := ack }) s))

def execAspRingCollect (page : Fin 8) (s : State) : Host.Outcome State Fault Refusal :=
  done s (aspOf page.val 0x21 (aspCollect page.val) s)

/-! ### Events (R583, R584) -/

/-- Classes a page may subscribe: those whose event register it reads; ACCESS and RING always, ASP_OUT never. -/
def subsAllowed (page : Nat) : BitVec 19 := if p16 page then 0x3FFFF else 0x23DFF

def aspSubscribe (page : Nat) : AspRun := fun b s =>
  if b.length ≠ 4 then (.frameError, [], s)
  else
    let m := BitVec.ofNat 19 (beNat b) &&& subsAllowed page
    (.ok, beBytes 4 m.toNat, pageMod page (fun p => { p with subs := m, evPend := p.evPend.filter (fun e => m.getLsbD e.1) }) s)

def execAspSubscribe (page : Fin 8) (s : State) : Host.Outcome State Fault Refusal :=
  done s (aspOf page.val 0x30 (aspSubscribe page.val) s)

/-- The body of an EVENT: class, VALUE, LOST, short time; for ACCESS, VALUE is `ACC_LAST`. -/
def eventBody (s : State) (page cls v : Nat) (t : BitVec 48) : Bytes :=
  let v := if cls = 0 then (accLoad s 8).2 else v
  leBytes 1 cls ++ beBytes 4 (v % 2 ^ 32) ++ leBytes 1 (min 255 (pageGet s page).lost) ++ beBytes 6 t.toNat

/-- ASP_EVENT: 1 ms after the first setting of a class, its EVENT is queued. -/
def aspEvent (page cls : Nat) (s : State) : State :=
  let p := pageGet s page
  match p.aspKey, p.evPend.find? (fun e => e.1 = cls) with
  | some key, some (_, v, first, t) =>
    if !aspOn s || !reached s (first + tMs 1) then s
    else
      let s := pageMod page (fun p => { p with evPend := p.evPend.filter (fun e => e.1 ≠ cls) }) s
      let s := if page = 1 && p.outQ.length ≥ 16 then dropEvent 1 s else s
      if page = 1 && (pageGet s 1).outQ.length ≥ 16 then
        evDiag 6 (pageMod 1 (fun p => { p with lost := p.lost + 1 }) s)
      else
        let m := msMake key page 0x31 5 (p.evtSeq + 1) (eventBody s page cls v t)
        let s := pageMod page (fun p => { p with evtSeq := p.evtSeq + 1, lost := 0 }) s
        aspOut page m false { bytes := [], srcMac := p.peerMac, srcIp := p.peerIp, srcPort := p.peerPort } s
  | _, _ => s

def execAspEvent (page : Fin 8) (cls : Fin 19) (s : State) : Host.Outcome State Fault Refusal :=
  done s (aspEvent page.val cls.val s)

/-! ### Power, reset, calibration (R581, R582) -/

def aspPower : AspRun := fun b s =>
  if b.length ≠ 1 || u8 b 0 > 3 then (.frameError, [], s)
  else if u8 b 0 = 0 then (.ok, [], s)
  else let r := pwrCmd 1 (u8 b 0) 0xA5C3 s; (r.1, [], r.2)

def execAspPower (page : Fin 8) (s : State) : Host.Outcome State Fault Refusal := done s (aspOf page.val 0x40 aspPower s)

/-- RESET: the response leaves, then the HCR follows (R581). -/
def aspReset (page : Nat) (s : State) : State :=
  let f : AspRun := fun b s =>
    if beNat b ≠ 0x5EC7 || b.length ≠ 2 then (.frameError, [], s)
    else
      let p := pageGet s page
      match p.aspKey with
      | some key => (.ok, [], { resetTo .hcr s with
          diag.out := msMake key page 0x41 3 p.aspLast [0], boot.ready := false })
      | none => (.ok, [], s)
  aspOf page 0x41 f s

def execAspReset (page : Fin 8) (s : State) : Host.Outcome State Fault Refusal := done s (aspReset page.val s)

def aspUhfCal : AspRun := fun b s =>
  if b.length ≠ 2 then (.frameError, [], s) else (.ok, [], calRequest (u8 b 0 % 4 + 4 * (u8 b 1 % 16)) s)

def execAspUhfCal (page : Fin 8) (s : State) : Host.Outcome State Fault Refusal := done s (aspOf page.val 0x42 aspUhfCal s)

/-! ### The permit session (R394, R395) -/

/-- A message that names the permit session. -/
def sessionMsg (f : State → State) : AspRun := fun b s =>
  if b.length ≠ 4 then (.frameError, [], s)
  else if !s.acc.sessOpen || beNat b ≠ s.acc.session then (.notReady, [], s)
  else (.ok, [], f s)

def execAspEngineRunning (page : Fin 8) (s : State) : Host.Outcome State Fault Refusal :=
  done s (aspOf page.val 0x50 (sessionMsg holdStart) s)

def execAspPermitEnd (page : Fin 8) (s : State) : Host.Outcome State Fault Refusal :=
  done s (aspOf page.val 0x51 (sessionMsg withdraw) s)

/-! ### Overrides (R43, R582) -/

/-- Replace bytes of a section. -/
def splice (b : Bytes) (at_ : Nat) (d : Bytes) : Bytes := b.take at_ ++ d ++ b.drop (at_ + d.length)

/-- Length of an override's data, none for an unknown kind; a telegram block has any length. -/
def ovLen (k n : Nat) : Bool := match k with
  | 1 => n = 2 | 2 => n = 33 | 3 => n ≥ 1 | 4 => n = 11 | _ => false

/-- The content rules of the section an override changes. -/
def ovOk (s : State) (k : Nat) (d : Bytes) : Bool :=
  let r := s.set.radio
  let i := u8 d 0
  match k with
  | 1 => rg (beNat d) 11000 14000
  | 2 => i < raWins r && radioOk { s.set with radio := splice r (16 + 32 * i) (d.drop 1) }
  | 3 => i < raTels r && (d.drop 1).length = (raTel r i).length && radioOk { s.set with radio := splice r (u16 r (raTelDir r i)) (d.drop 1) }
  | _ => s.set.ranging != [] && rangingOk { s.set with ranging := splice s.set.ranging 9 d }

/-- An override takes effect now, or after the sequence that runs (R43). -/
def ovPut (k : Nat) (d : Bytes) (s : State) : State := ovFlush { s with ov.waiting := s.ov.waiting ++ [(k, d)] }

def aspOverride : AspRun := fun b s =>
  let k := u8 b 0
  let d := b.drop 1
  if !ovLen k d.length then (.frameError, [], s)
  else if !ovOk s k d then (.badEntry, [], s)
  else (.ok, [], ovPut k d s)

/-- An OVERRIDE of one kind, or of none. -/
def ovMine (k : Nat) (m : Bytes) : Bool := msType m = 0x60 && (u8 (msBody m) 0 = k || !rg (u8 (msBody m) 0) 1 4)

def execAspOverrideCarrier (page : Fin 8) (s : State) : Host.Outcome State Fault Refusal :=
  done s (aspServe page.val (ovMine 1) aspOverride s)
def execAspOverrideWindowPlan (page : Fin 8) (s : State) : Host.Outcome State Fault Refusal :=
  done s (aspServe page.val (ovMine 2) aspOverride s)
def execAspOverrideTelegram (page : Fin 8) (s : State) : Host.Outcome State Fault Refusal :=
  done s (aspServe page.val (ovMine 3) aspOverride s)
def execAspOverrideRanging (page : Fin 8) (s : State) : Host.Outcome State Fault Refusal :=
  done s (aspServe page.val (ovMine 4) aspOverride s)

/-- REVERT. -/
def execAspRevert (page : Fin 8) (s : State) : Host.Outcome State Fault Refusal :=
  done s (aspOf page.val 0x61 (noBody (fun s => (.ok, [], ovPut 0 [] s))) s)

end Sys2Proof.Machine
end

