-- ==== Sys2Proof/Machine/Net.lean ====
section
/-! DEFINITION. Frames that arrive (R541) and what the pairs do with those delivered to them: ASP over UDP, ARP and ICMP echo
(R571, R584, R585, R629). -/

namespace Sys2Proof.Machine

/-- An ASP message over UDP enters the queue of the page it names, CPG2 to CPG5; at a full queue it is discarded. A shut page
takes nothing (R629). -/
def aspUdp (mac : BitVec 48) (ip : BitVec 32) (port : Nat) (pay : Bytes) (s : State) : State :=
  let page := msPage pay
  if page < 2 || page > 5 || pay.length > 1044 || pageShut s page || (pageGet s page).inQ.length ≥ 4 then s
  else pageMod page (fun p => { p with
    inQ := p.inQ ++ [{ bytes := pay, srcMac := mac, srcIp := ip, srcPort := BitVec.ofNat 16 port }] }) s

/-- The pairs read a frame delivered to them. -/
def pairsRead (f : Bytes) (s : State) : State :=
  match udpOf s f with
  | some (mac, ip, sport, dport, pay) => if dport = dgAspPort (diagSec s) then aspUdp mac ip sport pay s else s
  | none => s

/-- A frame arrives; `then_` acts when it is delivered to the pairs. -/
def frameThen (p : Nat) (raw : Bytes) (then_ : Bytes → State → State) (s : State) : State :=
  let r := frameIn p raw { s with sw.toPairs := [] }
  match r.sw.toPairs.getLast? with
  | some f => then_ f r
  | none => { r with sw.toPairs := s.sw.toPairs }

/-- FRAME_RECEIVE: bytes from the destination address to the FCS. -/
def execFrameReceive (port : Fin 9) (bytes : List Byte) (s : State) : Host.Outcome State Fault Refusal :=
  done s (frameThen port.val bytes pairsRead s)

/-- An ARP packet over Ethernet and IPv4. -/
def arpPacket (op : Nat) (mac : Bytes) (ip : Bytes) (tmac : Bytes) (tip : Bytes) : Bytes :=
  [0, 1, 8, 0, 6, 4] ++ beBytes 2 op ++ mac ++ ip ++ tmac ++ tip

/-- ARP_REQUEST: a broadcast request arrives untagged; one for the interface's address is answered.
DESIGN CHOICE, log 97. -/
def arpRequest (p : Nat) (mac : BitVec 48) (ip tip : BitVec 32) (s : State) : State :=
  let m := beBytes 6 mac.toNat
  let f := padTo 60 (List.replicate 6 0xFF ++ m ++ [0x08, 0x06] ++ arpPacket 1 m (beBytes 4 ip.toNat) (List.replicate 6 0) (beBytes 4 tip.toNat))
  frameThen p (f ++ fcs f) (fun _ s =>
    if aspOn s && beBytes 4 tip.toNat = ownIp s then
      pairSend m 0x0806 (arpPacket 2 (nwDevMac (netSec s)) (ownIp s) m (beBytes 4 ip.toNat)) s
    else s) s

def execArpRequest (port : Fin 9) (senderMac : BitVec 48) (senderIp targetIp : BitVec 32) (s : State) :
    Host.Outcome State Fault Refusal :=
  done s (arpRequest port.val senderMac senderIp targetIp s)

/-- An ICMP echo reply (RFC 792). -/
def icmpReply (ident seq : BitVec 16) (data : Bytes) : Bytes :=
  let m (c : Nat) : Bytes := [0, 0] ++ beBytes 2 c ++ beBytes 2 ident.toNat ++ beBytes 2 seq.toNat ++ data
  m (ipSum (m 0))

/-- ICMP_ECHO_REQUEST: an unfragmented request for the interface's address is answered. -/
def icmpEcho (mac : BitVec 48) (src dst : BitVec 32) (ident seq : BitVec 16) (data : Bytes) (s : State) : State :=
  if !aspOn s || !swOn s || beBytes 4 dst.toNat ≠ ownIp s || data.length > 1472 then s
  else
    pairSend (beBytes 6 mac.toNat) 0x0800 (ipPacket s (beBytes 4 src.toNat) 1 (icmpReply ident seq data))
      { s with pwr.idleSince := s.elapsed }

def execIcmpEchoRequest (srcMac : BitVec 48) (srcIp dstIp : BitVec 32) (ident seq : BitVec 16) (data : List Byte) (s : State) :
    Host.Outcome State Fault Refusal :=
  done s (icmpEcho srcMac srcIp dstIp ident seq data s)

end Sys2Proof.Machine
end

