-- ==== Sys2Proof/Machine/UdsOps.lean ====
section
/-! DEFINITION. What every UDS service shares (R586 to R594): who may send a request, answers and negative responses, sessions,
bindings, rights, and the start and end of routines. -/

namespace Sys2Proof.Machine

/-! ### Requests and answers -/

/-- The connection carries requests now: Run outside ride-through, after start-up, and its routing is active or its CAN
controller takes part in the bus (R586, R587, R600, R617). -/
def udsLive (s : State) (c : Nat) : Bool :=
  isRun s && !inRide s && s.boot.ready && hasRole s 1 &&
    (if c < 2 then (connGet s c).active else (canDiag s 0 && canLive s 0) || (canDiag s 1 && canLive s 1))

/-- A request arrives: the S3 timer and the idle time start anew (R136, R589). DESIGN CHOICE, log 107. -/
def udsHeard (c : Nat) (s : State) : State :=
  connMod c (fun x => { x with active := true, req := [], s3 := s.elapsed, seen := s.elapsed })
    { s with diag.cur := c, pwr.idleSince := s.elapsed }

/-- A response is sent. -/
def udsSay (c : Nat) (b : Bytes) (s : State) : State := connMod c (fun x => { x with resp := b }) s

/-- A negative response. -/
def udsNrc (c sid nrc : Nat) (s : State) : State := udsSay c [0x7F, BitVec.ofNat 8 sid, BitVec.ofNat 8 nrc] s

/-- A request of a connection, when the connection carries requests. DEDUCED, log 101. -/
def uds (c : Nat) (f : State → State) (s : State) : State := if udsLive s c then f (udsHeard c s) else s

/-! ### Sessions (R588, R589, R591) -/

/-- Authentication ends; in BLANK the binding goes with the session (R589, R591). -/
def connUnauth (c : Nat) (s : State) : State :=
  connMod c (fun x => { x with auth := none, roles := 0, untimed := false, page := 0 }) s

/-- Return to the default session. -/
def sessionDefault (c : Nat) (s : State) : State :=
  connUnauth c (connMod c (fun x => { x with session := 1 }) { s with
    diag.download := if (connGet s c).page ≠ 0 then none else s.diag.download })

/-- Another connection is bound to the page. -/
def pageTaken (s : State) (c page : Nat) : Bool := (List.range 3).any (fun i => i ≠ c && (connGet s i).page = page)

/-- P2server 50 ms and P2*server 5,000 ms in units of 10 ms (R589). PRESUMED, log 100. -/
def sessionTimes : Bytes := beBytes 2 50 ++ beBytes 2 500

/-- Entry to the programming or extended session; in BLANK it binds CPG7 with every role (R591). -/
def sessionEnter (c n : Nat) (s : State) : State :=
  if s.ks.lc == .blank && pageTaken s c 7 then udsNrc c 0x10 0x22 s
  else
    let s := connMod c (fun x => { x with session := n }) s
    let s := if s.ks.lc == .blank then connMod c (fun x => { x with page := 7, roles := 0x1F }) s else s
    udsSay c ([0x50, BitVec.ofNat 8 n] ++ sessionTimes) s

/-! ### Rights (R592) -/

/-- The capabilities of R592. -/
inductive Cap where
  | workshop | image | slots | identity | keys | tamperClear | transition | seal
deriving DecidableEq, Repr

/-- The role bit a capability needs in a life-cycle state: none is a dash, 8 stands for "bound" (R592). -/
def capRole (lc : LifeCycle) : Cap → Option Nat
  | .workshop => some (match lc with | .blank => 8 | _ => 0)
  | .image => some (match lc with | .blank => 8 | _ => 1)
  | .slots => some (match lc with | .blank => 8 | .factory => 4 | _ => 2)
  | .identity => match lc with | .factory => some 4 | _ => none
  | .keys => match lc with | .blank => none | .factory => some 4 | _ => some 2
  | .tamperClear => match lc with | .blank => none | .factory => some 4 | _ => some 2
  | .transition => match lc with | .blank => some 8 | .factory => some 4 | .field => some 3 | .retn => none
  | .seal => match lc with | .blank => some 8 | .factory => some 4 | _ => some 3

/-- The connection is bound and holds the role; a dash asks for the binding alone, since the refusal is a status. -/
def capOk (s : State) (c : Nat) (k : Cap) : Bool :=
  let x := connGet s c
  x.page ≠ 0 && (match capRole s.ks.lc k with
    | some r => r = 8 || x.roles.getLsbD r
    | none => true)

/-- The state gives the capability to nobody. -/
def capDash (s : State) (k : Cap) : Bool := (capRole s.ks.lc k).isNone

/-- A service or data identifier of a capability is open to the connection. -/
def capFull (s : State) (c : Nat) (k : Cap) : Bool := capOk s c k && !capDash s k

/-! ### Routines (R593, R594) -/

/-- The routines' identifiers with what each needs. -/
def ridCap (rid : Nat) : Option Cap :=
  if rid = 0xF100 then some .image
  else if 0xF110 ≤ rid && rid ≤ 0xF112 then some .keys
  else if 0xF120 ≤ rid && rid ≤ 0xF122 then some .slots
  else if rid = 0xF130 then some .identity
  else if rid = 0xF140 then some .transition
  else if rid = 0xF141 then some .seal
  else if rid = 0xF150 then some .tamperClear
  else if 0xF160 ≤ rid && rid ≤ 0xF163 then some .keys
  else none

/-- Routines that R617 counts as key operations or the transition: an unbound default session is refused with NRC 0x33.
DEDUCED, log 102. -/
def ridKeys (rid : Nat) : Bool := (0xF110 ≤ rid && rid ≤ 0xF122) || rid = 0xF140 || rid = 0xF150

/-- The negative response code, if any, of a request for a routine: its session, then its role (R588, R593, R617). -/
def rtRefused (s : State) (c rid : Nat) : Option Nat :=
  let x := connGet s c
  match ridCap rid with
  | none => some 0x31
  | some k =>
    if x.session = 1 && ridKeys rid then some 0x33
    else if !(x.session = 3 || (x.session = 2 && rid = 0xF100)) then some 0x7F
    else if !capOk s c k then some 0x33
    else none

/-- A routine runs. -/
def rtRunning (s : State) : Bool := match s.diag.routine with | some r => r.running | none => false

/-- The answer to a start. -/
def rtStarted (rid : Nat) : Bytes := [0x71, 1] ++ beBytes 2 rid ++ [1]

/-- Start a routine of the page: answered at once, and the body runs; a dash of R592 ends it with LOCKED. `ok` says that the
option record has its length. -/
def rtStart (c rid : Nat) (ok : Bool) (opt : Bytes) (body : State → State) (s : State) : State :=
  match rtRefused s c rid with
  | some n => udsNrc c 0x31 n s
  | none =>
    if !ok then udsNrc c 0x31 0x13 s
    else if rtRunning s then udsNrc c 0x31 0x22 s
    else
      let s := udsSay c (rtStarted rid) { s with
        diag.routine := some { rid := rid, conn := c, running := true, status := .ok, result := [], opt := opt, step := 0 } }
      match ridCap rid with
      | some k => if capDash s k then rtEnd .locked [] s else body s
      | none => s

/-- Results of the page's routine (R594). -/
def rtResults (c rid : Nat) (s : State) : State :=
  match rtRefused s c rid with
  | some n => udsNrc c 0x31 n s
  | none =>
    match s.diag.routine with
    | none => udsNrc c 0x31 0x24 s
    | some r =>
      if r.rid ≠ rid then udsNrc c 0x31 0x24 s
      else if r.running then udsSay c ([0x71, 3] ++ beBytes 2 rid ++ [0]) s
      else udsSay c ([0x71, 3] ++ beBytes 2 rid ++ [1, BitVec.ofNat 8 r.status.code] ++ r.result) s

/-! ### Conditions of the routines -/

/-- R404 in the order of R616: tamper, life cycle, then the permit latch and the supply. -/
def learnLocked (s : State) : Bool :=
  s.tmp.latch || s.ks.lc == .blank || s.permit.latch || s.sup.region != .full

/-- A round may open: no sequence and no round is open (R386, R407). -/
def roundFree (s : State) : Bool := s.acc.seqn.isNone && s.acc.round.isNone

/-- A start coil is named (R376, R594). -/
def coilOk (s : State) : Bool := s.acc.profile != [] && pfStartCoil s.acc.profile ≠ 255

/-- Fields of a credential record inside their ranges (R378). -/
def credRecordOk (b : Bytes) : Bool :=
  b.length = 32 && u8 b 1 ≤ 2 && u8 b 2 < 56 && (u8 b 3 < 128 || u8 b 3 = 255) && u8 b 4 < 64 && allZero (sl b 6 2)
    && allZero (sl b 28 4)

/-- Fields of a profile record inside their ranges (R376). -/
def profileRecordOk (s : State) (p : Bytes) : Bool :=
  let pin (n : Nat) : Bool :=
    let r := pfRec p n
    (if n = 8 then prRole r = 4 else prRole r ≤ 3) && prTrx r ≤ 1 && allZero (sl r 6 2)
  p.length = 104 && u8 p 0 = 1 && pfEnable p < 32 && pfDevice p ≠ 0 && pfPermitSlot p < 56 && pfSessionMc p < 128
    && (pfStartCoil p = 255 || (pfStartCoil p < 16 && s.set.antenna != [] && antMapped s.set.antenna (pfStartCoil p)))
    && rg (pfMaxKeys p) 1 4 && rg (pfCoilI p) 50 2000 && pfTokenPhase p ≤ 9999 && rg (pfHold p) 1 600 && rg (pfRkeWindow p) 1 4096
    && (List.range 9).all pin && allZero (sl p 88 16)

/-- Start of a round for the running routine; a refused entry ends it. -/
def rtRound (u : RoundUse) (n : Nat) (s : State) : State :=
  let r := roundStart u (rtSetStep n s)
  match r.1 with
  | some st => rtEnd st [] r.2
  | none => r.2

/-- LEARN_KEY once no sequence is open: R404, the record's ranges, then step 1 of R405 with the session withdrawn. Before the VHOLD
measurement it waits, since it ends in a record write (R104). -/
def learnBegin (s : State) : State :=
  if !s.sup.measured then s
  else if learnLocked s then learnEnd .locked s
  else if s.sup.thermOff || !coilOk s then learnEnd .notReady s
  else if !credRecordOk ((rtOpt s).take 32) then learnEnd .badEntry s
  else
    let r := roundStart .learn (rtSetStep 1 (withdraw s))
    match r.1 with
    | some st => learnEnd st r.2
    | none => r.2

/-- A tag routine once no sequence is open. -/
def tagBegin (u : RoundUse) (s : State) : State :=
  if (u == .tagWrite || u == .tagLock) && learnLocked s then rtEnd .locked [] s
  else if s.sup.thermOff || !coilOk s then rtEnd .notReady [] s
  else rtRound u 1 s

/-- SLOT_GENERATE from its option record; while the generator can only wait, or NVM writes do, so does the routine (R38, R104, R493). -/
def generateGo (s : State) : State :=
  let o := rtOpt s
  let n := u8 o 0
  let page := keyPage s
  match slotCheck page n true (some (BitVec.ofNat 32 (u32 o 1))) (u16 o 5) true s with
  | some st => rtEnd st [] s
  | none =>
    if !rngServes s || (n < 56 && !s.sup.measured) then s
    else
      let r := slotOp page n true (some (BitVec.ofNat 32 (u32 o 1))) (u16 o 5) none s
      rtEnd r.1 [] r.2

/-- A routine that writes retained memory waits for the VHOLD measurement (R104). -/
def rtNvm (body : State → State) (s : State) : State := if s.sup.measured then body s else s

/-- A routine that waits, once what it waits for has come. DESIGN CHOICE, log 106. -/
def rtResume (s : State) : State :=
  match s.diag.routine with
  | none => s
  | some r =>
    if !r.running || r.step ≠ 0 then s
    else if r.rid = 0xF121 then generateGo s
    else if !roundFree s then s
    else if r.rid = 0xF110 then learnBegin s
    else if r.rid = 0xF160 then tagBegin .inventory s
    else if r.rid = 0xF161 then tagBegin .tagRead s
    else if r.rid = 0xF162 then tagBegin .tagWrite s
    else if r.rid = 0xF163 then tagBegin .tagLock s
    else s

end Sys2Proof.Machine
end

