-- ==== Sys2Proof/Machine/Uds.lean ====
section
/-! DEFINITION. The UDS services (R588 to R597): sessions, reset, DTCs, data identifiers, authentication, routine results and
image download. -/

namespace Sys2Proof.Machine

/-! ### Sessions (R588, R589) -/

/-- DEFAULT_SESSION. -/
def udsDefault (c : Nat) (s : State) : State := udsSay c ([0x50, 1] ++ sessionTimes) (sessionDefault c s)

def execDefaultSession (conn : Fin 3) (s : State) : Host.Outcome State Fault Refusal := done s (uds conn.val (udsDefault conn.val) s)

def execProgrammingSession (conn : Fin 3) (s : State) : Host.Outcome State Fault Refusal :=
  done s (uds conn.val (sessionEnter conn.val 2) s)

def execExtendedSession (conn : Fin 3) (s : State) : Host.Outcome State Fault Refusal :=
  done s (uds conn.val (sessionEnter conn.val 3) s)

/-- TESTER_PRESENT, with or without suppression. -/
def testerPresent (c : Nat) (quiet : Bool) (s : State) : State := if quiet then s else udsSay c [0x7E, 0] s

def execTesterPresent (conn : Fin 3) (suppress : Bool) (s : State) : Host.Outcome State Fault Refusal :=
  done s (uds conn.val (testerPresent conn.val suppress) s)

/-- S3_SERVER_TIMEOUT: 5,000 ms after the last request, not while the connection's routine runs (R589). -/
def s3Timeout (c : Nat) (s : State) : State :=
  let x := connGet s c
  let busy : Bool := match s.diag.routine with | some r => r.running && r.conn = c | none => false
  if x.session = 1 || busy || !reached s (x.s3 + tS 5) then s else sessionDefault c s

def execS3ServerTimeout (conn : Fin 3) (s : State) : Host.Outcome State Fault Refusal := done s (s3Timeout conn.val s)

/-- The services of R588. -/
def sidKnown (sid : Nat) : Bool := [0x10, 0x11, 0x14, 0x19, 0x22, 0x29, 0x31, 0x34, 0x36, 0x37, 0x3E].contains sid

/-- UNSUPPORTED_SERVICE. -/
def unsupported (c sid : Nat) (s : State) : State := if sidKnown sid then s else udsNrc c sid 0x11 s

def execUnsupportedService (conn : Fin 3) (sid : Byte) (s : State) : Host.Outcome State Fault Refusal :=
  done s (uds conn.val (unsupported conn.val sid.toNat) s)

/-- A service that asks for a session other than the default and a capability. -/
def udsGuard (c sid : Nat) (sessionOk : Bool) (k : Cap) (f : State → State) (s : State) : State :=
  if !sessionOk then udsNrc c sid 0x7F s else if !capFull s c k then udsNrc c sid 0x33 s else f s

/-- ECU_RESET: the answer, then HCR (R146, R588). DEDUCED, log 110. -/
def ecuReset (c : Nat) (s : State) : State :=
  udsGuard c 0x11 ((connGet s c).session ≠ 1) .workshop (fun s => { resetTo .hcr s with diag.out := [0x51, 1] }) s

def execEcuReset (conn : Fin 3) (s : State) : Host.Outcome State Fault Refusal := done s (uds conn.val (ecuReset conn.val) s)

/-! ### DTCs (R596) -/

/-- Mask with which a condition still present raises its DTC: that of an LF channel is not yet confirmed (R257). -/
def dtcMask (code : Nat) : BitVec 8 := if 0xB72100 ≤ code && code ≤ 0xB725FF then dtcPending else dtcFailed

/-- Every record is erased; a condition still present raises its DTC again. DEDUCED, log 104. -/
def dtcWipe (s : State) : State :=
  s.diag.conditions.foldl (fun s c => dtcStore (dtcMask c) c s) { s with diag.dtcs := [], diag.waiting := [] }

def clearDtcs (c : Nat) (group : BitVec 24) (s : State) : State :=
  udsGuard c 0x14 ((connGet s c).session = 3) .workshop (fun s =>
    if group ≠ 0xFFFFFF then udsNrc c 0x14 0x31 s else udsSay c [0x54] (dtcWipe s)) s

def execClearDiagnosticInformation (conn : Fin 3) (group : BitVec 24) (s : State) : Host.Outcome State Fault Refusal :=
  done s (uds conn.val (clearDtcs conn.val group) s)

/-- Records that match a status mask, within the availability mask 0x2D. -/
def dtcMatching (mask : Byte) (s : State) : List Dtc := s.diag.dtcs.filter (fun d => (d.st &&& mask &&& 0x2D) != 0)

/-- A record as a report lists it: code, status. -/
def dtcBytes (l : List Dtc) : Bytes := l.flatMap (fun d => beBytes 3 d.code ++ [d.st &&& 0x2D])

def dtcCount (c : Nat) (mask : Byte) (s : State) : State :=
  udsSay c ([0x59, 1, 0x2D, 1] ++ beBytes 2 (dtcMatching mask s).length) s

def execReportNumberOfDtcByStatusMask (conn : Fin 3) (mask : Byte) (s : State) : Host.Outcome State Fault Refusal :=
  done s (uds conn.val (dtcCount conn.val mask) s)

def dtcReport (c : Nat) (mask : Byte) (s : State) : State := udsSay c ([0x59, 2, 0x2D] ++ dtcBytes (dtcMatching mask s)) s

def execReportDtcByStatusMask (conn : Fin 3) (mask : Byte) (s : State) : Host.Outcome State Fault Refusal :=
  done s (uds conn.val (dtcReport conn.val mask) s)

def dtcSupported (c : Nat) (s : State) : State := udsSay c ([0x59, 0x0A, 0x2D] ++ dtcBytes s.diag.dtcs) s

def execReportSupportedDtc (conn : Fin 3) (s : State) : Host.Outcome State Fault Refusal :=
  done s (uds conn.val (dtcSupported conn.val) s)

/-! ### Data identifiers (R597) -/

/-- Register words in their little-endian layout. -/
def didWords (l : List RegRes) : Bytes := l.flatMap (fun r => leBytes 4 r.2)

/-- A tamper log entry; one never written is not stated (log 7). -/
def didLog (s : State) (i : Nat) : Bytes :=
  match s.tmp.log[i]? with
  | some e => logBytes e
  | none => blockBytes Config.emptyLogEntry

/-- "FK1648-GBA-Q1". -/
def partName : Bytes := [0x46, 0x4B, 0x31, 0x36, 0x34, 0x38, 0x2D, 0x47, 0x42, 0x41, 0x2D, 0x51, 0x31]

/-- A stored constant. -/
def didConst (s : State) (d : Nat) : Option Bytes := ((dgDidList (diagSec s)).find? (fun x => x.1 = d)).map (·.2)

/-- Content of a data identifier, or the NRC. -/
def didRead (s : State) (c d : Nat) : Except Nat Bytes :=
  if d = 0xF187 then .ok partName
  else if d = 0xF189 then .ok (leBytes 2 Config.romRev.toNat)
  else if d = 0xF18C then .ok (leBytes 8 Config.uid.toNat)
  else if d = 0xF190 then .ok ((didConst s d).getD (List.replicate 17 0xFF))
  else if d = 0xF1A0 then .ok (didWords [sysLoad s 1 0x10, sysLoad s 1 0x14] ++ s.boot.imageId)
  else if d = 0xF1A1 then .ok s.boot.digest
  else if d = 0xF1A2 then .ok (didWords [ksLoad s 1 0x00, tmpLoad s 0x00, tmpLoad s 0x10])
  else if d = 0xF1A3 then .ok (didWords [pwrLoad s 0x40, pwrLoad s 0x44])
  else if 0xF1B0 ≤ d && d ≤ 0xF1BF then
    if capFull s c .workshop then .ok (didLog s (2 * (d - 0xF1B0)) ++ didLog s (2 * (d - 0xF1B0) + 1)) else .error 0x33
  else if d = 0xF1C0 then
    if capFull s c .workshop then .ok (didWords [accLoad s 0x00, accLoad s 0x08, accLoad s 0x0C]) else .error 0x33
  else if 0xF200 ≤ d && d ≤ 0xF2FF then
    if capFull s c .keys then .ok (credBytes (d - 0xF200) (credGet s (d - 0xF200))) else .error 0x33
  else match didConst s d with
    | some b => .ok b
    | none => .error 0x31

/-- Contents of a list of identifiers, each behind its identifier; the first NRC decides. -/
def didAll (s : State) (c : Nat) : List (BitVec 16) → Except Nat Bytes
  | [] => .ok []
  | d :: r => match didRead s c d.toNat, didAll s c r with
    | .error n, _ => .error n
    | .ok _, .error n => .error n
    | .ok b, .ok x => .ok (beBytes 2 d.toNat ++ b ++ x)

/-- READ_DATA_BY_IDENTIFIER: 1 to 8 identifiers. -/
def readDids (c : Nat) (l : List (BitVec 16)) (s : State) : State :=
  if l = [] || l.length > 8 then udsNrc c 0x22 0x13 s
  else match didAll s c l with
    | .ok b => udsSay c (0x62 :: b) s
    | .error n => udsNrc c 0x22 n s

def execReadDataByIdentifier (conn : Fin 3) (dids : List (BitVec 16)) (s : State) : Host.Outcome State Fault Refusal :=
  done s (uds conn.val (readDids conn.val dids) s)

/-! ### Authentication (R590, R591) -/

/-- What every 0x29 request meets first: its sessions, BLANK, and the delay after three failures. -/
def authGuard (c : Nat) (f : State → State) (s : State) : State :=
  if (connGet s c).session = 1 then udsNrc c 0x29 0x7F s
  else if s.ks.lc == .blank then udsNrc c 0x29 0x22 s
  else if s.diag.exceeded then udsNrc c 0x29 0x36 { s with diag.exceeded := false }
  else if s.diag.lockUntil.isSome then udsNrc c 0x29 0x37 s
  else f s

/-- A failed authentication: the third in a row starts the delay. -/
def authFail (c nrc : Nat) (s : State) : State :=
  let n := s.diag.authFails + 1
  let s := udsNrc c 0x29 nrc (evDiag 3 (connMod c (fun x => { x with auth := none }) { s with diag.authFails := n }))
  if n ≥ 3 then { s with diag.authFails := 0, diag.exceeded := true, diag.lockUntil := some (s.elapsed + tS 10) } else s

/-- DE_AUTHENTICATE. -/
def deAuth (c : Nat) (s : State) : State := authGuard c (fun s => udsSay c [0x69, 0, 0x10] (connUnauth c s)) s

def execDeAuthenticate (conn : Fin 3) (s : State) : Host.Outcome State Fault Refusal := done s (uds conn.val (deAuth conn.val) s)

/-- AUTHENTICATION_CONFIGURATION: APCE. -/
def authConfig (c : Nat) (s : State) : State := authGuard c (udsSay c [0x69, 8, 2]) s

def execAuthenticationConfiguration (conn : Fin 3) (s : State) : Host.Outcome State Fault Refusal :=
  done s (uds conn.val (authConfig conn.val) s)

/-- A trust anchor: modulus, exponent, roles. -/
def anchorsOf (s : State) : List (Nat × Nat × BitVec 5) :=
  let b := diagSec s
  if dgAnchors b > 0 then
    (List.range (dgAnchors b)).map (fun i =>
      let a := dgAnchor b i
      (beNat (sl a 4 512), u32 a 0, BitVec.ofNat 5 (u8 a 516)))
  else
    let h := imHead s
    let m := imCert h
    if certValid s.ks.lc h && (ceLcMask m).testBit s.ks.lc.code && (match headGood s with | some r => decide (ceMaker m = hdMaker r) | none => true)
    then [(ceModulus m, 65537, 3)] else []

/-- A certificate's own form: RSA-4096 with a DER of at most 2,048 bytes. -/
def certForm (t : TesterCert) : Bool := t.derLen ≤ 2048 && 2 ^ 4095 ≤ t.modulus && t.modulus < 2 ^ 4096

/-- Validity dates are checked while the clock is trusted (R590). -/
def datesChecked (s : State) : Bool := (s.clk.mode == .following || s.clk.mode == .master) && !s.clk.stale

def certSigned (t : TesterCert) (modulus e : Nat) : Bool := pssVerify modulus e 64 t.signed t.sig

/-- The chain, the tester's certificate first: NRC, or the tester's key and the anchor's roles. -/
def chainCheck (s : State) (chain : List TesterCert) : Except Nat (Nat × Nat × BitVec 5) :=
  let dates : Bool := !datesChecked s || chain.all (fun t => decide (t.notBefore ≤ s.clk.sec) && decide (s.clk.sec ≤ t.notAfter))
  let root (t : TesterCert) : Option (BitVec 5) := ((anchorsOf s).find? (fun a => certSigned t a.1 a.2.1)).map (·.2.2)
  if !dates then .error 0x50
  else match chain with
    | [t] => match root t with
      | some r => .ok (t.modulus, t.exponent, r)
      | none => .error 0x52
    | [t, i] =>
      if !certSigned t i.modulus i.exponent then .error 0x51
      else match root i with
        | some r => .ok (t.modulus, t.exponent, r)
        | none => .error 0x52
    | _ => .error 0x13

/-- The 32-byte challenge of an authentication that waits for the background queue, and its answer. -/
def challengeGive (c : Nat) (s : State) : State :=
  match (connGet s c).auth with
  | some ([], m, e, r, u) =>
    match takeQueue s with
    | (some a, s1) => match takeQueue s1 with
      | (some b, s2) =>
        let ch := blockBytes a ++ blockBytes b
        udsSay c ([0x69, 1, 0x11] ++ beBytes 2 32 ++ ch ++ beBytes 2 0)
          (connMod c (fun x => { x with auth := some (ch, m, e, r, u) }) s2)
      | (none, _) => s
    | (none, _) => s
  | _ => s

/-- VERIFY_CERTIFICATE_UNIDIRECTIONAL; NRC 0x78 while the queue holds no two words (R589), 0x22 when the generator has failed.
DEDUCED, log 103. -/
def verifyChain (c : Nat) (config : Byte) (chain : List TesterCert) (s : State) : State :=
  authGuard c (fun s =>
    if chain = [] || chain.length > 2 || !chain.all certForm then udsNrc c 0x29 0x13 s
    else if config ≠ 0 then udsNrc c 0x29 0x31 s
    else match chainCheck s chain with
      | .error n => authFail c n s
      | .ok k =>
        if s.rng.queue.length < 2 && rngFails s then udsNrc c 0x29 0x22 s
        else challengeGive c (udsNrc c 0x29 0x78 (connMod c (fun x => { x with
          auth := some ([], k.1, k.2.1, k.2.2, !datesChecked s) }) s))) s

def execVerifyCertificateUnidirectional (conn : Fin 3) (config : Byte) (chain : List TesterCert) (s : State) :
    Host.Outcome State Fault Refusal := done s (uds conn.val (verifyChain conn.val config chain) s)

/-- Page and roles that a success binds (R591). -/
def authBind (s : State) (r : BitVec 5) : Nat × BitVec 5 :=
  match s.ks.lc with
  | .blank => (7, r)
  | .factory => (if r.getLsbD 4 then 7 else 0, r)
  | .field => (6, r &&& 0x0F)
  | .retn => (6, r &&& 0x0F)

/-- PROOF_OF_OWNERSHIP. -/
def proof (c : Nat) (sig : Bytes) (s : State) : State :=
  authGuard c (fun s =>
    match (connGet s c).auth with
    | none => udsNrc c 0x29 0x24 s
    | some (ch, m, e, r, u) =>
      let b := authBind s r
      if ch = [] then udsNrc c 0x29 0x24 s
      else if b.1 ≠ 0 && pageTaken s c b.1 then udsNrc c 0x29 0x22 s
      else if !pssVerify m e 64 ch sig then authFail c 0x58 s
      else
        udsSay c [0x69, 3, 0x12, 0, 0]
          (evDiag 2 (connMod c (fun x => { x with auth := none, page := b.1, roles := b.2, untimed := u })
            { s with diag.authFails := 0 }))) s

def execProofOfOwnership (conn : Fin 3) (sig : List Byte) (s : State) : Host.Outcome State Fault Refusal :=
  done s (uds conn.val (proof conn.val sig) s)

/-- AUTH_LOCKOUT_EXPIRY. -/
def lockoutEnd (s : State) : State :=
  if expired s s.diag.lockUntil then { s with diag.lockUntil := none, diag.exceeded := false } else s

def execAuthLockoutExpiry (s : State) : Host.Outcome State Fault Refusal := done s (lockoutEnd s)

/-! ### Routine results (R594) -/

def execRoutineResults (conn : Fin 3) (rid : BitVec 16) (s : State) : Host.Outcome State Fault Refusal :=
  done s (uds conn.val (rtResults conn.val rid.toNat) s)

/-! ### Download (R595) -/

/-- REQUEST_DOWNLOAD. DEDUCED, log 105. -/
def downloadOpen (c : Nat) (format addrLen : Byte) (addr size : Nat) (s : State) : State :=
  udsGuard c 0x34 ((connGet s c).session = 2) .image (fun s =>
    if format ≠ 0 || addrLen ≠ 0x44 || addr % 4096 ≠ 0 || addr + size > 67108864 || size = 0 then udsNrc c 0x34 0x31 s
    else if s.diag.download.isSome then udsNrc c 0x34 0x22 s
    else udsSay c [0x74, 0x20, 0x04, 0x02] { s with diag.download := some (addr, size, 0, 1) }) s

def execRequestDownload (conn : Fin 3) (format addrLen : Byte) (addr size : BitVec 32) (s : State) :
    Host.Outcome State Fault Refusal := done s (uds conn.val (downloadOpen conn.val format addrLen addr.toNat size.toNat) s)

/-- Erase the sector that begins at an offset. -/
def sectorErase (off : Nat) (s : State) : State :=
  { s with flash := memSetBytes 0xFF s.flash off (List.replicate 4096 0xFF) }

/-- Program bytes at a flash offset; sectors of the transfer are erased when first reached. -/
def flashProgram (off : Nat) (b : Bytes) (s : State) : State :=
  let firsts := ((List.range (b.length / 4096 + 2)).map (fun i => (off / 4096 + i) * 4096)).filter
    (fun k => off ≤ k && k < off + b.length)
  let s := firsts.foldl (fun s k => sectorErase k s) s
  { s with flash := memSetBytes 0xFF s.flash off b }

/-- TRANSFER_DATA: the block's sectors are erased, programmed and read back (R595). -/
def transfer (c : Nat) (block : Byte) (data : Bytes) (verified : Bool) (s : State) : State :=
  udsGuard c 0x36 ((connGet s c).session = 2) .image (fun s =>
    match s.diag.download with
    | none => udsNrc c 0x36 0x24 s
    | some (off, size, n, next) =>
      if data = [] || data.length > 0x400 then udsNrc c 0x36 0x13 s
      else if n > 0 && block.toNat = (next + 255) % 256 then udsSay c [0x76, block] s
      else if block.toNat ≠ next then udsNrc c 0x36 0x73 s
      else if n + data.length > size then udsNrc c 0x36 0x71 s
      else
        let s := flashProgram (off + n) data s
        if verified then udsSay c [0x76, block] { s with diag.download := some (off, size, n + data.length, (next + 1) % 256) }
        else udsNrc c 0x36 0x72 { s with diag.download := none }) s

def execTransferData (conn : Fin 3) (block : Byte) (data : List Byte) (verified : Bool) (s : State) :
    Host.Outcome State Fault Refusal := done s (uds conn.val (transfer conn.val block data verified) s)

/-- REQUEST_TRANSFER_EXIT. -/
def transferExit (c : Nat) (s : State) : State :=
  udsGuard c 0x37 ((connGet s c).session = 2) .image (fun s =>
    match s.diag.download with
    | none => udsNrc c 0x37 0x24 s
    | some (_, size, n, _) =>
      if n < size then udsNrc c 0x37 0x24 s else udsSay c [0x77] { s with diag.download := none }) s

def execRequestTransferExit (conn : Fin 3) (s : State) : Host.Outcome State Fault Refusal :=
  done s (uds conn.val (transferExit conn.val) s)

end Sys2Proof.Machine
end

