-- ==== Sys2Proof/Machine/Routines.lean ====
section
/-! DEFINITION. The routines of RoutineControl (R593, R594): image verification, learning, credentials, profile, slots, identity,
life cycle, seal, tamper latch and tags. -/

namespace Sys2Proof.Machine

/-- VERIFY_IMAGE: verdict, IMAGE_ID, SEC_VERSION; nothing applied. -/
def verifyImage (c : Nat) (answers : Bool) (s : State) : State :=
  rtStart c 0xF100 true [] (fun s =>
    let h := imHead s
    rtEnd .ok (leBytes 1 (verdict answers [] (headGood s) s) ++ imId h ++ leBytes 2 (imSec h)) s) s

def execVerifyImage (conn : Fin 3) (flashAnswers : Bool) (s : State) : Host.Outcome State Fault Refusal :=
  done s (uds conn.val (verifyImage conn.val flashAnswers) s)

/-- LEARN_KEY: it waits for the outcome of a sequence or round that is open (R407). DESIGN CHOICE, log 68. -/
def learnKey (c : Nat) (record kTag : Bytes) (lock : Byte) (s : State) : State :=
  rtStart c 0xF110 (record.length = 32 && kTag.length = 16) (record ++ kTag ++ [lock]) rtResume s

def execLearnKey (conn : Fin 3) (record : List Byte) (kTag : List Byte) (lock : Byte) (s : State) :
    Host.Outcome State Fault Refusal := done s (uds conn.val (learnKey conn.val record kTag lock) s)

/-- The state of a credential changes; a deletion or suspension withdraws the session it granted (R395, R406). -/
def credStateBody (i st : Nat) (s : State) : State :=
  if learnLocked s then rtEnd .locked [] s
  else if st > 2 then rtEnd .badEntry [] s
  else
    let c := { credGet s i with st := st }
    let w := recWrite false (0x100 + i) (credBytes i c) s
    match w.1 with
    | .ok _ _ =>
      let s := credMod i (fun _ => c) w.2
      rtEnd .ok [] (if st ≠ 1 && s.acc.sessOpen && s.acc.grantCred = i then withdraw s else s)
    | .lowEnergy => rtEnd .lowEnergy [] w.2
    | .eccError => rtEnd .eccError [] w.2

/-- CRED_STATE. DESIGN CHOICE, log 86. -/
def credState (c i st : Nat) (s : State) : State := rtStart c 0xF111 true (leBytes 1 i ++ leBytes 1 st) (rtNvm (credStateBody i st)) s

def execCredState (conn : Fin 3) (index : Fin 256) (state : Byte) (s : State) : Host.Outcome State Fault Refusal :=
  done s (uds conn.val (credState conn.val index.val state.toNat) s)

/-- The profile record is checked and stored (R376, R377). -/
def profileBody (p : Bytes) (s : State) : State :=
  if learnLocked s then rtEnd .locked [] s
  else if !profileRecordOk s p then rtEnd .badEntry [] s
  else
    let w := recWrite false 0x1 p s
    match w.1 with
    | .ok _ _ => rtEnd .ok [] { w.2 with acc.profile := p }
    | .lowEnergy => rtEnd .lowEnergy [] w.2
    | .eccError => rtEnd .eccError [] w.2

/-- WRITE_PROFILE. -/
def writeProfile (c : Nat) (p : Bytes) (s : State) : State :=
  rtStart c 0xF112 (p.length = 104) p (rtNvm (profileBody p)) s

def execWriteProfile (conn : Fin 3) (record : List Byte) (s : State) : Host.Outcome State Fault Refusal :=
  done s (uds conn.val (writeProfile conn.val record) s)

/-- A routine that ends with the status of an operation. -/
def rtOp (f : State → Status × State) (s : State) : State :=
  let r := f s
  rtEnd r.1 [] r.2

/-- A slot routine's operation; only a persistent slot's waits for NVM writes. -/
def slotBody (n : Nat) (f : State → Status × State) (s : State) : State := if n < 56 then rtNvm (rtOp f) s else rtOp f s

/-- SLOT_WRITE from its option record: slot, attributes, expected generation, key (R593). -/
def slotWriteBody (o : Bytes) : State → State :=
  slotBody (u8 o 0) (fun s => slotOp (keyPage s) (u8 o 0) true (some (BitVec.ofNat 32 (u32 o 1))) (u16 o 5)
    (some (BitVec.ofNat 256 (beNat (o.drop 7)))) s)

/-- SLOT_WRITE. -/
def slotWrite (c n : Nat) (attr : BitVec 32) (gen : Nat) (key : Bytes) (s : State) : State :=
  let o := leBytes 1 n ++ leBytes 4 attr.toNat ++ leBytes 2 gen ++ key
  rtStart c 0xF120 (key.length = 32) o (slotWriteBody o) s

def execSlotWrite (conn : Fin 3) (slot : Fin 64) (attr : Word) (gen : BitVec 16) (key : List Byte) (s : State) :
    Host.Outcome State Fault Refusal := done s (uds conn.val (slotWrite conn.val slot.val attr gen.toNat key) s)

/-- SLOT_GENERATE; it waits while the generator can only wait. -/
def slotGenerate (c n : Nat) (attr : BitVec 32) (gen : Nat) (s : State) : State :=
  rtStart c 0xF121 true (leBytes 1 n ++ leBytes 4 attr.toNat ++ leBytes 2 gen) rtResume s

def execSlotGenerate (conn : Fin 3) (slot : Fin 64) (attr : Word) (gen : BitVec 16) (s : State) :
    Host.Outcome State Fault Refusal := done s (uds conn.val (slotGenerate conn.val slot.val attr gen.toNat) s)

/-- SLOT_ERASE from its option record. -/
def slotEraseBody (o : Bytes) : State → State :=
  slotBody (u8 o 0) (fun s => slotOp (keyPage s) (u8 o 0) true none (u16 o 1) none s)

/-- SLOT_ERASE. -/
def slotErase (c n gen : Nat) (s : State) : State :=
  let o := leBytes 1 n ++ leBytes 2 gen
  rtStart c 0xF122 true o (slotEraseBody o) s

def execSlotErase (conn : Fin 3) (slot : Fin 64) (gen : BitVec 16) (s : State) : Host.Outcome State Fault Refusal :=
  done s (uds conn.val (slotErase conn.val slot.val gen.toNat) s)

/-- IDENTITY_WRITE: an RSA-4096 key in CRT form and a certificate of at most 2,048 bytes; with the tamper latch set, LOCKED
(R617). -/
def identityBody (k : CrtKey) (cert : Bytes) (s : State) : State :=
  if s.tmp.latch then rtEnd .locked [] s
  else if cert.length > 2048 || [k.p, k.q, k.dP, k.dQ, k.qInv].any (fun x => decide (x ≥ 2 ^ 2048)) then rtEnd .badEntry [] s
  else rtOp (identityWrite true k cert) s

/-- The option record of IDENTITY_WRITE: the five numbers of the key, 257 bytes each so that one out of range shows, and the
certificate. -/
def crtBytes (k : CrtKey) : Bytes := [k.p, k.q, k.dP, k.dQ, k.qInv].flatMap (fun x => beBytes 257 (min x (2 ^ 2048)))

/-- The key of such a record. -/
def crtOf (o : Bytes) : CrtKey :=
  let f (i : Nat) : Nat := beNat (sl o (257 * i) 257)
  { p := f 0, q := f 1, dP := f 2, dQ := f 3, qInv := f 4 }

/-- IDENTITY_WRITE. -/
def identityRoutine (c : Nat) (k : CrtKey) (cert : Bytes) (s : State) : State :=
  rtStart c 0xF130 true (crtBytes k ++ cert) (rtNvm (identityBody k cert)) s

def execIdentityWrite (conn : Fin 3) (key : CrtKey) (cert : List Byte) (s : State) : Host.Outcome State Fault Refusal :=
  done s (uds conn.val (identityRoutine conn.val key cert) s)

/-- A committed transition keeps its routine running until LCR ends it with everything else (R485). -/
def transitionBody (target : Nat) (s : State) : State :=
  let r := lcTransition (if s.ks.lc == .field then 6 else 7) target true s
  if r.1 == .ok then rtSetStep 1 r.2 else rtEnd r.1 [] r.2

/-- LC_TRANSITION. -/
def transitionRoutine (c target : Nat) (s : State) : State := rtStart c 0xF140 true [] (transitionBody target) s

def execLcTransition (conn : Fin 3) (target : Byte) (s : State) : Host.Outcome State Fault Refusal :=
  done s (uds conn.val (transitionRoutine conn.val target.toNat) s)

/-- DEBUG_SEAL. DESIGN CHOICE, log 112. -/
def sealRoutine (c : Nat) (s : State) : State := rtStart c 0xF141 true [] (rtOp (debugSeal true)) s

def execDebugSeal (conn : Fin 3) (s : State) : Host.Outcome State Fault Refusal := done s (uds conn.val (sealRoutine conn.val) s)

/-- TAMPER_CLEAR. -/
def tamperRoutine (c : Nat) (s : State) : State := rtStart c 0xF150 true [] (rtOp (tamperUnlatch true)) s

def execTamperClear (conn : Fin 3) (s : State) : Host.Outcome State Fault Refusal := done s (uds conn.val (tamperRoutine conn.val) s)

/-! ### Tags (R290, R594) -/

/-- An ID in transmission order with a page. -/
def tagOpt (id : BitVec 64) (page : Byte) : Bytes := beBytes 8 id.toNat ++ [page]

/-- TAG_INVENTORY. -/
def tagInventory (c : Nat) (s : State) : State := rtStart c 0xF160 true [] rtResume s

def execTagInventory (conn : Fin 3) (s : State) : Host.Outcome State Fault Refusal := done s (uds conn.val (tagInventory conn.val) s)

/-- TAG_READ: page 1 is never read over the field. -/
def tagRead (c : Nat) (id : BitVec 64) (page : Byte) (s : State) : State :=
  rtStart c 0xF161 true (tagOpt id page) (fun s => if page = 1 then rtEnd .ok [1] s else rtResume s) s

def execTagRead (conn : Fin 3) (id : BitVec 64) (page : Byte) (s : State) : Host.Outcome State Fault Refusal :=
  done s (uds conn.val (tagRead conn.val id page) s)

/-- TAG_WRITE: pages 2 to 31; page 1 answers `TC_ACCESS`. -/
def tagWrite (c : Nat) (id : BitVec 64) (page : Byte) (data : Bytes) (s : State) : State :=
  rtStart c 0xF162 (data.length = 16) (tagOpt id page ++ data) (fun s =>
    if learnLocked s then rtEnd .locked [] s
    else if page = 1 then rtEnd .ok [1] s
    else if page.toNat < 2 || page.toNat > 31 then rtEnd .badEntry [] s
    else rtResume s) s

def execTagWrite (conn : Fin 3) (id : BitVec 64) (page : Byte) (data : List Byte) (s : State) :
    Host.Outcome State Fault Refusal := done s (uds conn.val (tagWrite conn.val id page data) s)

/-- TAG_LOCK. -/
def tagLock (c : Nat) (id : BitVec 64) (page : Byte) (s : State) : State :=
  rtStart c 0xF163 true (tagOpt id page) (fun s =>
    if learnLocked s then rtEnd .locked [] s else rtResume s) s

def execTagLock (conn : Fin 3) (id : BitVec 64) (page : Byte) (s : State) : Host.Outcome State Fault Refusal :=
  done s (uds conn.val (tagLock conn.val id page) s)

/-! ### Routines that waited for NVM writes (R104) -/

/-- Once the VHOLD measurement has ended, a routine that waited for it runs from its option record. -/
def rtWrites (s : State) : State :=
  match s.diag.routine with
  | none => s
  | some r =>
    let o := r.opt
    if !r.running || r.step ≠ 0 || !s.sup.measured then s
    else if r.rid = 0xF111 then credStateBody (u8 o 0) (u8 o 1) s
    else if r.rid = 0xF112 then profileBody o s
    else if r.rid = 0xF120 then slotWriteBody o s
    else if r.rid = 0xF122 then slotEraseBody o s
    else if r.rid = 0xF130 then identityBody (crtOf o) (o.drop 1285) s
    else s

end Sys2Proof.Machine
end

