-- ==== Sys2Proof/Machine/Doip.lean ====
section
/-! DEFINITION. DoIP (R586, R589, R600): routing activation, vehicle identification and announcement, alive check, entity status,
power mode, and the close of a connection. The layouts are ISO 13400-2:2019's. -/

namespace Sys2Proof.Machine

/-- A DoIP message: protocol version 3, payload type, length. -/
def doipMsg (type : Nat) (pay : Bytes) : Bytes := [0x03, 0xFC] ++ beBytes 2 type ++ beBytes 4 pay.length ++ pay

/-- A UDP message of the entity. -/
def doipOut (m : Bytes) (s : State) : State := { s with diag.out := m }

/-! ### Routing activation -/

/-- Response code: unknown source address, unsupported type, another address on this socket, the address on another socket,
success. -/
def routingCode (s : State) (c tester kind : Nat) : Nat :=
  let x := connGet s c
  let o := connGet s (1 - c)
  if tester < 0x0E00 || tester > 0x0FFF then 0x00
  else if kind ≠ 0 then 0x06
  else if x.active && x.tester ≠ tester then 0x02
  else if o.active && o.tester = tester then 0x03
  else 0x10

/-- ROUTING_ACTIVATION. -/
def routingActivation (c tester kind : Nat) (s : State) : State :=
  if !aspOn s then s
  else
    let code := routingCode s c tester kind
    let s := connMod c (fun x => { x with
      resp := doipMsg 0x0006 (beBytes 2 tester ++ beBytes 2 (dgLa (diagSec s)) ++ leBytes 1 code ++ [0, 0, 0, 0]) }) s
    if code = 0x10 then connMod c (fun x => { x with active := true, tester := tester, seen := s.elapsed }) s else s

def execRoutingActivation (conn : Fin 2) (tester : BitVec 16) (kind : Byte) (s : State) :
    Host.Outcome State Fault Refusal := done s (routingActivation conn.val tester.toNat kind.toNat s)

/-- ALIVE_CHECK on an active connection. -/
def aliveCheck (c : Nat) (s : State) : State :=
  if !aspOn s || !(connGet s c).active then s
  else connMod c (fun x => { x with resp := doipMsg 0x0008 (beBytes 2 x.tester), seen := s.elapsed }) s

def execAliveCheck (conn : Fin 2) (s : State) : Host.Outcome State Fault Refusal := done s (aliveCheck conn.val s)

/-- DOIP_CONNECTION_CLOSE: the default session, and results go; a routine that runs goes on without its connection (R600). -/
def doipClose (c : Nat) (s : State) : State :=
  if !(connGet s c).active then s
  else
    let s := sessionDefault c s
    let s := { s with
      diag.conns := vset s.diag.conns c Conn.reset
      diag.routine := match s.diag.routine with
        | some r => if r.conn ≠ c then some r else if r.running then some { r with conn := 3 } else none
        | none => none }
    { s with diag.cur := if s.diag.cur = c then 3 else s.diag.cur }

def execDoipConnectionClose (conn : Fin 2) (s : State) : Host.Outcome State Fault Refusal := done s (doipClose conn.val s)

/-! ### Vehicle identification, status -/

/-- Vehicle identification: VIN, logical address, EID and GID, no further action (R586). -/
def vehicleId (s : State) : Bytes :=
  let mac := nwDevMac (netSec s)
  doipMsg 0x0004 ((didConst s 0xF190).getD (List.replicate 17 0xFF) ++ beBytes 2 (dgLa (diagSec s)) ++ mac ++ mac ++ [0])

def execVehicleIdentificationRequest (s : State) : Host.Outcome State Fault Refusal :=
  done s (if aspOn s then doipOut (vehicleId s) s else s)

/-- VEHICLE_ANNOUNCEMENT: broadcast on UDP port 13400 (R586). -/
def announce (s : State) : State :=
  if aspOn s then doipOut (vehicleId s) (udpSend 0xFFFFFFFFFFFF 0xFFFFFFFF 13400 13400 (vehicleId s) s) else s

def execVehicleAnnouncement (s : State) : Host.Outcome State Fault Refusal := done s (announce s)

/-- Entity status: a node, two TCP connections, those open, 4,096 bytes (R586). -/
def entityStatus (s : State) : Bytes :=
  doipMsg 0x4002 ([1, 2] ++ leBytes 1 (b2n (connGet s 0).active + b2n (connGet s 1).active) ++ beBytes 4 4096)

def execEntityStatusRequest (s : State) : Host.Outcome State Fault Refusal :=
  done s (if aspOn s then doipOut (entityStatus s) s else s)

/-- Power mode: ready, since the entity answers in Run alone. -/
def powerMode : Bytes := doipMsg 0x4004 [1]

def execPowerModeInformationRequest (s : State) : Host.Outcome State Fault Refusal :=
  done s (if aspOn s then doipOut powerMode s else s)

end Sys2Proof.Machine
end

