-- ==== Sys2Proof/Machine/Pairs.lean ====
section
/-! DEFINITION. Processing pairs and SECDED memories (R25, R428, R429, R603 to R612): checkpoints, takeovers, watchdogs, the spare
and the scrub. -/

namespace Sys2Proof.Machine

/-- The code of a role (R619). -/
def roleCode : ActiveRole → Nat
  | .a => 0
  | .b => 1

/-- The pair of a role runs: in Run, pair B not in ride-through; pair A in Heath events; both from step 5 of start-up
(R74, R127, R604). DEDUCED, log 50. -/
def pairOn (s : State) (r : Nat) : Bool :=
  hasRole s r && (match s.pwr.st with
    | .run => r = 0 || s.sup.region != .ride
    | .heath => r = 0 && heathServing s
    | .startUp => decide (s.boot.step ≥ 5)
    | .fallow => false
    | .waitNoPair => false)

/-- Ring n is fed by the pair of a role (R428). -/
def fedBy (r n : Nat) (x : Ring) : Bool := if r = 0 then decide (n < 4) else x.fedB

/-- Change the rings a pair feeds. -/
def fedRings (r : Nat) (f : Ring → Ring) (s : State) : State :=
  { s with job.rings := Vector.ofFn (fun (i : Fin 32) =>
      let x := vget s.job.rings i.val Ring.reset
      if fedBy r i.val x then f x else x) }

/-- Indices of the rings a pair feeds, with CQ_CI and the expected SEQ_NO (R428). -/
def ckptRings (r : Nat) (s : State) : List (Nat × BitVec 16 × Option (BitVec 32)) :=
  (List.range 32).filterMap (fun n =>
    let x := ringGet s n
    if fedBy r n x then some (n, x.cqCi, x.expect) else none)

/-- CHECKPOINT_WRITE: the pair's region holds its last two checkpoints (R23); one holds the latch, the decisions, operation tags and
messages since the one before, and its rings' CQ_CI and SEQ_NO, which the engine may then use (R25, R36, R428, R606). -/
def checkpoint (r : Nat) (s : State) : State :=
  if !pairOn s r then s
  else
    let c (m : CkptRegion) : Ckpt :=
      { number := vget s.flt.ckpts r 0, latch := s.permit.latch, rings := ckptRings r s, items := m.items }
    fedRings r (fun x => { x with cqCiCkpt := x.cqCi }) { s with
      flt.mem := vmod s.flt.mem r (fun m => { last := (c m :: m.last).take 2, items := [] }),
      flt.ckpts := vmod s.flt.ckpts r (· + 1) }

def execCheckpointWrite (role : ActiveRole) (s : State) : Host.Outcome State Fault Refusal := done s (checkpoint (roleCode role) s)

/-! ### Faults of pairs (R603 to R609) -/

/-- Physical pair that holds a role. -/
def physOf (s : State) (r : Nat) : Nat := (s.flt.role.toList.findIdx? (· == r)).getD 0

/-- WFR with its DTC (R603). -/
def watchdogReset (s : State) : State := resetTo .wfr (dtc 0xB78020 s)

/-- CQ_CI of a ring in a region's last checkpoint; without one, the value the engine holds as checkpointed (R429). -/
def ckptCi (m : CkptRegion) (n : Nat) (x : Ring) : BitVec 16 :=
  match m.last with
  | c :: _ => ((c.rings.find? (fun y => y.1 = n)).map (·.2.1)).getD x.cqCiCkpt
  | [] => x.cqCiCkpt

/-- The job engine rewinds CQ_CI of the role's rings to its last checkpoint (R429). -/
def ringsRewind (r : Nat) (s : State) : State :=
  let m := vget s.flt.mem r { last := [], items := [] }
  { s with job.rings := Vector.ofFn (fun (i : Fin 32) =>
      let x := vget s.job.rings i.val Ring.reset
      if fedBy r i.val x then { x with cqCi := ckptCi m i.val x } else x) }

/-- Takeover of a role by the spare (R607, R610): rings rewound, the failed pair under retest; the latch and the region stay as they
are (R36). DESIGN CHOICE, log 51. -/
def takeover (r cause delay : Nat) (s : State) : State :=
  let p := physOf s r
  let q := physOf s 2
  let f := s.flt
  evFlt 0 (ringsRewind r { s with flt := { f with
    role := vset (vset f.role q r) p 3, spare := false, retest := some p, hits := vmod f.hits p (· + 1),
    count := satInc 255 f.count, lastRole := r, lastCause := cause, lastDelay := min 65535 delay } })

/-- A fault of an active pair: a takeover when a spare is ready, WFR otherwise. -/
def pairFault (r cause delay : Nat) (s : State) : State := if s.flt.spare then takeover r cause delay s else watchdogReset s

/-- LOCKSTEP_MISMATCH. -/
def lockstep (r delay : Nat) (s : State) : State := if pairOn s r then pairFault r 0 delay s else s

def execLockstepMismatch (role : ActiveRole) (delayNs : Nat) (s : State) : Host.Outcome State Fault Refusal :=
  done s (lockstep (roleCode role) delayNs s)

/-- PAIR_MEMORY_ERROR (R611). -/
def pairMemory (r off delay : Nat) (s : State) : State := if pairOn s r then pairFault r 1 delay (eccBad 4 off s) else s

def execPairMemoryError (role : ActiveRole) (offset : BitVec 24) (delayNs : Nat) (s : State) : Host.Outcome State Fault Refusal :=
  done s (pairMemory (roleCode role) offset.toNat delayNs s)

/-- PAIR_B_WATCHDOG. -/
def watchdogB (delay : Nat) (s : State) : State := if pairOn s 1 then pairFault 1 2 delay (evFlt 3 s) else s

def execPairBWatchdog (delayNs : Nat) (s : State) : Host.Outcome State Fault Refusal := done s (watchdogB delayNs s)

/-- PAIR_A_WATCHDOG. -/
def watchdogA (s : State) : State := if pairOn s 0 then watchdogReset s else s

def execPairAWatchdog (s : State) : Host.Outcome State Fault Refusal := done s (watchdogA s)

/-- CHECKPOINT_MEMORY_ERROR: powered with any pair (R604, R611). -/
def checkpointError (off : Nat) (s : State) : State :=
  if pairOn s 0 || pairOn s 1 then watchdogReset (eccBad 5 off s) else s

def execCheckpointMemoryError (offset : BitVec 24) (s : State) : Host.Outcome State Fault Refusal :=
  done s (checkpointError offset.toNat s)

/-- A physical pair is out: event and DTC. -/
def pairOut (p : Nat) (s : State) : State :=
  dtc (0xB78000 + p) (evFlt 1 { s with flt.role := vset s.flt.role p 3 })

/-- SPARE_SELF_TEST_FAIL: pair S runs its self-test while it is powered (R74). -/
def spareFail (s : State) : State :=
  if !hasRole s 2 || !isRun s then s else pairOut (physOf s 2) { s with flt.spare := false }

def execSpareSelfTestFail (s : State) : Host.Outcome State Fault Refusal := done s (spareFail s)

/-- RETEST_COMPLETE: the pair becomes the spare, or is out when it failed or this was its second takeover (R610). -/
def retestDone (passed : Bool) (s : State) : State :=
  match s.flt.retest with
  | none => s
  | some p =>
    if !isRun s then s
    else
      let s := { s with flt.retest := none }
      if passed && vget s.flt.hits p 0 < 2 then
        evFlt 2 { s with flt.role := vset s.flt.role p 2, flt.spare := true }
      else pairOut p s

def execRetestComplete (passed : Bool) (s : State) : Host.Outcome State Fault Refusal := done s (retestDone passed s)

/-! ### The scrub (R611, R612, R620) -/

/-- LAST_MEM code of a memory. -/
def memCode : EccMem → Nat
  | .ringArrays => 0 | .readOnly => 1 | .otherSystem => 2 | .packet => 3 | .pair => 4 | .checkpoint => 5 | .sec => 6 | .aon => 7

/-- Count a correction at an address. -/
def stuckAdd (m off : Nat) : List (Nat × Nat × Nat) → List (Nat × Nat × Nat)
  | [] => [(m, off, 1)]
  | x :: r => if x.1 = m && x.2.1 = off then (m, off, x.2.2 + 1) :: r else x :: stuckAdd m off r

/-- Corrections counted at an address. -/
def stuckCount (m off : Nat) (l : List (Nat × Nat × Nat)) : Nat :=
  ((l.find? (fun x => x.1 = m && x.2.1 = off)).map (·.2.2)).getD 0

/-- One word is corrected; the third time at one address is reported. DEDUCED, log 52. -/
def scrubCorrect (m off : Nat) (s : State) : State :=
  let s := evFlt 4 { s with flt.corrected := satInc 65535 s.flt.corrected, flt.stuck := stuckAdd m off s.flt.stuck }
  if stuckCount m off s.flt.stuck = 3 then dtc 0xB78040 (evFlt 6 s) else s

/-- A field in AON retention takes its reset value (R611). -/
def keptReset (f : KeptField) (s : State) : State :=
  match f with
  | .supplyEvents => { s with sup.evt := 0 }
  | .wakeSources => { s with pwr.wakeSrc := 0 }
  | .timeEvents => { s with clk.evt := 0 }
  | .lastStep => { s with clk.lastStep := 0 }
  | .timetableEvents => { s with tt.evt := 0 }
  | .lfEvents => { s with lf.evt := 0 }
  | .keyLinkEvents => { s with kl.evt := 0 }
  | .uhfEvents => { s with uhf.evt := 0 }
  | .wrxCounts n => { s with uhf.wrx := vmod s.uhf.wrx n.val (fun w => { w with hits := 0, followLost := 0 }) }
  | .locationEvents => { s with loc.evt := 0 }
  | .accessEvents => { s with acc.evt := 0 }
  | .accessLast => { s with acc.lastKind := 0, acc.keyInside := false, acc.lastCred := 255, acc.lastStatus := .ok, acc.lastCmd := 0 }
  | .accessSession => { s with acc.session := 0 }
  | .accessToken => { s with acc.tokenSeq := 0 }
  | .cipherEvents => { s with cip.aesEvt := 0 }
  | .cipherFaults => { s with cip.faults := 0 }
  | .hashEvents => { s with cip.hpkEvt := 0 }
  | .randomEvents => { s with rng.evt := 0 }
  | .randomCounts => { s with rng.reseeds := 0, rng.failures := 0 }
  | .keyStoreEvents => { s with ks.evt := 0 }
  | .memoryEvents => { s with nvm.evt := 0 }
  | .memoryHealth => { s with nvm.maxWear := 0, nvm.corrections := 0 }
  | .tamperEvents => { s with tmp.evt := 0 }
  | .switchEvents => { s with sw.evt := 0 }
  | .canEvents n => { s with can := vmod s.can n.val (fun c => { c with evt := 0 }) }
  | .diagEvents => { s with diag.evt := 0 }
  | .faultEvents => { s with flt.evt := 0 }
  | .scratch n => { s with spi.scratch := vset s.spi.scratch n.val 0 }

/-- An operation ends with ECC_ERROR and is no longer the engine's (R441, R611). -/
def eccJob (p : Op → Bool) (s : State) : State := endOps p .eccError s

/-- An uncorrectable word: its memory's code, and what follows (R430, R611). A word with a good copy is restored from it. The delay
of the takeover is the caller's. DESIGN CHOICE, log 128. -/
def scrubLost (f : EccFind) (off : Nat) (s : State) : State :=
  match f with
  | .corrected m => scrubCorrect (memCode m) off s
  | .ringArray n => evJob 0 (ringMod n.val (fun r => { r with stopped := true }) (eccBad 0 off s))
  | .copy => eccBad 1 off s
  | .bothCopies r => if pairOn s (roleCode r) then pairFault (roleCode r) 3 0 (eccBad 1 off s) else eccBad 1 off s
  | .buffer t => eccJob (fun o => t.any (fun x => x.val = o.tag)) (eccBad 2 off s)
  | .frame p c => queueTake p.val c.val (fun _ => true) (eccBad 3 off s)
  | .slot n => eccJob (fun o => usesSlot o.desc && dsSlot o.desc = 56 + n.val) (slotVoid (56 + n.val) (eccBad 6 off s))
  | .holding p => eccJob (fun o => o.page = p.val && dsKind o.desc = 1) (pageMod p.val gateZero (eccBad 6 off s))
  | .context t => eccJob (fun o => o.tag = t.val && dsKind o.desc = 2) (eccBad 6 off s)
  | .kept k => evFlt 5 (keptReset k (eccBad 7 off s))

/-- ECC_SCRUB: Run's scrub reads one word (R612). -/
def scrub (f : EccFind) (off : Nat) (s : State) : State := if !isRun s then s else scrubLost f off s

def execEccScrub (find : EccFind) (offset : BitVec 24) (s : State) : Host.Outcome State Fault Refusal :=
  done s (scrub find offset.toNat s)

end Sys2Proof.Machine
end

