-- ==== Sys2Proof/Machine/Dispatch.lean ====
section
/-! DEFINITION. One arm per command: its meaning, or a refusal by its mnemonic. -/

namespace Sys2Proof.Machine

def exec (i : Instr) (s : State) : Host.Outcome State Fault Refusal :=
  match i with
  | .vbatCrankHoldEntry mv => Sys2Proof.Machine.execVbatCrankHoldEntry mv s
  | .vbatCrankHoldExit mv => Sys2Proof.Machine.execVbatCrankHoldExit mv s
  | .vioLowShed mv => Sys2Proof.Machine.execVioLowShed mv s
  | .rideThroughEntry mv vholdMv => Sys2Proof.Machine.execRideThroughEntry mv vholdMv s
  | .rideThroughExit mv => Sys2Proof.Machine.execRideThroughExit mv s
  | .tHoldExpiry => Sys2Proof.Machine.execTHoldExpiry s
  | .vholdBelowVHmin vholdMv => Sys2Proof.Machine.execVholdBelowVHmin vholdMv s
  | .vbatPermitDeny mv => Sys2Proof.Machine.execVbatPermitDeny mv s
  | .overvoltageEntry mv => Sys2Proof.Machine.execOvervoltageEntry mv s
  | .overvoltageExit mv => Sys2Proof.Machine.execOvervoltageExit mv s
  | .thermWarn tj => Sys2Proof.Machine.execThermWarn tj s
  | .thermDerate tj => Sys2Proof.Machine.execThermDerate tj s
  | .thermOff tj => Sys2Proof.Machine.execThermOff tj s
  | .thermReset tj => Sys2Proof.Machine.execThermReset tj s
  | .thermResponseWithdraw tj => Sys2Proof.Machine.execThermResponseWithdraw tj s
  | .spOutputReadback spaHigh spbLow spaLimit spbLimit => Sys2Proof.Machine.execSpOutputReadback spaHigh spbLow spaLimit spbLimit s
  | .vdrvConverterStart => Sys2Proof.Machine.execVdrvConverterStart s
  | .vdrvConverterStop => Sys2Proof.Machine.execVdrvConverterStop s
  | .vdrvWindowTimeout entry => Sys2Proof.Machine.execVdrvWindowTimeout entry s
  | .powerOnReset vbatMv vholdMv => Sys2Proof.Machine.execPowerOnReset vbatMv vholdMv s
  | .nrstExternalLow lowNs => Sys2Proof.Machine.execNrstExternalLow lowNs s
  | .sysResetCmd page word => Sys2Proof.Machine.execSysResetCmd page word s
  | .startUp env => Sys2Proof.Machine.execStartUp env s
  | .rngFirstSeed => Sys2Proof.Machine.execRngFirstSeed s
  | .vholdMeasurementComplete chargeNs => Sys2Proof.Machine.execVholdMeasurementComplete chargeNs s
  | .vholdMeasurementTimeout => Sys2Proof.Machine.execVholdMeasurementTimeout s
  | .retainedSettingsWrite vholdMv => Sys2Proof.Machine.execRetainedSettingsWrite vholdMv s
  | .noPairRetry => Sys2Proof.Machine.execNoPairRetry s
  | .pwrRequestHeath page key => Sys2Proof.Machine.execPwrRequestHeath page key s
  | .pwrRequestFallow page key => Sys2Proof.Machine.execPwrRequestFallow page key s
  | .pwrRequestCancel page key => Sys2Proof.Machine.execPwrRequestCancel page key s
  | .idleToHeathExpiry => Sys2Proof.Machine.execIdleToHeathExpiry s
  | .enterHeath => Sys2Proof.Machine.execEnterHeath s
  | .enterFallow => Sys2Proof.Machine.execEnterFallow s
  | .heathToFallowExpiry => Sys2Proof.Machine.execHeathToFallowExpiry s
  | .wakePinEdge pin rising env => Sys2Proof.Machine.execWakePinEdge pin rising env s
  | .wakeDebounceEnd pin held => Sys2Proof.Machine.execWakeDebounceEnd pin held s
  | .fallowVbatWake env => Sys2Proof.Machine.execFallowVbatWake env s
  | .syncReceive dom originNs correction => Sys2Proof.Machine.execSyncReceive dom originNs correction s
  | .announceReceive dom gm steps path => Sys2Proof.Machine.execAnnounceReceive dom gm steps path s
  | .pdelayExchangeComplete port t2 t3 c2 c3 => Sys2Proof.Machine.execPdelayExchangeComplete port t2 t3 c2 c3 s
  | .pdelayRequestTransmit port => Sys2Proof.Machine.execPdelayRequestTransmit port s
  | .syncReceiptTimeout dom => Sys2Proof.Machine.execSyncReceiptTimeout dom s
  | .suspectHoldExpiry dom => Sys2Proof.Machine.execSuspectHoldExpiry dom s
  | .syncTransmit dom => Sys2Proof.Machine.execSyncTransmit dom s
  | .holdoverBinLearn tempC => Sys2Proof.Machine.execHoldoverBinLearn tempC s
  | .rtcTrim cycles ticks => Sys2Proof.Machine.execRtcTrim cycles ticks s
  | .tpoArm page n word => Sys2Proof.Machine.execTpoArm page n word s
  | .tpoFire n => Sys2Proof.Machine.execTpoFire n s
  | .timNowLoRead page => Sys2Proof.Machine.execTimNowLoRead page s
  | .entryPreparation entry => Sys2Proof.Machine.execEntryPreparation entry s
  | .entryDue entry => Sys2Proof.Machine.execEntryDue entry s
  | .entryWaitEnd entry => Sys2Proof.Machine.execEntryWaitEnd entry s
  | .frameLaunch entry => Sys2Proof.Machine.execFrameLaunch entry s
  | .lfFrameComplete entry env => Sys2Proof.Machine.execLfFrameComplete entry env s
  | .scanPatternStart entry env => Sys2Proof.Machine.execScanPatternStart entry env s
  | .scanComplete entry => Sys2Proof.Machine.execScanComplete entry s
  | .pingComplete entry re im => Sys2Proof.Machine.execPingComplete entry re im s
  | .lfChannelShort ch kind => Sys2Proof.Machine.execLfChannelShort ch kind s
  | .lfChannelRetest ch clean zMag => Sys2Proof.Machine.execLfChannelRetest ch clean zMag s
  | .roundEnd => Sys2Proof.Machine.execRoundEnd s
  | .rxWindowComplete entry telegrams peakRssi => Sys2Proof.Machine.execRxWindowComplete entry telegrams peakRssi s
  | .txWindowComplete entry => Sys2Proof.Machine.execTxWindowComplete entry s
  | .rangingComplete entry env => Sys2Proof.Machine.execRangingComplete entry env s
  | .wrxMatch n chips => Sys2Proof.Machine.execWrxMatch n chips s
  | .wrxWindowEnd n => Sys2Proof.Machine.execWrxWindowEnd n s
  | .trxSleepTimeout n => Sys2Proof.Machine.execTrxSleepTimeout n s
  | .calTemperatureRead tempC => Sys2Proof.Machine.execCalTemperatureRead tempC s
  | .uhfCalStart n band => Sys2Proof.Machine.execUhfCalStart n band s
  | .uhfCalComplete n failed => Sys2Proof.Machine.execUhfCalComplete n failed s
  | .trxLockTimeout n relocked => Sys2Proof.Machine.execTrxLockTimeout n relocked s
  | .uhfCalCmd page word => Sys2Proof.Machine.execUhfCalCmd page word s
  | .queuedTriggerStart => Sys2Proof.Machine.execQueuedTriggerStart s
  | .fusion vholdMv => Sys2Proof.Machine.execFusion vholdMv s
  | .wakeFrameRepeat => Sys2Proof.Machine.execWakeFrameRepeat s
  | .tokenSlot => Sys2Proof.Machine.execTokenSlot s
  | .tokenLoss => Sys2Proof.Machine.execTokenLoss s
  | .holdExpiry => Sys2Proof.Machine.execHoldExpiry s
  | .resyncCandidateExpiry cred => Sys2Proof.Machine.execResyncCandidateExpiry cred s
  | .ringPiWrite page ring pi => Sys2Proof.Machine.execRingPiWrite page ring pi s
  | .ringEnable page ring cfg => Sys2Proof.Machine.execRingEnable page ring cfg s
  | .ringDisable page ring cfg => Sys2Proof.Machine.execRingDisable page ring cfg s
  | .ringCqCiWrite page ring ci => Sys2Proof.Machine.execRingCqCiWrite page ring ci s
  | .descriptorFetch ring eccError => Sys2Proof.Machine.execDescriptorFetch ring eccError s
  | .operationComplete tag eccError => Sys2Proof.Machine.execOperationComplete tag eccError s
  | .aesBlockJob tag blocks => Sys2Proof.Machine.execAesBlockJob tag blocks s
  | .aesJobResume tag blocks => Sys2Proof.Machine.execAesJobResume tag blocks s
  | .gateJob tag => Sys2Proof.Machine.execGateJob tag s
  | .cpgGateClear page word => Sys2Proof.Machine.execCpgGateClear page word s
  | .cipherParityError => Sys2Proof.Machine.execCipherParityError s
  | .hashJob tag => Sys2Proof.Machine.execHashJob tag s
  | .rsaVerify tag => Sys2Proof.Machine.execRsaVerify tag s
  | .rsaVerifyDigest tag => Sys2Proof.Machine.execRsaVerifyDigest tag s
  | .attest tag => Sys2Proof.Machine.execAttest tag s
  | .certRead tag => Sys2Proof.Machine.execCertRead tag s
  | .randomFill tag => Sys2Proof.Machine.execRandomFill tag s
  | .nvmRecordRead tag => Sys2Proof.Machine.execNvmRecordRead tag s
  | .nvmRecordWrite tag vholdMv verify1 verify2 => Sys2Proof.Machine.execNvmRecordWrite tag vholdMv verify1 verify2 s
  | .ctrRead tag => Sys2Proof.Machine.execCtrRead tag s
  | .ctrInc tag vholdMv => Sys2Proof.Machine.execCtrInc tag vholdMv s
  | .ctrAdvance tag vholdMv => Sys2Proof.Machine.execCtrAdvance tag vholdMv s
  | .lfFrameJob tag => Sys2Proof.Machine.execLfFrameJob tag s
  | .uhfExchangeJob tag => Sys2Proof.Machine.execUhfExchangeJob tag s
  | .rangingJob tag => Sys2Proof.Machine.execRangingJob tag s
  | .solverJob tag => Sys2Proof.Machine.execSolverJob tag s
  | .frameSendJob tag => Sys2Proof.Machine.execFrameSendJob tag s
  | .rngHealthFailure test => Sys2Proof.Machine.execRngHealthFailure test s
  | .rngRecoveryComplete => Sys2Proof.Machine.execRngRecoveryComplete s
  | .rngReinstantiationComplete => Sys2Proof.Machine.execRngReinstantiationComplete s
  | .rngReseed => Sys2Proof.Machine.execRngReseed s
  | .rngQueueRefill => Sys2Proof.Machine.execRngQueueRefill s
  | .rngData0Read page => Sys2Proof.Machine.execRngData0Read page s
  | .rngDataHighRead page n => Sys2Proof.Machine.execRngDataHighRead page n s
  | .tamperPinOnset pin => Sys2Proof.Machine.execTamperPinOnset pin s
  | .meshSample pair differs => Sys2Proof.Machine.execMeshSample pair differs s
  | .supplyGlitch => Sys2Proof.Machine.execSupplyGlitch s
  | .clockMonitorFault => Sys2Proof.Machine.execClockMonitorFault s
  | .temperatureMonitorSample tj => Sys2Proof.Machine.execTemperatureMonitorSample tj s
  | .erasePendingRetry vholdMv => Sys2Proof.Machine.execErasePendingRetry vholdMv s
  | .nvmPreclear counter vholdMv => Sys2Proof.Machine.execNvmPreclear counter vholdMv s
  | .nvmRefresh vholdMv => Sys2Proof.Machine.execNvmRefresh vholdMv s
  | .nvmRunFreeing vholdMv => Sys2Proof.Machine.execNvmRunFreeing vholdMv s
  | .frameReceive port bytes => Sys2Proof.Machine.execFrameReceive port bytes s
  | .frameTransmit port cls => Sys2Proof.Machine.execFrameTransmit port cls s
  | .linkUp port rate => Sys2Proof.Machine.execLinkUp port rate s
  | .linkDown port => Sys2Proof.Machine.execLinkDown port s
  | .addressAgeOut mac vid => Sys2Proof.Machine.execAddressAgeOut mac vid s
  | .frerReset fn => Sys2Proof.Machine.execFrerReset fn s
  | .plcaStatusLost port => Sys2Proof.Machine.execPlcaStatusLost port s
  | .plcaBeaconResume port => Sys2Proof.Machine.execPlcaBeaconResume port s
  | .swFlowUnblock page word => Sys2Proof.Machine.execSwFlowUnblock page word s
  | .canFrameReceive ctl id ext data => Sys2Proof.Machine.execCanFrameReceive ctl id ext data s
  | .canTokenTransmit ctl => Sys2Proof.Machine.execCanTokenTransmit ctl s
  | .canBusOff ctl => Sys2Proof.Machine.execCanBusOff ctl s
  | .canBusOffRecovery ctl => Sys2Proof.Machine.execCanBusOffRecovery ctl s
  | .arpRequest port senderMac senderIp targetIp => Sys2Proof.Machine.execArpRequest port senderMac senderIp targetIp s
  | .icmpEchoRequest srcMac srcIp dstIp ident seq data => Sys2Proof.Machine.execIcmpEchoRequest srcMac srcIp dstIp ident seq data s
  | .spiRegRead addr len hcrc => Sys2Proof.Machine.execSpiRegRead addr len hcrc s
  | .spiRegWrite addr len hcrc data dcrc ended => Sys2Proof.Machine.execSpiRegWrite addr len hcrc data dcrc ended s
  | .spiAspPut addr len hcrc data dcrc ended => Sys2Proof.Machine.execSpiAspPut addr len hcrc data dcrc ended s
  | .spiAspGet addr len hcrc rcrcClocked => Sys2Proof.Machine.execSpiAspGet addr len hcrc rcrcClocked s
  | .registerWrite page addr word => Sys2Proof.Machine.execRegisterWrite page addr word s
  | .sysLockSet page word => Sys2Proof.Machine.execSysLockSet page word s
  | .sysAspGateWrite page word => Sys2Proof.Machine.execSysAspGateWrite page word s
  | .aspOpen page => Sys2Proof.Machine.execAspOpen page s
  | .aspClose page => Sys2Proof.Machine.execAspClose page s
  | .aspRegRead page => Sys2Proof.Machine.execAspRegRead page s
  | .aspRegWrite page => Sys2Proof.Machine.execAspRegWrite page s
  | .aspWinRead page => Sys2Proof.Machine.execAspWinRead page s
  | .aspWinWrite page => Sys2Proof.Machine.execAspWinWrite page s
  | .aspRingSubmit page => Sys2Proof.Machine.execAspRingSubmit page s
  | .aspRingCollect page => Sys2Proof.Machine.execAspRingCollect page s
  | .aspSubscribe page => Sys2Proof.Machine.execAspSubscribe page s
  | .aspEvent page cls => Sys2Proof.Machine.execAspEvent page cls s
  | .aspPower page => Sys2Proof.Machine.execAspPower page s
  | .aspReset page => Sys2Proof.Machine.execAspReset page s
  | .aspUhfCal page => Sys2Proof.Machine.execAspUhfCal page s
  | .aspEngineRunning page => Sys2Proof.Machine.execAspEngineRunning page s
  | .aspPermitEnd page => Sys2Proof.Machine.execAspPermitEnd page s
  | .aspOverrideCarrier page => Sys2Proof.Machine.execAspOverrideCarrier page s
  | .aspOverrideWindowPlan page => Sys2Proof.Machine.execAspOverrideWindowPlan page s
  | .aspOverrideTelegram page => Sys2Proof.Machine.execAspOverrideTelegram page s
  | .aspOverrideRanging page => Sys2Proof.Machine.execAspOverrideRanging page s
  | .aspRevert page => Sys2Proof.Machine.execAspRevert page s
  | .defaultSession conn => Sys2Proof.Machine.execDefaultSession conn s
  | .programmingSession conn => Sys2Proof.Machine.execProgrammingSession conn s
  | .extendedSession conn => Sys2Proof.Machine.execExtendedSession conn s
  | .ecuReset conn => Sys2Proof.Machine.execEcuReset conn s
  | .clearDiagnosticInformation conn group => Sys2Proof.Machine.execClearDiagnosticInformation conn group s
  | .reportNumberOfDtcByStatusMask conn mask => Sys2Proof.Machine.execReportNumberOfDtcByStatusMask conn mask s
  | .reportDtcByStatusMask conn mask => Sys2Proof.Machine.execReportDtcByStatusMask conn mask s
  | .reportSupportedDtc conn => Sys2Proof.Machine.execReportSupportedDtc conn s
  | .readDataByIdentifier conn dids => Sys2Proof.Machine.execReadDataByIdentifier conn dids s
  | .deAuthenticate conn => Sys2Proof.Machine.execDeAuthenticate conn s
  | .verifyCertificateUnidirectional conn config chain => Sys2Proof.Machine.execVerifyCertificateUnidirectional conn config chain s
  | .proofOfOwnership conn sig => Sys2Proof.Machine.execProofOfOwnership conn sig s
  | .authenticationConfiguration conn => Sys2Proof.Machine.execAuthenticationConfiguration conn s
  | .authLockoutExpiry => Sys2Proof.Machine.execAuthLockoutExpiry s
  | .s3ServerTimeout conn => Sys2Proof.Machine.execS3ServerTimeout conn s
  | .testerPresent conn suppress => Sys2Proof.Machine.execTesterPresent conn suppress s
  | .unsupportedService conn sid => Sys2Proof.Machine.execUnsupportedService conn sid s
  | .routineResults conn rid => Sys2Proof.Machine.execRoutineResults conn rid s
  | .verifyImage conn flashAnswers => Sys2Proof.Machine.execVerifyImage conn flashAnswers s
  | .learnKey conn record kTag lock => Sys2Proof.Machine.execLearnKey conn record kTag lock s
  | .credState conn index state => Sys2Proof.Machine.execCredState conn index state s
  | .writeProfile conn record => Sys2Proof.Machine.execWriteProfile conn record s
  | .slotWrite conn slot attr gen key => Sys2Proof.Machine.execSlotWrite conn slot attr gen key s
  | .slotGenerate conn slot attr gen => Sys2Proof.Machine.execSlotGenerate conn slot attr gen s
  | .slotErase conn slot gen => Sys2Proof.Machine.execSlotErase conn slot gen s
  | .identityWrite conn key cert => Sys2Proof.Machine.execIdentityWrite conn key cert s
  | .lcTransition conn target => Sys2Proof.Machine.execLcTransition conn target s
  | .debugSeal conn => Sys2Proof.Machine.execDebugSeal conn s
  | .tamperClear conn => Sys2Proof.Machine.execTamperClear conn s
  | .tagInventory conn => Sys2Proof.Machine.execTagInventory conn s
  | .tagRead conn id page => Sys2Proof.Machine.execTagRead conn id page s
  | .tagWrite conn id page data => Sys2Proof.Machine.execTagWrite conn id page data s
  | .tagLock conn id page => Sys2Proof.Machine.execTagLock conn id page s
  | .requestDownload conn format addrLen addr size => Sys2Proof.Machine.execRequestDownload conn format addrLen addr size s
  | .transferData conn block data verified => Sys2Proof.Machine.execTransferData conn block data verified s
  | .requestTransferExit conn => Sys2Proof.Machine.execRequestTransferExit conn s
  | .routingActivation conn tester kind => Sys2Proof.Machine.execRoutingActivation conn tester kind s
  | .vehicleIdentificationRequest => Sys2Proof.Machine.execVehicleIdentificationRequest s
  | .aliveCheck conn => Sys2Proof.Machine.execAliveCheck conn s
  | .entityStatusRequest => Sys2Proof.Machine.execEntityStatusRequest s
  | .powerModeInformationRequest => Sys2Proof.Machine.execPowerModeInformationRequest s
  | .doipConnectionClose conn => Sys2Proof.Machine.execDoipConnectionClose conn s
  | .nCrTimeout => Sys2Proof.Machine.execNCrTimeout s
  | .checkpointWrite role => Sys2Proof.Machine.execCheckpointWrite role s
  | .lockstepMismatch role delayNs => Sys2Proof.Machine.execLockstepMismatch role delayNs s
  | .pairMemoryError role offset delayNs => Sys2Proof.Machine.execPairMemoryError role offset delayNs s
  | .pairBWatchdog delayNs => Sys2Proof.Machine.execPairBWatchdog delayNs s
  | .pairAWatchdog => Sys2Proof.Machine.execPairAWatchdog s
  | .checkpointMemoryError offset => Sys2Proof.Machine.execCheckpointMemoryError offset s
  | .spareSelfTestFail => Sys2Proof.Machine.execSpareSelfTestFail s
  | .retestComplete passed => Sys2Proof.Machine.execRetestComplete passed s
  | .eccScrub find offset => Sys2Proof.Machine.execEccScrub find offset s
  | .vbatBelowVRteInHeath mv => Sys2Proof.Machine.execVbatBelowVRteInHeath mv s
  | .ledgerEnd vbatMv vholdMv => Sys2Proof.Machine.execLedgerEnd vbatMv vholdMv s
  | .lfChannelOpen ch coilMa settingMa => Sys2Proof.Machine.execLfChannelOpen ch coilMa settingMa s
  | .tamperConditionEnd source absentNs => Sys2Proof.Machine.execTamperConditionEnd source absentNs s
  | .canBusError ctl fault => Sys2Proof.Machine.execCanBusError ctl fault s
  | .announceTransmit dom => Sys2Proof.Machine.execAnnounceTransmit dom s
  | .pdelayRequestReceive port instanceSpecific domain => Sys2Proof.Machine.execPdelayRequestReceive port instanceSpecific domain s
  | .tpoPulseEnd n => Sys2Proof.Machine.execTpoPulseEnd n s
  | .vdrvWindowReached entry => Sys2Proof.Machine.execVdrvWindowReached entry s
  | .vehicleAnnouncement => Sys2Proof.Machine.execVehicleAnnouncement s

end Sys2Proof.Machine
end

