-- ==== Sys2Proof/Machine/Tick.lean ====
section
/-! DEFINITION. One tick of the local clock's source (R145, R156, R180, R632): what a step does on an empty queue, and what goes on
by itself then (log 1). -/

namespace Sys2Proof.Machine

/-- Advance the local clock by a span in 2^-48 ns. -/
def clkAdd (inc : Nat) (c : Clock) : Clock :=
  let f := c.frac + inc
  let n := c.ns + f / 2 ^ 48
  { c with frac := f % 2 ^ 48, ns := n % 1000000000, sec := (c.sec + n / 1000000000) % 2 ^ 48 }

/-- 25 ns × (1 + a) in 2^-48 ns, truncated (R156). -/
def incXo (c : Clock) : Nat := (25 * 2 ^ 48 * (65536000000000 + c.freqAdj) / 65536000000000).toNat

/-- The local clock and `elapsed` go on by `inc` 2^-48 ns, the 40 MHz reference by `x` 1/64 ns (R26). -/
def clockRun (inc x : Nat) (s : State) : State :=
  { s with elapsed := s.elapsed + (s.clk.frac % 2 ^ 42 + inc) / 2 ^ 42, xo := s.xo + x, clk := clkAdd inc s.clk }

/-- The clock stands: time passes beside it. -/
def stand (s : State) : State := { s with elapsed := s.elapsed + 4000, xo := s.xo + 4000 }

/-- After a PON the clock begins from 0 at the reference instant of R97, where the start-up sequence begins (R632). -/
def clockWaits (s : State) : Bool := s.pwr.st == .startUp && s.boot.step = 1 && s.boot.kinds.contains .pon

/-- One tick: the local clock on the source in use, and the time of the timers with it. -/
def clockTick (s : State) : State :=
  let rtc (i : Nat) := clockRun (i * 2 ^ 32) 1953125 s
  match s.pwr.st with
  | .run => clockRun (incXo s.clk) 1600 s
  | .heath => rtc (s.clk.tickInc.getD 2000000000)
  | .fallow => stand s
  | _ =>
    if clockWaits s then stand s
    else if s.clk.xo40 then clockRun (incXo s.clk) 1600 s
    else match s.clk.rtcRunning, s.clk.tickInc with
      | true, some i => rtc i
      | _, _ => clockRun (125 * 2 ^ 47) 4000 s

/-- What waits without a command of its own goes on: a committed transition, a routine, a challenge (R486, R590, R594). -/
def resumeAll (s : State) : State :=
  let s := if secNvmOn s then dtcRetry (lcResume s) else s
  let s := if isRun s && s.sup.measured then grantResume (rtWrites (remotesResume s)) else s
  let s := meshSeed s
  let s := rangingRelease (lfTurn s)
  if isRun s && s.boot.ready then challengeGive 2 (challengeGive 1 (challengeGive 0 (rtResume s))) else s

/-- A step on an empty queue. -/
def tick (s : State) : State := settle s (resumeAll (clockTick s))

end Sys2Proof.Machine
end

