-- ==== Sys2Proof/WellFormed.lean ====
section
/-! DEFINITION. Well-formed commands: the operand lengths and ranges that the interfaces of the spec can carry. A command outside
them cannot reach the part; `exec` does not rely on the check. -/

namespace Sys2Proof

/-- A telegram after its length byte: payload and CRC fit 255 + 2 bytes (R311). -/
def RxTelegram.ok (t : RxTelegram) : Bool := decide (t.rest.length ≤ 257)

/-- 72 tones were measured, or none (R366). -/
def tonesOk {α : Type} (l : List α) : Bool := l.length == 72 || l.isEmpty

/-- Both ports' tones. -/
def RangingEnv.ok (e : RangingEnv) : Bool :=
  tonesOk e.phaseA && tonesOk e.phaseB && tonesOk e.levelA && tonesOk e.levelB

/-- At most one measurement of a channel (R239). -/
def StartEnv.ok (e : StartEnv) : Bool :=
  (List.range 16).all (fun n => decide ((e.tuning.filter (fun m => m.ch.val == n)).length ≤ 1))

/-- Operand ranges of a command. -/
def Instr.wellFormed : Instr → Bool
  | .startUp e => e.ok
  | .rxWindowComplete _ ts _ => ts.all RxTelegram.ok
  | .rangingComplete _ e => e.ok
  | .frameReceive _ b => decide (64 ≤ b.length) && decide (b.length ≤ 2048)
  | .canFrameReceive _ _ _ d => decide (d.length ≤ 64)
  | .icmpEchoRequest _ _ _ _ _ d => decide (d.length ≤ 1472)
  | .spiRegWrite _ len _ d _ _ => decide (d.length ≤ len.toNat)
  | .spiAspPut _ len _ d _ _ => decide (d.length ≤ len.toNat)
  | .readDataByIdentifier _ l => decide (l.length ≤ 2047)
  | .learnKey _ r k _ => r.length == 32 && k.length == 16
  | .writeProfile _ r => r.length == 104
  | .slotWrite _ _ _ _ k => k.length == 32
  | .tagWrite _ _ _ d => d.length == 16
  | .transferData _ _ d _ => decide (d.length ≤ 4093)
  | .announceReceive _ _ _ p => decide (p.length ≤ 179)
  | .syncReceive _ o _ => decide (o < 2 ^ 80)
  | .aesBlockJob _ n => decide (n ≤ 4096)
  | .aesJobResume _ n => decide (n ≤ 4096)
  | _ => true

end Sys2Proof
end

