-- ==== Sys2Proof/Safety.lean ====
section
/-! DEFINITION. What counts as safe, in the terms the statements use: the permit (R34, R35, R45), the memories' canonical form, and
the frame of a command. -/

namespace Sys2Proof.Machine

/-- The permit latch is never in permit while a level denies it, and the pins follow the latch (R34, R81, R505, R605). -/
def PermitSafe (s : State) : Prop :=
  (s.permit.latch = true → denyLevel s = false) ∧ s.permit.spA = s.permit.latch ∧ s.permit.spB = s.permit.latch

/-- What every command and every tick leaves: a safe permit and no event undelivered. -/
def Settled (s : State) : Prop := PermitSafe s ∧ s.evLog = []

/-- What every command's end may set whatever the command: the queue of events not yet delivered, HIRQ (R577, R583), the permit
pins, which follow the latch (R34), and the other pins, which follow the blocks (R48). Frames compare states without them. -/
def bare (s : State) : State :=
  { s with
    pending := []
    evLog := []
    pages := s.pages.map (fun p => { p with evPend := [] })
    permit.latch := false
    permit.spA := false
    permit.spB := false
    spi.hirq := false
    pins := State.reset.pins }

/-- The frame of a command that leads from `s` to `t`: `t` is `u` but for what `bare` leaves out, and the latch is not moved to
permit beyond `u`. `u` is written as `s` with the fields the command may write taken from `t`, so that every other field
keeps its value. -/
def Framed (t u : State) : Prop := bare t = bare u ∧ (t.permit.latch = true → u.permit.latch = true)

/-- A reset has just happened (R146): start-up is to run from its first step. -/
def FreshReset (t : State) : Prop := t.pwr.st = .startUp ∧ t.boot.step = 1

/-- VBAT as a command carries it, in mV. -/
def vbatOf : Instr → Option Nat
  | .vbatCrankHoldEntry mv => some mv
  | .vbatCrankHoldExit mv => some mv
  | .vioLowShed mv => some mv
  | .rideThroughEntry mv _ => some mv
  | .rideThroughExit mv => some mv
  | .vbatPermitDeny mv => some mv
  | .overvoltageEntry mv => some mv
  | .overvoltageExit mv => some mv
  | .powerOnReset mv _ => some mv
  | .startUp e => some e.vbatMv
  | .wakePinEdge _ _ e => some e.vbatMv
  | .fallowVbatWake e => some e.vbatMv
  | .vbatBelowVRteInHeath mv => some mv
  | .ledgerEnd mv _ => some mv
  | _ => none

/-- Every byte of the window outside a span keeps its value. -/
def WinKeeps (s t : State) (start len : Nat) : Prop := ∀ a, a < start ∨ start + len ≤ a → memGet 0 t.win a = memGet 0 s.win a

/-! ### Conditions that statements name -/

/-- Nothing of R207, R208, R218, R319 or R386 holds an occurrence back. -/
def entryFree (s : State) (i : Nat) (e : Entry) : Bool :=
  (skipStatus s e).isNone && !busy s i e && !keptBack s i e && !seqBlocks s e && !calHolds s e

/-- An entry that has come due and may be tried (R204). -/
def entryDueNow (s : State) (i : Nat) (e : Entry) : Bool :=
  ttGet s i == some e && s.tt.exec && (e.st == .pending || e.st == .preparing) && !e.excluded s && e.isDue s && s.pwr.st != .fallow

/-- The LF frame of an entry has a channel to drive and its listening channel is in service (R251). -/
def frameDrives (s : State) (e : Entry) : Bool :=
  let s := { s with lf.carrier := carrierNext s, lf.round := false }
  let f := frameBlock s e
  !(nothingMapped s || (fbListen f ≠ 255 && !chInService s (fbListen f))
    || (drivenWords (fbWords f) != [] && (driveOf s (fbIfs f) (fbWords f) (fbListen f)).kept.isEmpty))

/-- The drive of an LF frame entry at its start (R233). -/
def frameDrive (s : State) (e : Entry) : Drive :=
  let s := { s with lf.carrier := carrierNext s, lf.round := false }
  let f := frameBlock s e
  driveOf s (fbIfs f) (fbWords f) (fbListen f)

/-- The same for a ping entry (R252). -/
def pingDrive (s : State) (e : Entry) : Drive :=
  driveOf { s with lf.carrier := carrierNext s, lf.round := false } (u16 (pingSet s e) 2) [pingWord e] 255

/-- The reply an LF frame's uplink decodes to (R267 to R273). -/
def frameReply (s : State) (e : Entry) (env : LfFrameEnv) : Reply :=
  let f := frameBlock s e
  if fbListen f = 255 then Reply.none_ .ok 0 0 else decodeReply s f (lfSens s (fbListen f)) env.units

/-- The instant at which the frame's demodulator closes (R270). -/
def frameClose (s : State) (e : Entry) (env : LfFrameEnv) : Nat :=
  e.endAt + tNs (periodsNs s (16 * (frameReply s e env).close))

end Sys2Proof.Machine
end

