-- ==== Sys2Proof/Certificates/Slice0/Obligations.lean ====
section
/-! DEFINITION. The statements for the provers. A statement that says what a command does says it for every state and operand that
meets its hypotheses; a clause per command. -/

open Sys2Proof Sys2Proof.Machine

/-- VBAT_CRANK_HOLD_ENTRY in Run and full function with VBAT below V_CHE: the next state is in crank hold with event bit 0
set, the crank shed mask taken from the policy, VDRV aimed at 8.0 V if it runs, and every shed port down. VIO_LOW_SHED
in Run outside ride-through with VBAT below 3.8 V: P0 and P1 are shed and down and the region is unchanged.
RIDE_THROUGH_ENTRY with VBAT below V_RTE, in Run outside ride-through and measured: ride-through with event bit 1,
t_hold running, VDRV off, no LF channel driven, both transceivers asleep, P0 to P7 down and no download open; before the
VHOLD measurement has completed, in Run or in a start-up that has begun: a brown-out reset. VBAT_PERMIT_DENY with VBAT
below V_PD, in every state: latch and both outputs in deny, the session kept, and at the crossing the deny noted with
event bit 2. OVERVOLTAGE_ENTRY above V_OVE outside start-up: region overvoltage with event bit 3 and VDRV off. -/
def Obligations.SupplyRegionEntries : Prop :=
  (∀ (s : State) (mv : Nat),
      s.pwr.st = .run →
      s.sup.region = .full →
      mv < Config.vChe →
      ∃ t, exec (.vbatCrankHoldEntry mv) s = .next t
        ∧ t.sup.region = .crank
        ∧ t.sup.vbat = mv
        ∧ t.sup.evt.getLsbD 0 = true
        ∧ t.sup.shedCrank = shedFrom s (poShedCrank (policySec s))
        ∧ (s.sup.vdrvOn = true → t.sup.vdrvSet = 80)
        ∧ (∀ p, portShed t p = true → (portGet t p).rate = 0))
  ∧ (∀ (s : State) (mv : Nat),
      s.pwr.st = .run →
      s.sup.region ≠ .ride →
      mv < 3800 →
      ∃ t, exec (.vioLowShed mv) s = .next t
        ∧ t.sup.shedVio = 3
        ∧ t.sup.vbat = mv
        ∧ (portGet t 0).rate = 0
        ∧ (portGet t 1).rate = 0
        ∧ t.sup.region = s.sup.region)
  ∧ (∀ (s : State) (mv vhold : Nat),
      s.pwr.st = .run →
      s.sup.region ≠ .ride →
      s.sup.measured = true →
      mv < Config.vRte →
      ∃ t, exec (.rideThroughEntry mv vhold) s = .next t
        ∧ t.sup.region = .ride
        ∧ t.sup.evt.getLsbD 1 = true
        ∧ t.sup.rideUntil = some (s.elapsed + tNs s.sup.tHoldNs)
        ∧ t.sup.vdrvOn = false
        ∧ drivenMask t = 0
        ∧ t.diag.download = none
        ∧ t.sup.vhold = vhold
        ∧ (∀ p < 8, (portGet t p).rate = 0)
        ∧ (∀ n < 2, (trxGet t n).st = .sleep))
  ∧ (∀ (s : State) (mv vhold : Nat),
      s.pwr.st = .run →
      s.sup.region ≠ .ride →
      s.sup.measured = false →
      mv < Config.vRte →
      ∃ t, exec (.rideThroughEntry mv vhold) s = .next t
        ∧ t.pwr.st = .startUp
        ∧ t.boot.kinds = [.bor]
        ∧ t.permit.latch = false)
  ∧ (∀ (s : State) (mv vhold : Nat),
      (s.pwr.st = .startUp ∧ s.boot.step ≠ 1) ∨ s.pwr.st = .waitNoPair →
      s.sup.measured = false →
      mv < Config.vRte →
      ∃ t, exec (.rideThroughEntry mv vhold) s = .next t
        ∧ t.pwr.st = .startUp
        ∧ t.boot.kinds = kindsWith .bor s
        ∧ t.permit.latch = false)
  ∧ (∀ (s : State) (mv : Nat),
      mv < Config.vPd →
      ∃ t, exec (.vbatPermitDeny mv) s = .next t
        ∧ t.permit.latch = false
        ∧ t.permit.spA = false
        ∧ t.permit.spB = false
        ∧ t.permit.pdBelow = true
        ∧ t.sup.vbat = mv
        ∧ (s.permit.pdBelow = false → t.permit.pdDenied = true ∧ t.sup.evt.getLsbD 2 = true)
        ∧ t.acc.sessOpen = s.acc.sessOpen
        ∧ t.acc.session = s.acc.session)
  ∧ (∀ (s : State) (mv : Nat),
      s.pwr.st ≠ .startUp →
      s.pwr.st ≠ .waitNoPair →
      s.sup.region ≠ .overvolt →
      Config.vOve < mv →
      mv ≤ 45000 →
      ∃ t, exec (.overvoltageEntry mv) s = .next t
        ∧ t.sup.region = .overvolt
        ∧ t.sup.evt.getLsbD 3 = true
        ∧ t.sup.vdrvOn = false
        ∧ t.sup.vbat = mv)

/-- VBAT_CRANK_HOLD_EXIT in crank hold at V_CHX or more: full function, nothing shed for cranking, VDRV aimed at the ANTENNA
setpoint if it runs. RIDE_THROUGH_EXIT in ride-through at V_RTX or more: full function from V_CHX on, otherwise crank
hold, no deny and no re-grant left pending; where R82's conditions hold the latch returns to permit with HOLD_S running
and event bits 0 and 9. T_HOLD_EXPIRY when t_hold has ended in ride-through, and VHOLD_BELOW_V_HMIN below V_HMIN in
every state: a brown-out reset in deny. OVERVOLTAGE_EXIT below V_OVX: full function, the power state and VDRV as they
were. VBAT_BELOW_VRTE_IN_HEATH in Heath or Fallow below V_RTE: the state stays and an energy ledger is open, or before
the measurement a brown-out reset. LEDGER_END outside ride-through at V_RTX and 14.5 V or more: no ledger. -/
def Obligations.SupplyRegionExits : Prop :=
  (∀ (s : State) (mv : Nat),
      s.pwr.st = .run →
      s.sup.region = .crank →
      Config.vChx ≤ mv →
      mv ≤ 45000 →
      ∃ t, exec (.vbatCrankHoldExit mv) s = .next t
        ∧ t.sup.region = .full
        ∧ t.sup.shedCrank = 0
        ∧ t.sup.vbat = mv
        ∧ (s.sup.vdrvOn = true → t.sup.vdrvSet = antVdrv s.set.antenna)
        ∧ t.permit.pdBelow = false)
  ∧ (∀ (s : State) (mv : Nat),
      s.pwr.st = .run →
      s.sup.region = .ride →
      Config.vRtx ≤ mv →
      mv ≤ 45000 →
      ∃ t, exec (.rideThroughExit mv) s = .next t
        ∧ t.sup.region = (if mv ≥ Config.vChx then .full else .crank)
        ∧ t.sup.rideUntil = none
        ∧ t.sup.vbat = mv
        ∧ t.permit.pdBelow = false
        ∧ t.permit.pdDenied = false
        ∧ t.acc.eligible = false)
  ∧ (∀ (s : State) (mv : Nat),
      s.pwr.st = .run →
      s.sup.region = .ride →
      Config.vRtx ≤ mv →
      mv ≤ 45000 →
      s.permit.pdDenied = true →
      s.acc.eligible = true →
      s.acc.sessOpen = true →
      s.tmp.latch = false →
      hasRole s 0 = true →
      s.elapsed ≤ s.acc.issuedAt + tMs 200 →
      ∃ t, exec (.rideThroughExit mv) s = .next t
        ∧ t.permit.latch = true
        ∧ t.acc.regrant = true
        ∧ t.acc.holdUntil = some (s.elapsed + tS (pfHold s.acc.profile))
        ∧ t.acc.evt.getLsbD 0 = true
        ∧ t.acc.evt.getLsbD 9 = true
        ∧ t.acc.session = s.acc.session)
  ∧ (∀ (s : State) (x : Nat),
      s.pwr.st = .run →
      s.sup.region = .ride →
      s.sup.rideUntil = some x →
      x ≤ s.elapsed →
      ∃ t, exec (.tHoldExpiry) s = .next t
        ∧ t.pwr.st = .startUp
        ∧ t.boot.kinds = [.bor]
        ∧ t.permit.latch = false
        ∧ t.acc.sessOpen = false)
  ∧ (∀ (s : State) (vhold : Nat),
      vhold < Config.vHmin →
      ∃ t, exec (.vholdBelowVHmin vhold) s = .next t
        ∧ t.pwr.st = .startUp
        ∧ t.boot.kinds = kindsWith .bor s
        ∧ t.permit.latch = false
        ∧ t.sup.vhold = vhold)
  ∧ (∀ (s : State) (mv : Nat),
      s.sup.region = .overvolt →
      mv < Config.vOvx →
      ∃ t, exec (.overvoltageExit mv) s = .next t
        ∧ t.sup.region = .full
        ∧ t.sup.vbat = mv
        ∧ t.pwr = s.pwr
        ∧ t.sup.vdrvOn = s.sup.vdrvOn)
  ∧ (∀ (s : State) (mv : Nat),
      s.pwr.st = .heath ∨ s.pwr.st = .fallow →
      mv < Config.vRte →
      s.sup.measured = true →
      ∃ t, exec (.vbatBelowVRteInHeath mv) s = .next t
        ∧ t.pwr.st = s.pwr.st
        ∧ t.sup.vbat = mv
        ∧ (s.nvm.ledger = none → t.nvm.ledger.isSome = true))
  ∧ (∀ (s : State) (mv : Nat),
      s.pwr.st = .heath ∨ s.pwr.st = .fallow →
      mv < Config.vRte →
      s.sup.measured = false →
      ∃ t, exec (.vbatBelowVRteInHeath mv) s = .next t
        ∧ t.pwr.st = .startUp
        ∧ t.boot.kinds = [.bor])
  ∧ (∀ (s : State) (mv vhold : Nat),
      s.sup.region ≠ .ride →
      Config.vRtx ≤ mv →
      mv ≤ 45000 →
      14500 ≤ vhold →
      ∃ t, exec (.ledgerEnd mv vhold) s = .next t
        ∧ t.nvm.ledger = none
        ∧ t.sup.vbat = mv
        ∧ t.sup.vhold = vhold
        ∧ t.sup.region = s.sup.region)

/-- THERM_WARN at 140 °C or more, THERM_DERATE at 150 and THERM_OFF at 165, each while its response is not yet applied: the
next state has the response, the reading and the event bit 4, 5 or 6; derating sheds the policy's thermal ports, and in
Run every shed port is down; T_OFF leaves VDRV off, no LF channel driven, both transceivers asleep and all wake
receivers off, and sheds every port that may be shed. THERM_RESET at 175 °C or more: a warm fault reset in deny.
THERM_RESPONSE_WITHDRAW with a response applied: each response stays only above 155, 140 and 130 °C. -/
def Obligations.TemperatureResponses : Prop :=
  (∀ (s : State) (tj : Int),
      140 ≤ tj →
      s.sup.thermWarn = false →
      ∃ t, exec (.thermWarn tj) s = .next t
        ∧ t.sup.thermWarn = true
        ∧ t.sup.tj = tj
        ∧ t.sup.evt.getLsbD 4 = true
        ∧ t.sup.thermDer = s.sup.thermDer
        ∧ t.sup.thermOff = s.sup.thermOff)
  ∧ (∀ (s : State) (tj : Int),
      150 ≤ tj →
      s.sup.thermDer = false →
      ∃ t, exec (.thermDerate tj) s = .next t
        ∧ t.sup.thermDer = true
        ∧ t.sup.tj = tj
        ∧ t.sup.evt.getLsbD 5 = true
        ∧ t.sup.shedTherm = s.sup.shedTherm ||| shedFrom s (poShedTherm (policySec s))
        ∧ (s.pwr.st = .run → ∀ p, portShed t p = true → (portGet t p).rate = 0))
  ∧ (∀ (s : State) (tj : Int),
      165 ≤ tj →
      s.sup.thermOff = false →
      ∃ t, exec (.thermOff tj) s = .next t
        ∧ t.sup.thermOff = true
        ∧ t.sup.tj = tj
        ∧ t.sup.evt.getLsbD 6 = true
        ∧ t.sup.vdrvOn = false
        ∧ drivenMask t = 0
        ∧ t.sup.shedTherm = shedFrom s 0xFF
        ∧ (∀ n < 2, (trxGet t n).st = .sleep)
        ∧ (∀ n < 6, (vget t.uhf.wrx n Wrx.reset).on = false))
  ∧ (∀ (s : State) (tj : Int),
      175 ≤ tj →
      ∃ t, exec (.thermReset tj) s = .next t
        ∧ t.pwr.st = .startUp
        ∧ t.boot.step = 1
        ∧ t.boot.kinds = kindsWith .wfr s
        ∧ t.permit.latch = false)
  ∧ (∀ (s : State) (tj : Int),
      s.sup.thermOff = true ∨ s.sup.thermDer = true ∨ s.sup.thermWarn = true →
      ∃ t, exec (.thermResponseWithdraw tj) s = .next t
        ∧ t.sup.thermOff = (s.sup.thermOff && decide (tj > 155))
        ∧ t.sup.thermDer = (s.sup.thermDer && decide (tj > 140))
        ∧ t.sup.thermWarn = (s.sup.thermWarn && decide (tj > 130))
        ∧ t.sup.tj = tj)

/-- VDRV_CONVERTER_START with an LF entry due within 2 ms, VDRV off and allowed: it runs at its setpoint, ready after the
start-up bound. VDRV_CONVERTER_STOP when its stop instant has come and nothing drives or is due: exactly VDRV off.
VDRV_WINDOW_TIMEOUT for a one-shot LF entry of a job that has waited for VDRV to its hold's end: the entry goes, its job
ends with LOW_ENERGY, no drive. SP_OUTPUT_READBACK in Run: each fault bit is set exactly when its output differs from
its command or is limited, and a fault sets FLT event bit 7. -/
def Obligations.VdrvAndPermitReadback : Prop :=
  (∀ (s : State),
      lfDueSoon s = true →
      s.sup.vdrvOn = false →
      vdrvAllowed s = true →
      ∃ t, exec (.vdrvConverterStart) s = .next t
        ∧ t.sup.vdrvOn = true
        ∧ t.sup.vdrvSet = vdrvSetpoint s
        ∧ t.sup.vdrvReadyAt = s.elapsed + tNs (vdrvStartNs s)
        ∧ t.sup.vdrvStopAt = none
        ∧ t.tt = s.tt)
  ∧ (∀ (s : State) (x : Nat),
      s.sup.vdrvStopAt = some x →
      x ≤ s.elapsed →
      lfDueSoon s = false →
      lfActive s = false →
      exec (.vdrvConverterStop) s = .next (settle s (vdrvOff s)))
  ∧ (∀ (s : State) (i : Fin 256) (e : Entry) (x g : Nat),
      ttGet s i.val = some e →
      e.st = .waiting →
      e.isLf = true →
      e.periodic = false →
      e.owner = .job g →
      e.holdUntil = some x →
      x ≤ s.elapsed →
      vdrvInWindow s = false →
      ∃ t, exec (.vdrvWindowTimeout i) s = .next t
        ∧ ttGet t i.val = none
        ∧ t.lf = s.lf
        ∧ t.job = (opEnd g .lowEnergy false [] s).job)
  ∧ (∀ (s : State) (a b la lb : Bool),
      s.pwr.st = .run →
      ∃ t, exec (.spOutputReadback a b la lb) s = .next t
        ∧ t.sup.spaFault = (la || a != s.permit.spA)
        ∧ t.sup.spbFault = (lb || b != s.permit.spB)
        ∧ ((la || a != s.permit.spA || lb || b != s.permit.spB) = true → t.flt.evt.getLsbD 7 = true))

/-- Each reset leaves a start-up to run at step 1 with its kind in front of those already collected, the permit latch in
deny and the flash kept. POWER_ON_RESET with VBAT and VHOLD below 2.0 V: kind PON, the clock at 0 s, both retained banks
and the tamper latch kept; with either at 2.0 V or more: no reset. NRST_EXTERNAL_LOW, the part not driving NRST itself:
at 10 µs or more kind HCR, the clock's seconds kept unless a PON is among the kinds; below 2 µs nothing; between, the
free value decides (log 6); while the part drives NRST, nothing. SYS_RESET_CMD from page 1 with key 0x5EC7 while pair B
is powered: kind HCR as above; with another key, or from another page, no reset, and there DENIED changes no power
state. NO_PAIR_RETRY when the wait has ended: kind WFR alone, the clock's seconds kept. -/
def Obligations.ResetCommands : Prop :=
  (∀ (s : State) (mv vhold : Nat),
      mv < 2000 →
      vhold < 2000 →
      ∃ t, exec (.powerOnReset mv vhold) s = .next t
        ∧ t.pwr.st = .startUp
        ∧ t.boot.step = 1
        ∧ t.boot.kinds = kindsWith .pon s
        ∧ t.permit.latch = false
        ∧ t.clk.sec = 0
        ∧ t.clk.ns = 0
        ∧ t.tmp.latch = s.tmp.latch
        ∧ t.nvm.lower = s.nvm.lower
        ∧ t.nvm.upper = s.nvm.upper
        ∧ t.flash = s.flash)
  ∧ (∀ (s : State) (mv vhold : Nat),
      mv ≤ 45000 →
      2000 ≤ mv ∨ 2000 ≤ vhold →
      ∃ t, exec (.powerOnReset mv vhold) s = .next t
        ∧ t.pwr = s.pwr
        ∧ t.boot = s.boot
        ∧ t.sup.vbat = mv
        ∧ t.sup.vhold = vhold)
  ∧ (∀ (s : State) (ns : Nat),
      nrstDriven s = false →
      10000 ≤ ns →
      ∃ t, exec (.nrstExternalLow ns) s = .next t
        ∧ t.pwr.st = .startUp
        ∧ t.boot.step = 1
        ∧ t.boot.kinds = kindsWith .hcr s
        ∧ t.permit.latch = false
        ∧ t.clk.sec = (if onlyKinds [.bor, .wfr, .hcr, .tmr, .lcr] (kindsWith .hcr s) then s.clk.sec else 0)
        ∧ t.nvm.lower = s.nvm.lower
        ∧ t.nvm.upper = s.nvm.upper
        ∧ t.flash = s.flash)
  ∧ (∀ (s : State) (ns : Nat),
      ns < 2000 →
      exec (.nrstExternalLow ns) s = .next (settle s (s)))
  ∧ (∀ (s : State) (ns : Nat),
      nrstDriven s = true →
      exec (.nrstExternalLow ns) s = .next (settle s (s)))
  ∧ (∀ (s : State) (ns : Nat),
      nrstDriven s = false →
      2000 ≤ ns →
      ns < 10000 →
      exec (.nrstExternalLow ns) s = .next (settle s (if Config.nrstShort s.rng.drawn then resetTo .hcr { s with rng.drawn := s.rng.drawn + 1 } else { s with rng.drawn := s.rng.drawn + 1 })))
  ∧ (∀ (s : State) (w : Word),
      ppbOn s = true →
      w.toNat / 65536 = 0x5EC7 →
      ∃ t, exec (.sysResetCmd 1 w) s = .next t
        ∧ t.pwr.st = .startUp
        ∧ t.boot.step = 1
        ∧ t.boot.kinds = kindsWith .hcr s
        ∧ t.permit.latch = false
        ∧ t.tmp.latch = s.tmp.latch
        ∧ t.clk.sec = (if onlyKinds [.bor, .wfr, .hcr, .tmr, .lcr] (kindsWith .hcr s) then s.clk.sec else 0)
        ∧ t.nvm.lower = s.nvm.lower
        ∧ t.nvm.upper = s.nvm.upper
        ∧ t.flash = s.flash)
  ∧ (∀ (s : State) (page : Fin 8) (w : Word),
      page ≠ 1 ∨ w.toNat / 65536 ≠ 0x5EC7 →
      ∃ t, exec (.sysResetCmd page w) s = .next t
        ∧ t.pwr.st = s.pwr.st
        ∧ t.boot = s.boot
        ∧ t.permit.spA = (s.permit.latch && !denyLevel s))
  ∧ (∀ (s : State) (x : Nat),
      s.pwr.st = .waitNoPair →
      s.boot.retryAt = some x →
      x ≤ s.elapsed →
      ∃ t, exec (.noPairRetry) s = .next t
        ∧ t.pwr.st = .startUp
        ∧ t.boot.step = 1
        ∧ t.boot.kinds = [.wfr]
        ∧ t.permit.latch = false
        ∧ t.clk.sec = s.clk.sec
        ∧ t.flash = s.flash)

/-- START_UP at step 1 with VBAT at V_RTE or more, after a PON or BOR at V_RTX or more: with a pair that passes, no journal,
no captured tamper event and no pin active, Run at step 14 with READY set, RESET_KIND the first of the collected kinds
in R147's order, Burin executing, the VHOLD measurement not yet complete, and roles A, B and S for three passing pairs;
with a journal, the start-up waits at step 6; with captured events or active pins, Run at step 14 or a further reset;
with no pair, a wait of 1 s. The permit latch, in deny before, stays in deny. Below V_RTE otherwise a brown-out reset,
and after PON or BOR below V_RTX the start waits. RNG_FIRST_SEED in Run or start-up, generator neither seeded, latched
nor recovering: seeded with RNG_READY set. VHOLD_MEASUREMENT_COMPLETE and VHOLD_MEASUREMENT_TIMEOUT while the
measurement runs: C from the charge time, or 0; below 150 µF VHOLD_LOW; t_hold in proportion; NVM_READY set.
RETAINED_SETTINGS_WRITE with a set to write, the root and NVM_READY: the next payload record is written and the count
advances, or it is refused and the write ends; the head record ends it; the settings in force and the digest stay.
Before NVM_READY it waits. -/
def Obligations.StartUpOutcome : Prop :=
  (∀ (s : State) (env : StartEnv),
      s.pwr.st = .startUp →
      s.boot.step = 1 →
      env.vbatMv ≤ 45000 →
      (s.boot.kinds.any (fun k => k == .pon || k == .bor)) = true → Config.vRtx ≤ env.vbatMv →
      Config.vRte ≤ env.vbatMv →
      env.pairOk0 = true ∨ env.pairOk1 = true ∨ env.pairOk2 = true →
      env.pinActive = 0 →
      s.tmp.captured = [] →
      s.ks.journal = none →
      s.permit.latch = false →
      ∃ t, exec (.startUp env) s = .next t
        ∧ t.pwr.st = .run
        ∧ t.boot.ready = true
        ∧ t.boot.step = 14
        ∧ t.boot.kind = resetKind s.boot.kinds
        ∧ t.tt.exec = true
        ∧ t.sup.vbat = env.vbatMv
        ∧ t.sup.measured = false
        ∧ t.permit.latch = false
        ∧ (env.pairOk0 = true → env.pairOk1 = true → env.pairOk2 = true → t.flt.role = #v[0, 1, 2]))
  ∧ (∀ (s : State) (env : StartEnv),
      s.pwr.st = .startUp →
      s.boot.step = 1 →
      env.vbatMv ≤ 45000 →
      (s.boot.kinds.any (fun k => k == .pon || k == .bor)) = true → Config.vRtx ≤ env.vbatMv →
      Config.vRte ≤ env.vbatMv →
      env.pairOk0 = true ∨ env.pairOk1 = true ∨ env.pairOk2 = true →
      s.ks.journal.isSome = true →
      s.permit.latch = false →
      ∃ t, exec (.startUp env) s = .next t
        ∧ t.pwr.st = .startUp
        ∧ t.boot.step = 6
        ∧ t.boot.kind = resetKind s.boot.kinds
        ∧ t.permit.latch = false
        ∧ t.ks.journal = s.ks.journal)
  ∧ (∀ (s : State) (env : StartEnv),
      s.pwr.st = .startUp →
      s.boot.step = 1 →
      env.vbatMv ≤ 45000 →
      (s.boot.kinds.any (fun k => k == .pon || k == .bor)) = true → Config.vRtx ≤ env.vbatMv →
      Config.vRte ≤ env.vbatMv →
      env.pairOk0 = true ∨ env.pairOk1 = true ∨ env.pairOk2 = true →
      s.ks.journal = none →
      s.permit.latch = false →
      ∃ t, exec (.startUp env) s = .next t
        ∧ (t.pwr.st = .run ∧ t.boot.ready = true ∧ t.boot.step = 14 ∨ t.pwr.st = .startUp ∧ t.boot.step = 1)
        ∧ t.permit.latch = false)
  ∧ (∀ (s : State) (env : StartEnv),
      s.pwr.st = .startUp →
      s.boot.step = 1 →
      env.vbatMv ≤ 45000 →
      (s.boot.kinds.any (fun k => k == .pon || k == .bor)) = true → Config.vRtx ≤ env.vbatMv →
      Config.vRte ≤ env.vbatMv →
      env.pairOk0 = false →
      env.pairOk1 = false →
      env.pairOk2 = false →
      ∃ t, exec (.startUp env) s = .next t
        ∧ t.pwr.st = .waitNoPair
        ∧ t.boot.retryAt = some (s.elapsed + tS 1)
        ∧ t.permit.latch = false
        ∧ t.boot.ready = s.boot.ready)
  ∧ (∀ (s : State) (env : StartEnv),
      s.pwr.st = .startUp →
      s.boot.step = 1 →
      (s.boot.kinds.any (fun k => k == .pon || k == .bor)) = true →
      env.vbatMv < Config.vRtx →
      ∃ t, exec (.startUp env) s = .next t
        ∧ t.pwr.st = .startUp
        ∧ t.boot.step = 1
        ∧ t.boot.kinds = s.boot.kinds
        ∧ t.permit.latch = false)
  ∧ (∀ (s : State) (env : StartEnv),
      s.pwr.st = .startUp →
      s.boot.step = 1 →
      (s.boot.kinds.any (fun k => k == .pon || k == .bor)) = false →
      env.vbatMv < Config.vRte →
      ∃ t, exec (.startUp env) s = .next t
        ∧ t.pwr.st = .startUp
        ∧ t.boot.step = 1
        ∧ t.boot.kinds = kindsWith .bor s
        ∧ t.permit.latch = false)
  ∧ (∀ (s : State),
      s.rng.seeded = false →
      s.rng.latched = false →
      s.rng.recovering = false →
      s.pwr.st = .run ∨ s.pwr.st = .startUp →
      ∃ t, exec (.rngFirstSeed) s = .next t
        ∧ t.rng.seeded = true
        ∧ t.boot.rngReady = true
        ∧ t.rng.sourceOn = true
        ∧ t.rng.failRun = 0)
  ∧ (∀ (s : State) (ns c : Nat),
      measuring s = true →
      c = (if s.sup.vbat ≥ Config.vChx then 40 else 16) * ns / 1000000 →
      ∃ t, exec (.vholdMeasurementComplete ns) s = .next t
        ∧ t.sup.measured = true
        ∧ t.sup.measureUntil = none
        ∧ t.sup.vholdCap = min 255 (c / 2)
        ∧ t.sup.vholdLow = decide (c < 150)
        ∧ t.sup.tHoldNs = 50000000 * min c 150 / 150
        ∧ t.boot.nvmReady = true
        ∧ t.sup.vhold = 14000)
  ∧ (∀ (s : State) (x : Nat),
      s.sup.measured = false →
      s.sup.measureUntil = some x →
      x ≤ s.elapsed →
      ∃ t, exec (.vholdMeasurementTimeout) s = .next t
        ∧ t.sup.measured = true
        ∧ t.sup.measureUntil = none
        ∧ t.sup.vholdCap = 0
        ∧ t.sup.vholdLow = true
        ∧ t.sup.tHoldNs = 0
        ∧ t.boot.nvmReady = true)
  ∧ (∀ (s : State) (vhold : Nat) (r : BitVec 256) (n : Nat),
      s.boot.swNext = some n →
      s.boot.nvmReady = true →
      s.ks.root = some r →
      232 * n < s.boot.staged.length →
      energyOk false (copyGroups 240) { s with sup.vhold := vhold } = false →
      ∃ t, exec (.retainedSettingsWrite vhold) s = .next t
        ∧ t.boot.swp = false
        ∧ t.boot.staged = []
        ∧ t.boot.swNext = none
        ∧ t.sup.vhold = vhold
        ∧ t.set = s.set
        ∧ t.boot.digest = s.boot.digest
        ∧ t.nvm.lower = s.nvm.lower
        ∧ t.nvm.upper = s.nvm.upper)
  ∧ (∀ (s : State) (vhold : Nat) (r : BitVec 256) (n : Nat),
      s.boot.swNext = some n →
      s.boot.nvmReady = true →
      s.ks.root = some r →
      232 * n < s.boot.staged.length →
      energyOk false (copyGroups 240) { s with sup.vhold := vhold } = true →
      ∃ t, exec (.retainedSettingsWrite vhold) s = .next t
        ∧ t.boot.swp = true
        ∧ t.boot.staged = s.boot.staged
        ∧ t.boot.swNext = some (n + 1)
        ∧ t.sup.vhold = vhold
        ∧ t.set = s.set
        ∧ t.boot.digest = s.boot.digest)
  ∧ (∀ (s : State) (vhold : Nat) (r : BitVec 256) (n : Nat),
      s.boot.swNext = some n →
      s.boot.nvmReady = true →
      s.ks.root = some r →
      s.boot.staged.length ≤ 232 * n →
      ∃ t, exec (.retainedSettingsWrite vhold) s = .next t
        ∧ t.boot.swp = false
        ∧ t.boot.staged = []
        ∧ t.boot.swNext = none
        ∧ t.sup.vhold = vhold
        ∧ t.set = s.set
        ∧ t.boot.digest = s.boot.digest)
  ∧ (∀ (s : State) (vhold : Nat),
      s.boot.nvmReady = false →
      exec (.retainedSettingsWrite vhold) s = .next (settle s ({ s with sup.vhold := vhold })))

/-- PWR_REQUEST_HEATH, PWR_REQUEST_FALLOW and PWR_REQUEST_CANCEL from page 1 in Run outside ride-through: with key 0xA5C3
the request 1, 2 or 0 is held and the idle timer restarts; with another key the request stays; before READY NOT_READY
and nothing of the power state changes; nor from another page. IDLE_TO_HEATH_EXPIRY when its time has passed with no
request, sequence or round: exactly request 1. ENTER_HEATH and ENTER_FALLOW on their request with no hold condition
true: Heath, or Fallow where the settings can be rebuilt and otherwise Heath with FALLOW_DENIED set; the jobs, the
window, the overrides and the generator's queue are lost; Heath keeps the key store, the clock's time and the session;
Fallow loses the root, the seed and the holdover table and keeps retained memory and the settings.
HEATH_TO_FALLOW_EXPIRY when its time has passed: the same, or it stays in Heath with FALLOW_DENIED. WAKE_PIN_EDGE on the
active edge of a pin that is heard and not in debounce: debounce runs and the state stays; on the other edge nothing but
the pin's level. WAKE_DEBOUNCE_END held on an enabled pin in Heath: Run with the pin's bit; not held: SPURIOUS and the
state stays. FALLOW_VBAT_WAKE when VBAT rises through V_CHX, enabled: Run from Fallow with bit 11 on built-in defaults,
and with settings Run or a host-commanded reset. -/
def Obligations.PowerStateCommands : Prop :=
  (∀ (s : State) (key : BitVec 16),
      s.boot.ready = true →
      s.pwr.st = .run →
      s.sup.region ≠ .ride →
      key = 0xA5C3 →
      ∃ t, exec (.pwrRequestHeath 1 key) s = .next t
        ∧ t.pwr.req = 1
        ∧ t.spi.status = .ok
        ∧ t.pwr.idleSince = s.elapsed
        ∧ t.pwr.st = .run
        ∧ t.pwr.fallowDenied = s.pwr.fallowDenied)
  ∧ (∀ (s : State) (key : BitVec 16),
      s.boot.ready = true →
      s.pwr.st = .run →
      s.sup.region ≠ .ride →
      key ≠ 0xA5C3 →
      ∃ t, exec (.pwrRequestHeath 1 key) s = .next t
        ∧ t.pwr.req = s.pwr.req
        ∧ t.spi.status = .ok
        ∧ t.pwr.idleSince = s.elapsed
        ∧ t.pwr.st = .run)
  ∧ (∀ (s : State) (key : BitVec 16),
      s.boot.ready = false →
      ∃ t, exec (.pwrRequestHeath 1 key) s = .next t
        ∧ t.pwr = s.pwr
        ∧ t.spi.status = .notReady)
  ∧ (∀ (s : State) (page : Fin 8) (key : BitVec 16),
      page ≠ 1 →
      ∃ t, exec (.pwrRequestHeath page key) s = .next t
        ∧ t.pwr = s.pwr
        ∧ t.spi.status = s.spi.status)
  ∧ (∀ (s : State) (key : BitVec 16),
      s.boot.ready = true →
      s.pwr.st = .run →
      s.sup.region ≠ .ride →
      key = 0xA5C3 →
      ∃ t, exec (.pwrRequestFallow 1 key) s = .next t
        ∧ t.pwr.req = 2
        ∧ t.spi.status = .ok
        ∧ t.pwr.idleSince = s.elapsed
        ∧ t.pwr.st = .run
        ∧ t.pwr.fallowDenied = s.pwr.fallowDenied)
  ∧ (∀ (s : State) (key : BitVec 16),
      s.boot.ready = true →
      s.pwr.st = .run →
      s.sup.region ≠ .ride →
      key ≠ 0xA5C3 →
      ∃ t, exec (.pwrRequestFallow 1 key) s = .next t
        ∧ t.pwr.req = s.pwr.req
        ∧ t.spi.status = .ok
        ∧ t.pwr.idleSince = s.elapsed
        ∧ t.pwr.st = .run)
  ∧ (∀ (s : State) (key : BitVec 16),
      s.boot.ready = false →
      ∃ t, exec (.pwrRequestFallow 1 key) s = .next t
        ∧ t.pwr = s.pwr
        ∧ t.spi.status = .notReady)
  ∧ (∀ (s : State) (page : Fin 8) (key : BitVec 16),
      page ≠ 1 →
      ∃ t, exec (.pwrRequestFallow page key) s = .next t
        ∧ t.pwr = s.pwr
        ∧ t.spi.status = s.spi.status)
  ∧ (∀ (s : State) (key : BitVec 16),
      s.boot.ready = true →
      s.pwr.st = .run →
      s.sup.region ≠ .ride →
      key = 0xA5C3 →
      ∃ t, exec (.pwrRequestCancel 1 key) s = .next t
        ∧ t.pwr.req = 0
        ∧ t.spi.status = .ok
        ∧ t.pwr.idleSince = s.elapsed
        ∧ t.pwr.st = .run
        ∧ t.pwr.fallowDenied = s.pwr.fallowDenied)
  ∧ (∀ (s : State) (key : BitVec 16),
      s.boot.ready = true →
      s.pwr.st = .run →
      s.sup.region ≠ .ride →
      key ≠ 0xA5C3 →
      ∃ t, exec (.pwrRequestCancel 1 key) s = .next t
        ∧ t.pwr.req = s.pwr.req
        ∧ t.spi.status = .ok
        ∧ t.pwr.idleSince = s.elapsed
        ∧ t.pwr.st = .run)
  ∧ (∀ (s : State) (key : BitVec 16),
      s.boot.ready = false →
      ∃ t, exec (.pwrRequestCancel 1 key) s = .next t
        ∧ t.pwr = s.pwr
        ∧ t.spi.status = .notReady)
  ∧ (∀ (s : State) (page : Fin 8) (key : BitVec 16),
      page ≠ 1 →
      ∃ t, exec (.pwrRequestCancel page key) s = .next t
        ∧ t.pwr = s.pwr
        ∧ t.spi.status = s.spi.status)
  ∧ (∀ (s : State),
      s.pwr.st = .run →
      poIdle (policySec s) ≠ 0 →
      s.pwr.req = 0 →
      s.acc.seqn = none →
      s.acc.round = none →
      s.pwr.idleSince + tS (poIdle (policySec s)) ≤ s.elapsed →
      exec (.idleToHeathExpiry) s = .next (settle s ({ s with pwr.req := 1 })))
  ∧ (∀ (s : State),
      s.pwr.st = .run →
      s.pwr.req = 1 →
      held s = false →
      ∃ t, exec (.enterHeath) s = .next t
        ∧ t.pwr.st = .heath
        ∧ t.pwr.req = 0
        ∧ t.pwr.heathSince = s.elapsed
        ∧ t.pwr.fallowDenied = s.pwr.fallowDenied
        ∧ t.job = Job.reset
        ∧ t.ov = Overrides.none
        ∧ t.win = []
        ∧ t.rng.queue = []
        ∧ t.acc.sessOpen = s.acc.sessOpen
        ∧ t.acc.session = s.acc.session
        ∧ t.acc.eligible = false
        ∧ t.permit.latch = false
        ∧ t.spi.lock = s.spi.lock
        ∧ t.spi.pageOff = s.spi.pageOff
        ∧ t.ks = s.ks
        ∧ t.clk.sec = s.clk.sec
        ∧ t.clk.ns = s.clk.ns
        ∧ t.sup.lfScale = 1024)
  ∧ (∀ (s : State),
      s.pwr.st = .run →
      s.pwr.req = 2 →
      held s = false →
      rebuildable s = true →
      ∃ t, exec (.enterFallow) s = .next t
        ∧ t.pwr.st = .fallow
        ∧ t.pwr.req = 0
        ∧ t.pwr.fallowDenied = false
        ∧ t.job = Job.reset
        ∧ t.win = []
        ∧ t.ov = Overrides.none
        ∧ t.rng.queue = []
        ∧ t.ks.root = none
        ∧ t.rng.seeded = false
        ∧ t.clk.table = []
        ∧ t.permit.latch = false
        ∧ t.nvm = s.nvm
        ∧ t.set = s.set
        ∧ t.acc.sessOpen = s.acc.sessOpen)
  ∧ (∀ (s : State),
      s.pwr.st = .run →
      s.pwr.req = 2 →
      held s = false →
      rebuildable s = false →
      ∃ t, exec (.enterFallow) s = .next t
        ∧ t.pwr.st = .heath
        ∧ t.pwr.fallowDenied = true
        ∧ t.ks = s.ks
        ∧ t.job = Job.reset
        ∧ t.win = []
        ∧ t.ov = Overrides.none
        ∧ t.rng.queue = [])
  ∧ (∀ (s : State),
      s.pwr.st = .heath →
      poHeathFallow (policySec s) ≠ 0 →
      s.pwr.debounce = [] →
      s.pwr.heathSince + tS (60 * poHeathFallow (policySec s)) ≤ s.elapsed →
      rebuildable s = true →
      ∃ t, exec (.heathToFallowExpiry) s = .next t
        ∧ t.pwr.st = .fallow
        ∧ t.ks.root = none
        ∧ t.rng.seeded = false
        ∧ t.clk.table = []
        ∧ t.nvm = s.nvm
        ∧ t.set = s.set)
  ∧ (∀ (s : State),
      s.pwr.st = .heath →
      poHeathFallow (policySec s) ≠ 0 →
      s.pwr.debounce = [] →
      s.pwr.heathSince + tS (60 * poHeathFallow (policySec s)) ≤ s.elapsed →
      rebuildable s = false →
      exec (.heathToFallowExpiry) s = .next (settle s ({ s with pwr.fallowDenied := true, pwr.heathSince := s.elapsed })))
  ∧ (∀ (s : State) (pin : Fin 8) (rising : Bool) (env : WakeEnv),
      env.vbatMv ≤ 45000 →
      asleep s = true ∧ wakeEnabled s pin.val = true ∨ s.pwr.st = .run →
      rising = !(poWakeEdge (policySec s)).testBit pin.val →
      s.pwr.debounce.any (fun d => d.1 = pin.val) = false →
      ∃ t, exec (.wakePinEdge pin rising env) s = .next t
        ∧ t.pwr.debounce = s.pwr.debounce ++ [(pin.val, s.elapsed + tUs (100 * poDebounce (policySec s)), env.pufFails)]
        ∧ t.pwr.wakePins.getLsbD pin.val = true
        ∧ t.pwr.st = s.pwr.st
        ∧ t.sup.tj = env.tj
        ∧ t.sup.vbat = env.vbatMv)
  ∧ (∀ (s : State) (pin : Fin 8) (rising : Bool) (env : WakeEnv),
      env.vbatMv ≤ 45000 →
      rising = (poWakeEdge (policySec s)).testBit pin.val →
      ∃ t, exec (.wakePinEdge pin rising env) s = .next t
        ∧ t.pwr.debounce = s.pwr.debounce
        ∧ t.pwr.wakePins.getLsbD pin.val = false
        ∧ t.pwr.st = s.pwr.st)
  ∧ (∀ (s : State) (pin : Fin 8) (x f : Nat),
      s.pwr.st = .heath →
      (s.pwr.debounce.find? (fun d => d.1 = pin.val)) = some (pin.val, x, f) →
      x ≤ s.elapsed →
      wakeEnabled s pin.val = true →
      Config.vChe ≤ s.sup.vbat →
      ∃ t, exec (.wakeDebounceEnd pin true) s = .next t
        ∧ t.pwr.st = .run
        ∧ t.pwr.wokeFrom = 1
        ∧ t.pwr.wakeSrc.getLsbD pin.val = true
        ∧ t.pwr.debounce = s.pwr.debounce.filter (fun x => !(x.1 = pin.val))
        ∧ t.boot = s.boot)
  ∧ (∀ (s : State) (pin : Fin 8) (x f : Nat),
      asleep s = true →
      wakeEnabled s pin.val = true →
      (s.pwr.debounce.find? (fun d => d.1 = pin.val)) = some (pin.val, x, f) →
      x ≤ s.elapsed →
      ∃ t, exec (.wakeDebounceEnd pin false) s = .next t
        ∧ t.pwr.st = s.pwr.st
        ∧ t.pwr.wakeSrc = s.pwr.wakeSrc ||| onBit 14 13
        ∧ t.pwr.debounce = s.pwr.debounce.filter (fun x => !(x.1 = pin.val))
        ∧ t.boot = s.boot)
  ∧ (∀ (s : State) (env : WakeEnv),
      s.pwr.st = .fallow →
      wakeEnabled s 11 = true →
      s.sup.vbat < Config.vChx →
      Config.vChx ≤ env.vbatMv →
      env.vbatMv ≤ 45000 →
      2 ≤ s.boot.src →
      ∃ t, exec (.fallowVbatWake env) s = .next t
        ∧ t.pwr.st = .run
        ∧ t.pwr.wokeFrom = 2
        ∧ t.pwr.wakeSrc.getLsbD 11 = true
        ∧ t.sup.vbat = env.vbatMv
        ∧ t.sup.tj = env.tj)
  ∧ (∀ (s : State) (env : WakeEnv),
      s.pwr.st = .fallow →
      wakeEnabled s 11 = true →
      s.sup.vbat < Config.vChx →
      Config.vChx ≤ env.vbatMv →
      env.vbatMv ≤ 45000 →
      ∃ t, exec (.fallowVbatWake env) s = .next t
        ∧ ((t.pwr.st = .run ∧ t.pwr.wokeFrom = 2 ∧ t.pwr.wakeSrc.getLsbD 11 = true) ∨ (t.pwr.st = .startUp ∧ t.boot.kinds = [.hcr])))

/-- SYNC_RECEIVE on a domain whose slave port carries messages and is asCapable records the offset of R166 and the instant.
Where the domain is also selected and LOCKED, the offset lies within STEP_THRESH and 4 × LOCK_THRESH and within 200 ns
of the latest one, and the Sync does not make the primary preferred again, the clock mode is following, the accumulator
takes the offset, freqAdj is the servo's rate clamped to s32, the clock does not step and the domain stays LOCKED. On a
port that carries no messages or is not asCapable the Sync is ignored and nothing changes. -/
def Obligations.SyncAndServo : Prop :=
  (∀ (s : State) (d : Dom) (origin : Nat) (corr : Int),
      slaveOn s d = true →
      portCapable s (tiSlave s d) = true →
      ∃ t, exec (.syncReceive d origin corr) s = .next t
        ∧ (domGet t d).offset = syncOffset s (tiSlave s d) origin corr
        ∧ (domGet t d).syncAt = s.elapsed
        ∧ t.pwr.st = s.pwr.st)
  ∧ (∀ (s : State) (d : Dom) (origin : Nat) (corr o : Int),
      slaveOn s d = true →
      portCapable s (tiSlave s d) = true →
      o = syncOffset s (tiSlave s d) origin corr →
      s.clk.sel = some d →
      (domGet s d).st = .locked →
      o.natAbs ≤ tiStep s →
      o.natAbs ≤ 4 * tiLock s →
      ∀ h, (domGet s d).hist.head? = some h → (o - h).natAbs ≤ 200 →
      d = .red → revertDue s = false →
      ∃ t, exec (.syncReceive d origin corr) s = .next t
        ∧ t.clk.mode = .following
        ∧ t.clk.acc = (BitVec.ofInt 48 (s.clk.acc + o)).toInt
        ∧ t.clk.freqAdj = max (-2147483648) (min 2147483647 (servoRate s o (BitVec.ofInt 48 (s.clk.acc + o)).toInt))
        ∧ t.clk.sec = s.clk.sec
        ∧ t.clk.ns = s.clk.ns
        ∧ (domGet t d).st = .locked)
  ∧ (∀ (s : State) (d : Dom) (origin : Nat) (corr : Int),
      slaveOn s d = false ∨ portCapable s (tiSlave s d) = false →
      exec (.syncReceive d origin corr) s = .next (settle s (s)))

/-- ANNOUNCE_RECEIVE on a slave port that carries messages and is asCapable sets what the domain knows of its grandmaster;
elsewhere nothing changes. PDELAY_EXCHANGE_COMPLETE after a request, on a link of P0 to P5 with peer delay enabled: the
delay from the four timestamps (the peer's with their correctionField, log 136), the ratio from this response and the
last one, the history, asCapable at 800 ns or less. PDELAY_REQUEST_TRANSMIT takes the egress timestamp and counts;
PDELAY_REQUEST_RECEIVE answers with both timestamps, on P6, P7, with no link or for another domain nothing.
SYNC_RECEIPT_TIMEOUT of a live domain that is not REROUTED: LOST. SUSPECT_HOLD_EXPIRY with no verdict: ACQUIRING with
event bit 5. SYNC_TRANSMIT and ANNOUNCE_TRANSMIT send once on each master port, for a grandmaster from the local clock,
for a bridge from what it received (the bridge's content is the model's reading, log 124); with no master port nothing
is sent. None of these but the Sync's servo moves the clock. -/
def Obligations.DomainsAndPorts : Prop :=
  (∀ (s : State) (d : Dom) (gm : BitVec 64) (steps : BitVec 8) (path : List (BitVec 64)),
      slaveOn s d = true →
      portCapable s (tiSlave s d) = true →
      ∃ t, exec (.announceReceive d gm steps path) s = .next t
        ∧ (domGet t d).gmSeen = true
        ∧ (domGet t d).gm = gm
        ∧ (domGet t d).steps = steps.toNat
        ∧ (domGet t d).path = path
        ∧ t.clk.sec = s.clk.sec
        ∧ t.clk.ns = s.clk.ns)
  ∧ (∀ (s : State) (d : Dom) (gm : BitVec 64) (steps : BitVec 8) (path : List (BitVec 64)),
      slaveOn s d = false ∨ portCapable s (tiSlave s d) = false →
      exec (.announceReceive d gm steps path) s = .next (settle s (s)))
  ∧ (∀ (s : State) (p : Fin 6) (t2 t3 : Nat) (c2 c3 t1 : Int) (x : PortTime) (delay : Int),
      linkOn s p.val = true →
      bit (tiPdelayOff s) p.val = false →
      x = vget s.clk.ports p.val PortTime.reset →
      x.t1 = some t1 →
      x.prev = none →
      delay = ((ingressNs s p.val - t1) * x.ratio / 65536 - (peerTime t3 c3 - peerTime t2 c2)) / 131072 →
      ∃ t, exec (.pdelayExchangeComplete p t2 t3 c2 c3) s = .next t
        ∧ vget t.clk.ports p.val PortTime.reset = { x with delay := delay, prev := some (peerTime t3 c3, ingressNs s p.val), t1 := none, hist := (delay :: x.hist).take 8, capable := decide (delay ≤ 800) })
  ∧ (∀ (s : State) (p : Fin 6) (t2 t3 : Nat) (c2 c3 a t1 b : Int) (x : PortTime),
      linkOn s p.val = true →
      bit (tiPdelayOff s) p.val = false →
      x = vget s.clk.ports p.val PortTime.reset →
      x.t1 = some t1 →
      x.prev = some (a, b) →
      a < peerTime t3 c3 →
      b < ingressNs s p.val →
      ∃ t, exec (.pdelayExchangeComplete p t2 t3 c2 c3) s = .next t
        ∧ (vget t.clk.ports p.val PortTime.reset).ratio = ((peerTime t3 c3 - a) * 65536 / (ingressNs s p.val - b)).toNat
        ∧ (vget t.clk.ports p.val PortTime.reset).prev = some (peerTime t3 c3, ingressNs s p.val)
        ∧ (vget t.clk.ports p.val PortTime.reset).t1 = none
        ∧ (vget t.clk.ports p.val PortTime.reset).delay = ((ingressNs s p.val - t1) * (((peerTime t3 c3 - a) * 65536 / (ingressNs s p.val - b)).toNat : Nat) / 65536 - (peerTime t3 c3 - peerTime t2 c2)) / 131072)
  ∧ (∀ (s : State) (p : Fin 6),
      linkOn s p.val = true →
      bit (tiPdelayOff s) p.val = false →
      exec (.pdelayRequestTransmit p) s = .next (settle s ({ s with clk.ports := vmod s.clk.ports p.val (fun x => { x with reqSent := x.reqSent + 1, t1 := some (egressNs s p.val) }) })))
  ∧ (∀ (s : State) (p : Fin 8) (inst : Bool) (dom : BitVec 8),
      linkOn s p.val = true →
      inst = false ∨ dom = 0 →
      exec (.pdelayRequestReceive p inst dom) s = .next (settle s ({ s with clk.ports := vmod s.clk.ports p.val (fun x => { x with respSent := x.respSent + 1, resp := some (ingressNs s p.val, egressNs s p.val) }) })))
  ∧ (∀ (s : State) (p : Fin 8) (inst : Bool) (dom : BitVec 8),
      linkOn s p.val = false ∨ (inst = true ∧ dom ≠ 0) →
      exec (.pdelayRequestReceive p inst dom) s = .next (settle s (s)))
  ∧ (∀ (s : State) (p : Fin 6),
      linkOn s p.val = false ∨ bit (tiPdelayOff s) p.val = true →
      exec (.pdelayRequestTransmit p) s = .next (settle s (s)))
  ∧ (∀ (s : State) (p : Fin 6) (t2 t3 : Nat) (c2 c3 : Int),
      linkOn s p.val = false ∨ bit (tiPdelayOff s) p.val = true →
      exec (.pdelayExchangeComplete p t2 t3 c2 c3) s = .next (settle s (s)))
  ∧ (∀ (s : State) (d : Dom),
      domLive s d = true →
      (domGet s d).st ≠ .rerouted →
      (domGet s d).syncAt + tiTimeout s * syncTicks s ≤ s.elapsed →
      ∃ t, exec (.syncReceiptTimeout d) s = .next t
        ∧ (domGet t d).st = .lost
        ∧ t.clk.sec = s.clk.sec
        ∧ t.clk.ns = s.clk.ns)
  ∧ (∀ (s : State) (d : Dom) (x : Nat),
      (domGet s d).st = .suspect →
      (domGet s d).noVerdict = true →
      (domGet s d).suspectUntil = some x →
      x ≤ s.elapsed →
      ∃ t, exec (.suspectHoldExpiry d) s = .next t
        ∧ (domGet t d).st = .acquiring
        ∧ t.clk.evt.getLsbD 5 = true
        ∧ t.clk.sec = s.clk.sec)
  ∧ (∀ (s : State) (d : Dom),
      masterPorts s d ≠ [] →
      tiRole s d = 2 →
      exec (.syncTransmit d) s = .next (settle s (domMod d (fun x => { x with syncSent := x.syncSent + (masterPorts s d).length, syncOut := (masterPorts s d).map (fun p => { port := p, origin := (egressNs s p).toNat, corr := 0, egress := egressNs s p }) }) s)))
  ∧ (∀ (s : State) (d : Dom) (o : Nat) (c a : Int),
      masterPorts s d ≠ [] →
      tiRole s d ≠ 2 →
      (domGet s d).last = some (o, c, a) →
      exec (.syncTransmit d) s = .next (settle s (domMod d (fun x => { x with syncSent := x.syncSent + (masterPorts s d).length, syncOut := (masterPorts s d).map (fun p => { port := p, origin := o, egress := egressNs s p, corr := c + 65536 * (linkDelay s (tiSlave s d) + tiAsym s (tiSlave s d) + (egressNs s p - a)) }) }) s)))
  ∧ (∀ (s : State) (d : Dom),
      masterPorts s d = [] →
      exec (.syncTransmit d) s = .next (settle s (domMod d (fun x => { x with syncOut := [] }) s)))
  ∧ (∀ (s : State) (d : Dom),
      masterPorts s d = [] →
      exec (.announceTransmit d) s = .next (settle s (domMod d (fun x => { x with annOut := [] }) s)))
  ∧ (∀ (s : State) (d : Dom),
      masterPorts s d ≠ [] →
      tiRole s d = 2 →
      exec (.announceTransmit d) s = .next (settle s (domMod d (fun x => { x with annSent := x.annSent + (masterPorts s d).length, annOut := (masterPorts s d).map (fun p => { port := p, gm := Config.clockId, steps := 0, path := [Config.clockId] }) }) s)))
  ∧ (∀ (s : State) (d : Dom),
      masterPorts s d ≠ [] →
      tiRole s d ≠ 2 →
      (domGet s d).gmSeen = true →
      exec (.announceTransmit d) s = .next (settle s (domMod d (fun x => { x with annSent := x.annSent + (masterPorts s d).length, annOut := (masterPorts s d).map (fun p => { port := p, gm := (domGet s d).gm, steps := (domGet s d).steps + 1, path := (domGet s d).path ++ [Config.clockId] }) }) s)))

/-- HOLDOVER_BIN_LEARN after 10 s LOCKED at a temperature of −40 to 150 °C: exactly the bin with the mean adjust, and
learning begins again. RTC_TRIM in Heath with the RTC running: spans add up below 4,000,000 cycles of 40 MHz; from there
the ratio and the tick increment are set. TPO_ARM from page 1 in Run outside ride-through, on an output that is idle and
no entry names: EN, width and polarity are set where the target lies within 2^46 ns ahead and a periodic pulse is
shorter than its period; otherwise ERR is set and EN stays 0. TPO_FIRE at or after the target: exactly the pulse, EN
kept for a periodic output alone, and its next target. TPO_PULSE_END at the pulse's end: the pulse ends, EN stays.
TIM_NOW_LO_READ by page 1 in Run outside ride-through delivers bits 31 to 0 of short time and latches bits 47 to 32. -/
def Obligations.ClockRegisters : Prop :=
  (∀ (s : State) (tc sum : Int) (since n : Nat),
      s.clk.learning = some (tc, since, sum, n) →
      selLocked s = true →
      -40 ≤ tc →
      tc ≤ 150 →
      n ≠ 0 →
      since + tS 10 ≤ s.elapsed →
      exec (.holdoverBinLearn tc) s = .next (settle s ({ s with clk.table := binPut tc (roundDiv sum n) s.clk.table, clk.learning := some (tc, s.elapsed, 0, 0) })))
  ∧ (∀ (s : State) (c k : Nat),
      s.pwr.st = .heath →
      s.clk.rtcRunning = true →
      s.clk.trimCycles + c < 4000000 →
      exec (.rtcTrim c k) s = .next (settle s ({ s with clk.trimCycles := s.clk.trimCycles + c, clk.trimTicks := s.clk.trimTicks + k })))
  ∧ (∀ (s : State) (c k : Nat),
      s.pwr.st = .heath →
      s.clk.rtcRunning = true →
      4000000 ≤ s.clk.trimCycles + c →
      0 < s.clk.trimTicks + k →
      ∃ t, exec (.rtcTrim c k) s = .next t
        ∧ t.clk.ratio = some (s.clk.trimCycles + c, s.clk.trimTicks + k)
        ∧ t.clk.trimCycles = 0
        ∧ t.clk.trimTicks = 0
        ∧ t.clk.tickInc = some (((((s.clk.trimCycles + c) * 25 * 65536 / (s.clk.trimTicks + k) : Nat) : Int) * (65536000000000 + learned s) / 65536000000000).toNat))
  ∧ (∀ (s : State) (n : Fin 4) (w : Word),
      s.boot.ready = true →
      s.pwr.st = .run →
      s.sup.region ≠ .ride →
      (tpoGet s n.val).en = false →
      0 < s48 (tpoGet s n.val).target (now48 s) →
      s48 (tpoGet s n.val).target (now48 s) ≤ 2 ^ 46 →
      w.getLsbD 1 = false ∨ 8 * (w.toNat / 256) < (tpoGet s n.val).period →
      tpoNamed s n.val = false →
      ∃ t, exec (.tpoArm 1 n w) s = .next t
        ∧ (tpoGet t n.val).en = true
        ∧ (tpoGet t n.val).width = w.toNat / 256
        ∧ (tpoGet t n.val).periodic = w.getLsbD 1
        ∧ (tpoGet t n.val).pol = w.getLsbD 2
        ∧ (tpoGet t n.val).target = (tpoGet s n.val).target
        ∧ t.spi.status = .ok)
  ∧ (∀ (s : State) (n : Fin 4) (w : Word),
      s.boot.ready = true →
      s.pwr.st = .run →
      s.sup.region ≠ .ride →
      (tpoGet s n.val).en = false →
      tpoArms s n.val { tpoGet s n.val with periodic := w.getLsbD 1, width := w.toNat / 256 } = false →
      ∃ t, exec (.tpoArm 1 n w) s = .next t
        ∧ (tpoGet t n.val).en = false
        ∧ (tpoGet t n.val).err = true
        ∧ t.spi.status = .ok)
  ∧ (∀ (s : State) (page : Fin 8) (n : Fin 4) (w : Word),
      page ≠ 1 →
      ∃ t, exec (.tpoArm page n w) s = .next t
        ∧ t.clk.tpo = s.clk.tpo)
  ∧ (∀ (s : State) (n : Fin 4),
      (tpoGet s n.val).en = true →
      swOn s = true →
      s48 (tpoGet s n.val).target (now48 s) ≤ 0 →
      exec (.tpoFire n) s = .next (settle s (tpoMod n.val (fun x => { x with activeUntil := some (s.elapsed + tNs (8 * x.width)), en := x.en && x.periodic, target := if x.periodic then x.target + BitVec.ofNat 48 x.period else x.target }) s)))
  ∧ (∀ (s : State) (n : Fin 4) (x : Nat),
      (tpoGet s n.val).activeUntil = some x →
      x ≤ s.elapsed →
      ∃ t, exec (.tpoPulseEnd n) s = .next t
        ∧ (tpoGet t n.val).activeUntil = none
        ∧ (tpoGet t n.val).en = (tpoGet s n.val).en
        ∧ t.clk.evt = s.clk.evt)
  ∧ (∀ (s : State),
      s.boot.ready = true →
      s.pwr.st = .run →
      s.sup.region ≠ .ride →
      ∃ t, exec (.timNowLoRead 1) s = .next t
        ∧ t.spi.rdata = leBytes 4 ((now48 s).toNat % 2 ^ 32)
        ∧ t.clk.nowHi = (now48 s).extractLsb' 32 16
        ∧ t.spi.status = .ok)

/-- For an entry that is due with nothing holding it back, ENTRY_DUE starts it. Kind 1 with VDRV in its window and a channel
left to drive: running with the frame's bytes and exactly the kept channels driven. Kind 2: running, exactly its channel
driven. Kind 3 with a named channel in service or none named: running with no pattern begun. Kinds 4 and 5, prepared:
the transceiver receives, or transmits its telegram. Kind 6, prepared, with B4 on both ports: running, both transceivers
in Synth, the RS frame sent. Kind 7: the wake receiver listens for it. Kind 8 of the settings: the ring's credit is
released. Kind 9: its output is armed for the due instant. -/
def Obligations.EntryDueStarts : Prop :=
  (∀ (s : State) (i : Fin 256) (e : Entry),
      entryDueNow s i.val e = true →
      entryFree s i.val e = true →
      e.kind = 1 →
      vdrvInWindow s = true →
      frameDrives s e = true →
      ∃ t, exec (.entryDue i) s = .next t
        ∧ (ttGet t i.val).map (·.st) = some .running
        ∧ drivenMask t = BitVec.ofNat 16 (maskOf (frameDrive s e).kept)
        ∧ t.lf.lastFrame = frameAir (frameBlock s e)
        ∧ (ttGet t i.val).map (·.k) = some (frameDrive s e).k
        ∧ t.lf.round = false)
  ∧ (∀ (s : State) (i : Fin 256) (e : Entry),
      entryDueNow s i.val e = true →
      entryFree s i.val e = true →
      e.kind = 2 →
      vdrvInWindow s = true →
      nothingMapped s = false →
      (pingDrive s e).kept ≠ [] →
      ∃ t, exec (.entryDue i) s = .next t
        ∧ (ttGet t i.val).map (·.st) = some .running
        ∧ drivenMask t = BitVec.ofNat 16 (maskOf (pingDrive s e).kept)
        ∧ (ttGet t i.val).map (·.k) = some (pingDrive s e).k)
  ∧ (∀ (s : State) (i : Fin 256) (e : Entry),
      entryDueNow s i.val e = true →
      entryFree s i.val e = true →
      e.kind = 3 →
      vdrvInWindow s = true →
      nothingMapped s = false →
      scanNamed (scanBlock s e) = [] ∨ (scanNamed (scanBlock s e)).any (fun w => chInService s w.ch) = true →
      ∃ t, exec (.entryDue i) s = .next t
        ∧ (ttGet t i.val).map (·.st) = some .running
        ∧ (ttGet t i.val).map (·.pats) = some 0
        ∧ (ttGet t i.val).map (·.recs) = some [])
  ∧ (∀ (s : State) (i : Fin 256) (e : Entry),
      entryDueNow s i.val e = true →
      entryFree s i.val e = true →
      e.kind = 4 →
      e.st = .preparing →
      ∃ t, exec (.entryDue i) s = .next t
        ∧ (ttGet t i.val).map (·.st) = some .running
        ∧ (trxGet t (e.unit % 2)).st = .receive)
  ∧ (∀ (s : State) (i : Fin 256) (e : Entry),
      entryDueNow s i.val e = true →
      entryFree s i.val e = true →
      e.kind = 5 →
      e.st = .preparing →
      ∃ t, exec (.entryDue i) s = .next t
        ∧ (ttGet t i.val).map (·.st) = some .running
        ∧ (trxGet t (e.unit % 2)).st = .transmit
        ∧ t.uhf.lastTx = telAir (telPayload (e.profile s)))
  ∧ (∀ (s : State) (i : Fin 256) (e : Entry),
      entryDueNow s i.val e = true →
      entryFree s i.val e = true →
      e.kind = 6 →
      e.st = .preparing →
      b4Both s = true →
      rangingSec s ≠ [] →
      ∃ t, exec (.entryDue i) s = .next t
        ∧ (ttGet t i.val).map (·.st) = some .running
        ∧ (∀ n < 2, (trxGet t n).st = .synth)
        ∧ t.uhf.lastTx = rsFrame e.block ++ beBytes 2 (crc16 (rsFrame e.block)))
  ∧ (∀ (s : State) (i : Fin 256) (e : Entry),
      entryDueNow s i.val e = true →
      entryFree s i.val e = true →
      e.kind = 7 →
      ∃ t, exec (.entryDue i) s = .next t
        ∧ (ttGet t i.val).map (·.st) = some .running
        ∧ (vget t.uhf.wrx (e.unit % 6) Wrx.reset).on = true
        ∧ (vget t.uhf.wrx (e.unit % 6) Wrx.reset).entry = some i.val)
  ∧ (∀ (s : State) (i : Fin 256) (e : Entry),
      entryDueNow s i.val e = true →
      entryFree s i.val e = true →
      e.kind = 8 →
      e.owner = .settings →
      ∃ t, exec (.entryDue i) s = .next t
        ∧ t.job = (jobRelease e.unit e.ref s).job)
  ∧ (∀ (s : State) (i : Fin 256) (e : Entry),
      entryDueNow s i.val e = true →
      entryFree s i.val e = true →
      e.kind = 9 →
      ∃ t, exec (.entryDue i) s = .next t
        ∧ (tpoGet t (e.unit % 4)).en = true
        ∧ (tpoGet t (e.unit % 4)).target = e.due
        ∧ (tpoGet t (e.unit % 4)).width = e.ref
        ∧ (tpoGet t (e.unit % 4)).periodic = false)

/-- ENTRY_PREPARATION of an entry that may prepare: it is preparing; an LF entry due within 2 ms starts VDRV where allowed;
a UHF entry's fitted transceivers are in Synth; a frame send is queued. ENTRY_DUE of a pending entry whose resource is
claimed, or wanted by an entry ahead of it: it waits, with event bit 3, and no drive, transceiver or job changes.
ENTRY_DUE of a job's one-shot entry that R218 skips: the entry goes and its job ends with the status of R218.
ENTRY_WAIT_END of a waiting entry whose resources are free: a frame with VDRV in its window is sent, a window or
telegram whose transceiver is locked on its channel starts, a wake receiver listens, a pulse is armed.
VDRV_WINDOW_REACHED of a waiting frame, ping or scan that is free, with the converter on: it runs as from ENTRY_DUE. -/
def Obligations.EntryPreparesWaitsAndResumes : Prop :=
  (∀ (s : State) (i : Fin 256) (e : Entry),
      ttGet s i.val = some e →
      mayPrepare s i.val e = true →
      e.kind ≤ 9 →
      ∃ t, exec (.entryPreparation i) s = .next t
        ∧ (ttGet t i.val).map (·.st) = some .preparing
        ∧ (e.isLf = true → vdrvAllowed s = true → t.sup.vdrvOn = true)
        ∧ (e.kind = 4 ∨ e.kind = 5 ∨ e.kind = 6 → ∀ n ∈ e.trxs, (trxGet t n).st = .synth))
  ∧ (∀ (s : State) (i : Fin 256) (e : Entry),
      ttGet s i.val = some e →
      mayPrepare s i.val e = true →
      e.kind = 10 →
      ∃ t, exec (.entryPreparation i) s = .next t
        ∧ (ttGet t i.val).map (·.st) = some .preparing
        ∧ t.sw = (launchQueue i.val e s).sw)
  ∧ (∀ (s : State) (i : Fin 256) (e : Entry),
      entryDueNow s i.val e = true →
      skipStatus s e = none →
      busy s i.val e = true ∨ keptBack s i.val e = true ∨ seqBlocks s e = true →
      e.st = .pending →
      ∃ t, exec (.entryDue i) s = .next t
        ∧ (ttGet t i.val).map (·.st) = some .waiting
        ∧ t.tt.evt.getLsbD 3 = true
        ∧ t.lf = s.lf
        ∧ t.uhf = s.uhf
        ∧ t.job = s.job)
  ∧ (∀ (s : State) (i : Fin 256) (e : Entry) (st : Status) (g : Nat),
      entryDueNow s i.val e = true →
      skipStatus s e = some st →
      e.owner = .job g →
      e.periodic = false →
      e.kind ≠ 10 →
      ∃ t, exec (.entryDue i) s = .next t
        ∧ ttGet t i.val = none
        ∧ t.job = (opEnd g st false [] s).job
        ∧ t.lf = s.lf
        ∧ t.uhf = s.uhf)
  ∧ (∀ (s : State) (i : Fin 256) (e : Entry),
      ttGet s i.val = some e →
      e.st = .waiting →
      e.excluded s = false →
      entryFree s i.val e = true →
      e.kind = 7 →
      ∃ t, exec (.entryWaitEnd i) s = .next t
        ∧ (ttGet t i.val).map (·.st) = some .running
        ∧ (vget t.uhf.wrx (e.unit % 6) Wrx.reset).on = true)
  ∧ (∀ (s : State) (i : Fin 256) (e : Entry),
      ttGet s i.val = some e →
      e.st = .waiting →
      e.excluded s = false →
      entryFree s i.val e = true →
      e.kind = 1 →
      vdrvInWindow s = true →
      frameDrives s e = true →
      ∃ t, exec (.entryWaitEnd i) s = .next t
        ∧ (ttGet t i.val).map (·.st) = some .running
        ∧ t.lf.lastFrame = frameAir (frameBlock s e))
  ∧ (∀ (s : State) (i : Fin 256) (e : Entry),
      ttGet s i.val = some e →
      e.st = .waiting →
      e.excluded s = false →
      entryFree s i.val e = true →
      e.kind = 4 ∨ e.kind = 5 →
      e.trxs.all (fun n => (trxGet s n).lock = some ((bandOf (uhfFreq s e)).getD 4, uhfFreq s e)) = true →
      ∃ t, exec (.entryWaitEnd i) s = .next t
        ∧ (ttGet t i.val).map (·.st) = some .running
        ∧ (trxGet t (e.unit % 2)).st = (if e.kind = 4 then .receive else .transmit))
  ∧ (∀ (s : State) (i : Fin 256) (e : Entry),
      ttGet s i.val = some e →
      e.st = .waiting →
      e.excluded s = false →
      entryFree s i.val e = true →
      e.kind = 9 →
      ∃ t, exec (.entryWaitEnd i) s = .next t
        ∧ (tpoGet t (e.unit % 4)).en = true
        ∧ (tpoGet t (e.unit % 4)).target = e.due)
  ∧ (∀ (s : State) (i : Fin 256) (e : Entry) (x : Nat),
      ttGet s i.val = some e →
      e.st = .waiting →
      e.kind = 2 →
      e.holdUntil = some x →
      s.sup.vdrvOn = true →
      entryFree s i.val e = true →
      nothingMapped s = false →
      (pingDrive s e).kept ≠ [] →
      s.sup.vdrvSet ≤ 255 →
      ∃ t, exec (.vdrvWindowReached i) s = .next t
        ∧ (ttGet t i.val).map (·.st) = some .running
        ∧ drivenMask t = BitVec.ofNat 16 (maskOf (pingDrive s e).kept))
  ∧ (∀ (s : State) (i : Fin 256) (e : Entry) (x : Nat),
      ttGet s i.val = some e →
      e.st = .waiting →
      e.kind = 3 →
      e.holdUntil = some x →
      s.sup.vdrvOn = true →
      entryFree s i.val e = true →
      nothingMapped s = false →
      scanNamed (scanBlock s e) = [] ∨ (scanNamed (scanBlock s e)).any (fun w => chInService s w.ch) = true →
      s.sup.vdrvSet ≤ 255 →
      ∃ t, exec (.vdrvWindowReached i) s = .next t
        ∧ (ttGet t i.val).map (·.st) = some .running
        ∧ (ttGet t i.val).map (·.pats) = some 0)
  ∧ (∀ (s : State) (i : Fin 256) (e : Entry) (x : Nat),
      ttGet s i.val = some e →
      e.st = .waiting →
      e.kind = 1 →
      e.holdUntil = some x →
      s.sup.vdrvOn = true →
      entryFree s i.val e = true →
      frameDrives s e = true →
      s.sup.vdrvSet ≤ 255 →
      ∃ t, exec (.vdrvWindowReached i) s = .next t
        ∧ (ttGet t i.val).map (·.st) = some .running
        ∧ t.lf.lastFrame = frameAir (frameBlock s e)
        ∧ t.sup.vdrvReadyAt = min s.sup.vdrvReadyAt s.elapsed)

/-- LF_FRAME_COMPLETE of a job's frame whose end and whose reply have passed: the entry goes, its round holds the drive, the
frame is counted and the job ends with the reply's status and result. SCAN_PATTERN_START with a pattern left: the drive
of R233 for it, its record appended. SCAN_COMPLETE of a job's scan whose patterns have all run: the entry goes, every
channel is off and the job ends with its records. PING_COMPLETE of a settings ping on a channel without a baseline: the
measurement, divided by k towards zero, becomes the baseline; with a baseline and a change: event bit 5 is set; without
a change the baseline moves by the shifted difference. Without a change every channel is off. ROUND_END at the round's
instant with no frame due and no LF action running: the hold ends and every channel is off. -/
def Obligations.LfActionsEnd : Prop :=
  (∀ (s : State) (i : Fin 256) (e : Entry) (env : LfFrameEnv) (g : Nat),
      ttGet s i.val = some e →
      e.kind = 1 →
      e.st = .running →
      e.owner = .job g →
      e.periodic = false →
      e.cut = none →
      e.endAt ≤ s.xo →
      frameClose s e env ≤ s.xo →
      ∃ t, exec (.lfFrameComplete i env) s = .next t
        ∧ ttGet t i.val = none
        ∧ t.lf.round = true
        ∧ t.kl.frames = satInc 65535 s.kl.frames
        ∧ t.job = (opEnd g (lateStatus e (frameReply s e env).st) e.late (frameResult e env.sat env.limited (frameReply s e env)) s).job)
  ∧ (∀ (s : State) (i : Fin 256) (e : Entry) (env : PatternEnv),
      ttGet s i.val = some e →
      e.kind = 3 →
      e.st = .running →
      e.cut = none →
      e.endAt ≤ s.xo →
      e.pats < scanCount (scanBlock s e) →
      ∃ t, exec (.scanPatternStart i env) s = .next t
        ∧ (ttGet t i.val).map (·.pats) = some (e.pats + 1)
        ∧ t.sup.lfScale = (driveOf s (scanIfs (scanBlock s e)) ((scanPatterns (scanBlock s e)).getD e.pats []) 255).k
        ∧ drivenMask t = BitVec.ofNat 16 (maskOf (driveOf s (scanIfs (scanBlock s e)) ((scanPatterns (scanBlock s e)).getD e.pats []) 255).kept)
        ∧ (ttGet t i.val).map (·.recs.length) = some (e.recs.length + 8))
  ∧ (∀ (s : State) (i : Fin 256) (e : Entry) (g : Nat),
      ttGet s i.val = some e →
      e.kind = 3 →
      e.st = .running →
      e.owner = .job g →
      e.periodic = false →
      e.cut = none →
      e.endAt ≤ s.xo →
      scanCount (scanBlock s e) ≤ e.pats →
      ∃ t, exec (.scanComplete i) s = .next t
        ∧ ttGet t i.val = none
        ∧ drivenMask t = 0
        ∧ t.job = (opEnd g (lateStatus e .ok) e.late (scanResult e) s).job)
  ∧ (∀ (s : State) (i : Fin 256) (e : Entry) (re im : Int),
      ttGet s i.val = some e →
      e.kind = 2 →
      e.st = .running →
      e.owner = .settings →
      e.cut = none →
      e.endAt ≤ s.xo →
      (chGet s (e.unit % 16)).base = none →
      ∃ t, exec (.pingComplete i re im) s = .next t
        ∧ (chGet t (e.unit % 16)).base = some ((re * 1024).tdiv (max 1 e.k : Nat), (im * 1024).tdiv (max 1 e.k : Nat))
        ∧ drivenMask t = 0
        ∧ t.sup.lfScale = s.sup.lfScale)
  ∧ (∀ (s : State) (i : Fin 256) (e : Entry) (re im : Int) (b : Int × Int),
      ttGet s i.val = some e →
      e.kind = 2 →
      e.st = .running →
      e.owner = .settings →
      e.cut = none →
      e.endAt ≤ s.xo →
      (chGet s (e.unit % 16)).base = some b →
      pingChange (pingSet s e) ((re * 1024).tdiv (max 1 e.k : Nat), (im * 1024).tdiv (max 1 e.k : Nat)) b = true →
      ∃ t, exec (.pingComplete i re im) s = .next t
        ∧ t.lf.evt.getLsbD 5 = true
        ∧ (t.pwr.st = s.pwr.st ∨ t.pwr.st = .run))
  ∧ (∀ (s : State) (i : Fin 256) (e : Entry) (re im : Int) (b : Int × Int),
      ttGet s i.val = some e →
      e.kind = 2 →
      e.st = .running →
      e.owner = .settings →
      e.cut = none →
      e.endAt ≤ s.xo →
      (chGet s (e.unit % 16)).base = some b →
      pingChange (pingSet s e) ((re * 1024).tdiv (max 1 e.k : Nat), (im * 1024).tdiv (max 1 e.k : Nat)) b = false →
      ∃ t, exec (.pingComplete i re im) s = .next t
        ∧ (chGet t (e.unit % 16)).base = some (pingBase (u8 (pingSet s e) 7) ((re * 1024).tdiv (max 1 e.k : Nat), (im * 1024).tdiv (max 1 e.k : Nat)) b)
        ∧ drivenMask t = 0
        ∧ t.lf.evt = s.lf.evt)
  ∧ (∀ (s : State),
      s.lf.round = true →
      s48 s.lf.roundDue (now48 s) ≤ 0 →
      (ttAll s).any (fun x => x.2.kind = 1 && x.2.st != .suspended && decide (x.2.due = s.lf.roundDue)) = false →
      (ttAll s).any (fun x => x.2.isLf && x.2.st == .running) = false →
      ∃ t, exec (.roundEnd) s = .next t
        ∧ t.lf.round = false
        ∧ drivenMask t = 0)

/-- LF_CHANNEL_SHORT of a channel in service, and LF_CHANNEL_OPEN of a driven channel in service whose coil current is below
a quarter of its setting: the channel is excluded with the fault's code, counted, event bit 0 is set and it is no longer
driven. LF_CHANNEL_RETEST of an excluded channel whose retest is due, with the LF drive free and VDRV allowed: clean and
within 50 % of the tuned impedance it is back in service with event bit 6; otherwise it stays excluded, a fault is
counted and no further retest follows at once; before its instant it changes nothing of the channel. -/
def Obligations.LfChannelFaults : Prop :=
  (∀ (s : State) (ch : Fin 16) (kind : ShortKind),
      (chGet s ch.val).st = 1 →
      ∃ t, exec (.lfChannelShort ch kind) s = .next t
        ∧ (chGet t ch.val).st = 2
        ∧ (chGet t ch.val).lastFault = shortCode kind
        ∧ (chGet t ch.val).faults = satInc 255 (chGet s ch.val).faults
        ∧ t.lf.evt.getLsbD 0 = true
        ∧ (drivenMask t).getLsbD ch.val = false)
  ∧ (∀ (s : State) (ch : Fin 16) (coil set_ : Nat),
      (chGet s ch.val).st = 1 →
      4 * coil < set_ →
      (drivenMask s).getLsbD ch.val = true →
      ∃ t, exec (.lfChannelOpen ch coil set_) s = .next t
        ∧ (chGet t ch.val).st = 2
        ∧ (chGet t ch.val).lastFault = 3
        ∧ t.lf.evt.getLsbD 0 = true
        ∧ (drivenMask t).getLsbD ch.val = false)
  ∧ (∀ (s : State) (ch : Fin 16) (clean : Bool) (z : Nat),
      (chGet s ch.val).st = 2 →
      (chGet s ch.val).retest = true →
      (chGet s ch.val).retestAfter ≤ s.elapsed →
      lfActive s = false →
      vdrvAllowed s = true →
      clean = true →
      2 * ((z : Int) - (chGet s ch.val).zmag).natAbs ≤ (chGet s ch.val).zmag →
      ∃ t, exec (.lfChannelRetest ch clean z) s = .next t
        ∧ (chGet t ch.val).st = 1
        ∧ (chGet t ch.val).retest = false
        ∧ t.lf.evt.getLsbD 6 = true)
  ∧ (∀ (s : State) (ch : Fin 16) (clean : Bool) (z : Nat),
      (chGet s ch.val).st = 2 →
      (chGet s ch.val).retest = true →
      (chGet s ch.val).retestAfter ≤ s.elapsed →
      lfActive s = false →
      vdrvAllowed s = true →
      clean = false ∨ (chGet s ch.val).zmag < 2 * ((z : Int) - (chGet s ch.val).zmag).natAbs →
      ∃ t, exec (.lfChannelRetest ch clean z) s = .next t
        ∧ (chGet t ch.val).st = 2
        ∧ (chGet t ch.val).faults = satInc 255 (chGet s ch.val).faults
        ∧ (chGet t ch.val).retestAfter = s.elapsed + tMs 100
        ∧ (chGet t ch.val).retest = false
        ∧ t.diag = s.diag)

/-- RX_WINDOW_COMPLETE of a job's window that has received a telegram or has ended, TX_WINDOW_COMPLETE of a job's
transmission at its end, and RANGING_COMPLETE of a job's exchange at its end with the generator serving and not latched:
the entry goes and the job ends with the status and result bytes of R326 and R340, R341, or R371. WRX_MATCH of a
receiver that listens, with no more misses than the plan allows: not blind since the pattern began, it is counted with
event bit 4; blind, exactly event bit 6. WRX_WINDOW_END of a settings window at its end: the receiver is off and free,
or, when the next occurrence's preparation is due, on; no transceiver changes. -/
def Obligations.UhfActionsEnd : Prop :=
  (∀ (s : State) (i : Fin 256) (e : Entry) (tels : List RxTelegram) (peak : BitVec 16) (g : Nat) (f : RxFound),
      ttGet s i.val = some e →
      e.kind = 4 →
      e.st = .running →
      e.owner = .job g →
      e.periodic = false →
      f = rxSearch (winMax (e.profile s)) (tels.filter (fun x => syncAccepted (e.profile s) x && syncInside e (winLen (e.profile s)) x)) { syncs := 0, crcs := 0, lens := 0, tel := none } →
      f.tel.isSome = true ∨ e.endAt ≤ s.xo →
      ∃ t, exec (.rxWindowComplete i tels peak) s = .next t
        ∧ ttGet t i.val = none
        ∧ t.job = (opEnd g (lateStatus e (rxStatus f)) e.late (rxResult e (calFailed s e) f peak) s).job)
  ∧ (∀ (s : State) (i : Fin 256) (e : Entry) (g : Nat),
      ttGet s i.val = some e →
      e.kind = 5 →
      e.st = .running →
      e.owner = .job g →
      e.periodic = false →
      e.endAt ≤ s.xo →
      ∃ t, exec (.txWindowComplete i) s = .next t
        ∧ ttGet t i.val = none
        ∧ t.job = (opEnd g (lateStatus e .ok) e.late (txResult e (telWin (e.profile s))) s).job)
  ∧ (∀ (s : State) (i : Fin 256) (e : Entry) (env : RangingEnv) (g : Nat),
      ttGet s i.val = some e →
      e.kind = 6 →
      e.st = .running →
      e.owner = .job g →
      e.periodic = false →
      e.endAt - tUs 4956 + tNs (rangingEndNs env) ≤ s.xo →
      rngServes s = true →
      s.rng.latched = false →
      ∃ t, exec (.rangingComplete i env) s = .next t
        ∧ ttGet t i.val = none
        ∧ t.job = (opEnd g (lateStatus e (rangeOut s e env).st) e.late (rangeOut s e env).bytes s).job)
  ∧ (∀ (s : State) (n : Fin 6) (chips : BitVec 64) (j : Nat) (e : Entry),
      (vget s.uhf.wrx n.val Wrx.reset).entry = some j →
      ttGet s j = some e →
      (vget s.uhf.wrx n.val Wrx.reset).on = true →
      patMisses (patPlan s e) chips ≤ patMiss (patPlan s e) →
      (trxGet s (n.val / 3)).blindUntil ≤ s.xo - patSpan (patPlan s e) →
      ∃ t, exec (.wrxMatch n chips) s = .next t
        ∧ (vget t.uhf.wrx n.val Wrx.reset).hits = satInc 65535 (vget s.uhf.wrx n.val Wrx.reset).hits
        ∧ t.uhf.evt.getLsbD 4 = true)
  ∧ (∀ (s : State) (n : Fin 6) (chips : BitVec 64) (j : Nat) (e : Entry),
      (vget s.uhf.wrx n.val Wrx.reset).entry = some j →
      ttGet s j = some e →
      (vget s.uhf.wrx n.val Wrx.reset).on = true →
      patMisses (patPlan s e) chips ≤ patMiss (patPlan s e) →
      s.xo - patSpan (patPlan s e) < (trxGet s (n.val / 3)).blindUntil →
      exec (.wrxMatch n chips) s = .next (settle s (evUhf 6 s)))
  ∧ (∀ (s : State) (n : Fin 6) (i : Nat) (e : Entry),
      (vget s.uhf.wrx n.val Wrx.reset).entry = some i →
      ttGet s i = some e →
      e.kind = 7 →
      e.st = .running →
      e.owner = .settings →
      e.endAt ≤ s.xo →
      (e.periodic && (e.count = 0 || decide (1 < e.remain)) && e.sig.isNone && decide (s48 (nextDue e e.start).due (now48 s) ≤ 300000)) = false →
      ∃ t, exec (.wrxWindowEnd n) s = .next t
        ∧ (vget t.uhf.wrx n.val Wrx.reset).on = false
        ∧ (vget t.uhf.wrx n.val Wrx.reset).entry = none
        ∧ t.uhf.trx = s.uhf.trx)
  ∧ (∀ (s : State) (n : Fin 6) (i : Nat) (e : Entry),
      (vget s.uhf.wrx n.val Wrx.reset).entry = some i →
      (vget s.uhf.wrx n.val Wrx.reset).on = true →
      ttGet s i = some e →
      e.kind = 7 →
      e.st = .running →
      e.owner = .settings →
      e.periodic = true →
      e.count = 0 ∨ 1 < e.remain →
      e.sig = none →
      s48 (nextDue e e.start).due (now48 s) ≤ 300000 →
      ∃ t, exec (.wrxWindowEnd n) s = .next t
        ∧ (vget t.uhf.wrx n.val Wrx.reset).on = true
        ∧ t.uhf.trx = s.uhf.trx)

/-- TRX_SLEEP_TIMEOUT after 1 ms in Standby with no entry that wants the transceiver: exactly Sleep, unlocked.
TRX_LOCK_TIMEOUT of a transceiver in Synth that prepares and has not retried: with lock the second time it stays in
Synth, retried, with event bit 1; without it Sleep with event bit 2, and a job's one-shot entry goes and its job ends
NOT_READY; with no preparation, or retried already, nothing. CAL_TEMPERATURE_READ: the temperature, and the bands that
R318 makes due; the clock changes in holdover alone. UHF_CAL_START of a due band in an idle gap: exactly Synth and the
calibration. UHF_CAL_COMPLETE of a running calibration: the band is valid, not due, its failure bit and event as the
steps say, its temperature kept. UHF_CAL_CMD from page 1 with key 0xCA1B while pair B is powered after READY: the fitted
bands asked for are due; with another key or from another page UHF does not change. -/
def Obligations.TransceiverUpkeep : Prop :=
  (∀ (s : State) (n : Fin 2) (x : Nat),
      (trxGet s n.val).st = .standby →
      (trxGet s n.val).sleepAt = some x →
      x ≤ s.xo →
      trxWanted s n.val = false →
      exec (.trxSleepTimeout n) s = .next (settle s (trxMod n.val (fun x => { x with st := .sleep, lock := none, sleepAt := none }) s)))
  ∧ (∀ (s : State) (n : Fin 2) (i : Nat) (e : Entry),
      trxPreparing s n.val = some (i, e) →
      (trxGet s n.val).st = .synth →
      (trxGet s n.val).retried = false →
      ∃ t, exec (.trxLockTimeout n true) s = .next t
        ∧ (trxGet t n.val).retried = true
        ∧ (trxGet t n.val).st = .synth
        ∧ t.uhf.evt.getLsbD 1 = true
        ∧ (ttGet t i).map (·.st) = some e.st)
  ∧ (∀ (s : State) (n : Fin 2) (i g : Nat) (e : Entry),
      trxPreparing s n.val = some (i, e) →
      (trxGet s n.val).st = .synth →
      (trxGet s n.val).retried = false →
      e.owner = .job g →
      e.periodic = false →
      ∃ t, exec (.trxLockTimeout n false) s = .next t
        ∧ (trxGet t n.val).st = .sleep
        ∧ (trxGet t n.val).lock = none
        ∧ t.uhf.evt.getLsbD 2 = true
        ∧ ttGet t i = none
        ∧ (∀ o ∈ s.job.ops, o.tag = g → o.result = none → ∃ o' ∈ t.job.ops, o'.tag = g ∧ o'.result.map (·.1) = some .notReady))
  ∧ (∀ (s : State) (n : Fin 2) (relocked : Bool),
      trxPreparing s n.val = none ∨ (trxGet s n.val).st ≠ .synth ∨ (trxGet s n.val).retried = true →
      exec (.trxLockTimeout n relocked) s = .next (settle s (s)))
  ∧ (∀ (s : State) (tc : Int),
      ∃ t, exec (.calTemperatureRead tc) s = .next t
        ∧ t.uhf.temp = tc
        ∧ (∀ n < 2, (trxGet t n).due = tempDue s n tc (trxGet s n))
        ∧ (s.clk.mode ≠ .holdover → t.clk = s.clk))
  ∧ (∀ (s : State) (n : Fin 2) (b : Fin 4),
      uhfOn s = true →
      (trxGet s n.val).due.getLsbD b.val = true →
      (trxGet s n.val).cal = none →
      (trxGet s n.val).st = .sleep ∨ (trxGet s n.val).st = .standby →
      prepSoon s n.val = false →
      exec (.uhfCalStart n b) s = .next (settle s (trxMod n.val (fun x => { x with st := .synth, lock := none, sleepAt := none, cal := some (b.val, s.xo + tUs 400) }) s)))
  ∧ (∀ (s : State) (n : Fin 2) (failed : BitVec 4) (b x : Nat),
      (trxGet s n.val).cal = some (b, x) →
      b < 4 →
      ∃ t, exec (.uhfCalComplete n failed) s = .next t
        ∧ (trxGet t n.val).cal = none
        ∧ (trxGet t n.val).valid.getLsbD b = true
        ∧ (trxGet t n.val).due.getLsbD b = false
        ∧ (trxGet t n.val).fail.getLsbD b = decide (failed ≠ 0)
        ∧ (failed ≠ 0 → t.uhf.evt.getLsbD 0 = true)
        ∧ vget (trxGet t n.val).temp b 0 = calTempCode s.uhf.temp)
  ∧ (∀ (s : State) (w : Word),
      s.boot.ready = true →
      ppbOn s = true →
      w.toNat / 65536 = 0xCA1B →
      ∃ t, exec (.uhfCalCmd 1 w) s = .next t
        ∧ (∀ n < 2, (trxGet t n).due = (if w.toNat.testBit n then bandsAsked s w.toNat n (trxGet s n).due else (trxGet s n).due))
        ∧ t.spi.status = .ok)
  ∧ (∀ (s : State) (page : Fin 8) (w : Word),
      page ≠ 1 ∨ w.toNat / 65536 ≠ 0xCA1B →
      ∃ t, exec (.uhfCalCmd page w) s = .next t
        ∧ t.uhf = s.uhf)

/-- QUEUED_TRIGGER_START with the engine free: a passive trigger whose checks pass opens its sequence at the wake stage; one
whose first check fails is recorded with its status and event bit 2; the queue moves on. WAKE_FRAME_REPEAT 12 ms after
the last message with no further ID: the sequence is at the wake stage again, repeated. FUSION of a start whose columns
all hold, measured, with the grant's writes accepted and no cause that bars the grant: the latch and both outputs in
permit, the session open, HOLD_S running, event bit 0, the outcome OK; of an entry whose columns hold: the outcome OK
and no grant; with a failing column and no key left to serve: that status with event bit 2; at T_OFF: NOT_READY; before
the measurement an entry or start that would write waits. Without a grant the latch is as it was, and in deny under a
deny level. -/
def Obligations.AccessSequences : Prop :=
  (∀ (s : State) (kind pin : Nat) (r : List (Nat × Nat)),
      s.acc.queue = (kind, pin) :: r →
      accBusy s = false →
      kind = 1 ∨ kind = 2 →
      preCheck s = none →
      recUsable s (pfRec s.acc.profile pin) = true →
      (freeIndex s 0).isSome = true →
      ∃ t, exec (.queuedTriggerStart) s = .next t
        ∧ t.acc.queue = r
        ∧ t.acc.seqn.map (·.kind) = some kind
        ∧ t.acc.seqn.map (·.pin) = some pin
        ∧ t.acc.seqn.map (·.stage) = some .wake
        ∧ t.permit.latch = (s.permit.latch && !denyLevel s))
  ∧ (∀ (s : State) (kind pin : Nat) (r : List (Nat × Nat)) (st : Status),
      s.acc.queue = (kind, pin) :: r →
      accBusy s = false →
      kind = 1 ∨ kind = 2 ∨ kind = 3 →
      preCheck s = some st →
      ∃ t, exec (.queuedTriggerStart) s = .next t
        ∧ t.acc.queue = r
        ∧ t.acc.seqn = none
        ∧ t.acc.lastKind = kind
        ∧ t.acc.lastStatus = st
        ∧ t.acc.lastCred = 255
        ∧ t.acc.evt.getLsbD 2 = true)
  ∧ (∀ (s : State) (q : Seqn),
      s.acc.seqn = some q →
      q.stage = .repeatGap →
      q.msgAt = 0 ∨ q.msgAt + tMs 12 ≤ s.elapsed →
      q.ids = [] →
      (freeIndex s 0).isSome = true →
      ∃ t, exec (.wakeFrameRepeat) s = .next t
        ∧ t.acc.seqn.map (·.stage) = some .wake
        ∧ t.acc.seqn.map (·.repeated) = some true
        ∧ t.acc.seqn.map (·.served) = some q.served
        ∧ t.permit.latch = (s.permit.latch && !denyLevel s))
  ∧ (∀ (s : State) (mv : Nat) (q : Seqn),
      s.acc.seqn = some q →
      q.stage = .fuse →
      q.kind = 2 →
      (fuse s q).fail = none →
      s.sup.measured = true →
      (grant (q.cred.getD 255) false (seeVhold mv s)).1 = .ok →
      grantBarred s = false →
      ∃ t, exec (.fusion mv) s = .next t
        ∧ t.permit.latch = true
        ∧ t.permit.spA = true
        ∧ t.permit.spB = true
        ∧ t.acc.sessOpen = true
        ∧ t.acc.grantCred = q.cred.getD 255
        ∧ t.acc.grantBackup = false
        ∧ t.acc.evt.getLsbD 0 = true
        ∧ t.acc.seqn = none
        ∧ t.acc.lastKind = 2
        ∧ t.acc.lastStatus = .ok
        ∧ t.acc.holdUntil = some (s.elapsed + tS (pfHold s.acc.profile))
        ∧ t.acc.decisions = s.acc.decisions + 1)
  ∧ (∀ (s : State) (mv : Nat) (q : Seqn),
      s.acc.seqn = some q →
      q.stage = .fuse →
      q.kind = 1 →
      (fuse s q).fail = none →
      s.sup.thermOff = false →
      s.sup.measured = true →
      (credGet s (q.cred.getD 255)).counter > 127 →
      ∃ t, exec (.fusion mv) s = .next t
        ∧ t.acc.seqn = none
        ∧ t.acc.lastKind = 1
        ∧ t.acc.lastStatus = .ok
        ∧ t.acc.lastCred = q.cred.getD 255
        ∧ t.permit.latch = (s.permit.latch && !denyLevel s))
  ∧ (∀ (s : State) (mv : Nat) (q : Seqn) (st : Status),
      s.acc.seqn = some q →
      q.stage = .fuse →
      q.kind = 1 →
      s.sup.thermOff = false →
      (fuse s q).fail = some st →
      st.good = false →
      pfMaxKeys s.acc.profile ≤ q.served.length →
      ∃ t, exec (.fusion mv) s = .next t
        ∧ t.acc.seqn = none
        ∧ t.acc.lastKind = 1
        ∧ t.acc.lastStatus = st
        ∧ t.acc.evt.getLsbD 2 = true
        ∧ t.permit.latch = (s.permit.latch && !denyLevel s))
  ∧ (∀ (s : State) (mv : Nat) (q : Seqn),
      s.acc.seqn = some q →
      q.stage = .fuse →
      q.kind = 2 →
      (fuse s q).fail = none →
      s.sup.measured = true →
      s.sup.thermOff = false →
      s.acc.sessOpen = true →
      (credGet s (q.cred.getD 255)).counter > 127 →
      grantBarred s = false →
      ∃ t, exec (.fusion mv) s = .next t
        ∧ t.permit.latch = true
        ∧ t.permit.spA = true
        ∧ t.permit.spB = true
        ∧ t.acc.sessOpen = true
        ∧ t.acc.session = s.acc.session
        ∧ t.acc.grantCred = q.cred.getD 255
        ∧ t.acc.seqn = none
        ∧ t.acc.lastKind = 2
        ∧ t.acc.lastStatus = .ok
        ∧ t.acc.holdUntil = some (s.elapsed + tS (pfHold s.acc.profile)))
  ∧ (∀ (s : State) (mv : Nat) (q : Seqn),
      s.acc.seqn = some q →
      q.stage = .fuse →
      q.kind ≠ 3 →
      s.sup.thermOff = true →
      ∃ t, exec (.fusion mv) s = .next t
        ∧ t.acc.seqn = none
        ∧ t.acc.lastStatus = .notReady
        ∧ t.acc.evt.getLsbD 2 = true
        ∧ t.permit.latch = (s.permit.latch && !denyLevel s))
  ∧ (∀ (s : State) (mv : Nat) (q : Seqn),
      s.acc.seqn = some q →
      q.stage = .fuse →
      q.kind = 1 ∨ q.kind = 2 →
      (fuse s q).fail = none →
      s.sup.thermOff = false →
      s.sup.measured = false →
      exec (.fusion mv) s = .next (settle s ({ s with sup.vhold := mv })))

/-- TOKEN_SLOT from 0.5 ms before its instant, in permit with the session open, the slot's key readable and the generator
serving: the token, SEQ one on, the token's instant, the latch still in permit, the grid going on; after a withdraw with
deny tokens left: a deny token, SEQ one on, one fewer left, the latch in deny. TOKEN_LOSS in permit 30 ms after the last
token: latch and outputs in deny, the session closed with no deny tokens, event bit 3. HOLD_EXPIRY with the session
open: deny, closed, three deny tokens, event bit 1, one decision more. RESYNC_CANDIDATE_EXPIRY of a candidate that has
expired: exactly its removal. -/
def Obligations.PermitSession : Prop :=
  (∀ (s : State) (e : Entry) (tok : Bytes),
      s.acc.slot = some e →
      s48 e.due (now48 s) ≤ 500000 →
      s.permit.latch = true →
      denyLevel s = false →
      s.acc.sessOpen = true →
      s.permit.tokenAt + tUs 500 ≤ s.xo + tNs (s48 e.due (now48 s)).toNat →
      tokenBytes s true e.due = some tok →
      rngServes s = true →
      ∃ t, exec (.tokenSlot) s = .next t
        ∧ t.acc.token = tok
        ∧ t.acc.tokenSeq = s.acc.seq
        ∧ t.acc.seq = (s.acc.seq + 1) % 2 ^ 32
        ∧ t.permit.tokenAt = s.xo
        ∧ t.acc.issuedAt = s.elapsed
        ∧ t.permit.latch = true
        ∧ t.acc.slot.isSome = true)
  ∧ (∀ (s : State) (e : Entry) (tok : Bytes),
      s.acc.slot = some e →
      s48 e.due (now48 s) ≤ 500000 →
      s.permit.latch = false →
      s.acc.sessOpen = false →
      0 < s.acc.denyLeft →
      tokenBytes s false e.due = some tok →
      tok ≠ s.acc.token →
      rngServes s = true →
      ∃ t, exec (.tokenSlot) s = .next t
        ∧ t.acc.token = tok
        ∧ t.acc.tokenSeq = s.acc.seq
        ∧ t.acc.seq = (s.acc.seq + 1) % 2 ^ 32
        ∧ t.acc.denyLeft = s.acc.denyLeft - 1
        ∧ t.permit.latch = false)
  ∧ (∀ (s : State),
      s.permit.latch = true →
      s.permit.tokenAt + tMs 30 ≤ s.xo →
      ∃ t, exec (.tokenLoss) s = .next t
        ∧ t.permit.latch = false
        ∧ t.permit.spA = false
        ∧ t.permit.spB = false
        ∧ t.acc.sessOpen = false
        ∧ t.acc.denyLeft = 0
        ∧ t.acc.evt.getLsbD 3 = true)
  ∧ (∀ (s : State) (x : Nat),
      s.acc.holdUntil = some x →
      x ≤ s.elapsed →
      s.acc.sessOpen = true →
      ∃ t, exec (.holdExpiry) s = .next t
        ∧ t.permit.latch = false
        ∧ t.permit.spA = false
        ∧ t.permit.spB = false
        ∧ t.acc.sessOpen = false
        ∧ t.acc.denyLeft = 3
        ∧ t.acc.holdUntil = none
        ∧ t.acc.evt.getLsbD 1 = true
        ∧ t.acc.decisions = s.acc.decisions + 1)
  ∧ (∀ (s : State) (c : Fin 256),
      s.acc.resync.any (fun r => r.cred = c.val && decide (r.until_ ≤ s.elapsed)) = true →
      exec (.resyncCandidateExpiry c) s = .next (settle s ({ s with acc.resync := s.acc.resync.filter (fun r => !(r.cred = c.val && decide (r.until_ ≤ s.elapsed))) })))

/-- RING_PI_WRITE of the page's own enabled ring: within DEPTH of FI the value is taken, beyond it PI stays and FULL is set;
of a ring that is not enabled the job state stays; of another page's ring too, and page 1 reads DENIED. RING_ENABLE of
the page's own ring that is not enabled, with both spans in its grant: EN, DEPTH, class and GATED from the word, not
stopped, the next SEQ_NO taken as it comes; outside the grant, of an enabled ring or of another page's ring the job
state stays. RING_DISABLE of the page's own ring: EN and, if it was set, the credit are cleared, PI, FI and the
operations stay; if it was clear DEPTH, class and GATED are taken. RING_CQ_CI_WRITE of the page's own ring: CQ_CI is
taken unless it lies beyond CQ_PI; of another's the job state stays. -/
def Obligations.RingSubmission : Prop :=
  (∀ (s : State) (page : Fin 8) (ring : Fin 32) (pi : BitVec 16),
      pageLive s page.val = true →
      ringPage ring.val = page.val →
      (ringGet s ring.val).en = true →
      (pi - (ringGet s ring.val).fi).toNat ≤ depthOf (ringGet s ring.val).depth →
      ∃ t, exec (.ringPiWrite page ring pi) s = .next t
        ∧ (ringGet t ring.val).pi = pi
        ∧ (ringGet t ring.val).full = (ringGet s ring.val).full
        ∧ (ringGet t ring.val).fi = (ringGet s ring.val).fi)
  ∧ (∀ (s : State) (page : Fin 8) (ring : Fin 32) (pi : BitVec 16),
      pageLive s page.val = true →
      ringPage ring.val = page.val →
      (ringGet s ring.val).en = true →
      pi ≠ (ringGet s ring.val).pi →
      depthOf (ringGet s ring.val).depth < (pi - (ringGet s ring.val).fi).toNat →
      ∃ t, exec (.ringPiWrite page ring pi) s = .next t
        ∧ (ringGet t ring.val).pi = (ringGet s ring.val).pi
        ∧ (ringGet t ring.val).full = true)
  ∧ (∀ (s : State) (page : Fin 8) (ring : Fin 32) (pi : BitVec 16),
      pageLive s page.val = true →
      ringPage ring.val ≠ page.val →
      ∃ t, exec (.ringPiWrite page ring pi) s = .next t
        ∧ t.job = s.job
        ∧ (page = 1 → t.spi.status = .denied))
  ∧ (∀ (s : State) (page : Fin 8) (ring : Fin 32) (pi : BitVec 16),
      pageLive s page.val = true →
      ringPage ring.val = page.val →
      (ringGet s ring.val).en = false →
      ∃ t, exec (.ringPiWrite page ring pi) s = .next t
        ∧ t.job = s.job)
  ∧ (∀ (s : State) (page : Fin 8) (ring : Fin 32) (cfg : Word),
      pageLive s page.val = true →
      (ringGet s ring.val).en = true ∨ ringPage ring.val ≠ page.val →
      ∃ t, exec (.ringEnable page ring cfg) s = .next t
        ∧ t.job = s.job)
  ∧ (∀ (s : State) (page : Fin 8) (ring : Fin 32) (cfg : Word),
      pageLive s page.val = true →
      ringPage ring.val = page.val →
      (ringGet s ring.val).en = false →
      inGrant s page.val (ringGet s ring.val).dbase (64 * depthOf (cfg.toNat % 8)) = true →
      inGrant s page.val (ringGet s ring.val).cbase (32 * depthOf (cfg.toNat % 8)) = true →
      ∃ t, exec (.ringEnable page ring cfg) s = .next t
        ∧ (ringGet t ring.val).en = true
        ∧ (ringGet t ring.val).stopped = false
        ∧ (ringGet t ring.val).expect = none
        ∧ (ringGet t ring.val).depth = cfg.toNat % 8
        ∧ (ringGet t ring.val).cls = cfg.toNat / 8 % 4
        ∧ (ringGet t ring.val).gated = cfg.getLsbD 5)
  ∧ (∀ (s : State) (page : Fin 8) (ring : Fin 32) (cfg : Word),
      pageLive s page.val = true →
      ringPage ring.val = page.val →
      (ringGet s ring.val).en = false →
      inGrant s page.val (ringGet s ring.val).dbase (64 * depthOf (cfg.toNat % 8)) = false ∨ inGrant s page.val (ringGet s ring.val).cbase (32 * depthOf (cfg.toNat % 8)) = false →
      ∃ t, exec (.ringEnable page ring cfg) s = .next t
        ∧ t.job = s.job)
  ∧ (∀ (s : State) (page : Fin 8) (ring : Fin 32) (cfg : Word),
      pageLive s page.val = true →
      ringPage ring.val = page.val →
      (ringGet s ring.val).en = true →
      ∃ t, exec (.ringDisable page ring cfg) s = .next t
        ∧ (ringGet t ring.val).en = false
        ∧ (ringGet t ring.val).credit = 0
        ∧ (ringGet t ring.val).pi = (ringGet s ring.val).pi
        ∧ (ringGet t ring.val).fi = (ringGet s ring.val).fi
        ∧ t.job.ops = s.job.ops)
  ∧ (∀ (s : State) (page : Fin 8) (ring : Fin 32) (cfg : Word),
      pageLive s page.val = true →
      ringPage ring.val = page.val →
      (ringGet s ring.val).en = false →
      ∃ t, exec (.ringDisable page ring cfg) s = .next t
        ∧ (ringGet t ring.val).en = false
        ∧ (ringGet t ring.val).depth = cfg.toNat % 8
        ∧ (ringGet t ring.val).cls = cfg.toNat / 8 % 4
        ∧ (ringGet t ring.val).gated = cfg.getLsbD 5
        ∧ (ringGet t ring.val).fi = (ringGet s ring.val).fi)
  ∧ (∀ (s : State) (page : Fin 8) (ring : Fin 32) (cfg : Word),
      ringPage ring.val ≠ page.val →
      ∃ t, exec (.ringDisable page ring cfg) s = .next t
        ∧ t.job = s.job)
  ∧ (∀ (s : State) (page : Fin 8) (ring : Fin 32) (ci : BitVec 16),
      ringPage ring.val ≠ page.val →
      ∃ t, exec (.ringCqCiWrite page ring ci) s = .next t
        ∧ t.job = s.job)
  ∧ (∀ (s : State) (page : Fin 8) (ring : Fin 32) (ci : BitVec 16),
      pageLive s page.val = true →
      ringPage ring.val = page.val →
      ∃ t, exec (.ringCqCiWrite page ring ci) s = .next t
        ∧ (ringGet t ring.val).cqCi = (if 0 < (ci - (ringGet s ring.val).cqPi).toInt then (ringGet s ring.val).cqCi else ci)
        ∧ (ringGet t ring.val).cqPi = (ringGet s ring.val).cqPi)

/-- For the ring the arbiter takes next: FI is one on. An expected or first SEQ_NO is taken: the operation of the first free
tag starts with the descriptor, without a result where every check passes, or with the status of the first failing
check, or for a random fill that ends at once that status. A lower SEQ_NO is a duplicate: counted, no operation. A
higher one: SEQ_ERR, and the operation ends with BAD_DESC. With an uncorrectable error the ring stops, the operation
ends with ECC_ERROR and the error is counted. A ring the arbiter does not take: nothing changes. -/
def Obligations.DescriptorFetch : Prop :=
  (∀ (s : State) (ring : Fin 32),
      arbNext s ring.val = true →
      seqCase (ringGet s ring.val) (dsSeq (descAt s ring.val)) = .accept →
      descCheck s (ringPage ring.val) (descAt s ring.val) = none →
      fillCheck (descAt s ring.val) = none →
      ∃ t, exec (.descriptorFetch ring false) s = .next t
        ∧ (ringGet t ring.val).fi = (ringGet s ring.val).fi + 1
        ∧ (ringGet t ring.val).expect = some (dsSeq (descAt s ring.val) + 1)
        ∧ t.job.ops.length = s.job.ops.length + 1
        ∧ t.job.ops.take s.job.ops.length = s.job.ops
        ∧ t.job.free = s.job.free.drop 1
        ∧ (t.job.ops.getLast?).map (fun o => (o.tag, o.ring, o.page, o.desc)) = some (s.job.free.headD 0, ring.val, ringPage ring.val, descAt s ring.val)
        ∧ (t.job.ops.getLast?).map (·.result) = some none)
  ∧ (∀ (s : State) (ring : Fin 32) (st : Status),
      arbNext s ring.val = true →
      seqCase (ringGet s ring.val) (dsSeq (descAt s ring.val)) = .accept →
      descCheck s (ringPage ring.val) (descAt s ring.val) = some st →
      ∃ t, exec (.descriptorFetch ring false) s = .next t
        ∧ (ringGet t ring.val).fi = (ringGet s ring.val).fi + 1
        ∧ (t.job.ops.getLast?).map (fun o => (o.tag, o.desc)) = some (s.job.free.headD 0, descAt s ring.val)
        ∧ (t.job.ops.getLast?).map (·.result) = some (some (st, false, [])))
  ∧ (∀ (s : State) (ring : Fin 32) (st : Status),
      arbNext s ring.val = true →
      seqCase (ringGet s ring.val) (dsSeq (descAt s ring.val)) = .accept →
      descCheck s (ringPage ring.val) (descAt s ring.val) = none →
      fillCheck (descAt s ring.val) = some st →
      ∃ t, exec (.descriptorFetch ring false) s = .next t
        ∧ (ringGet t ring.val).fi = (ringGet s ring.val).fi + 1
        ∧ (t.job.ops.getLast?).map (fun o => (o.tag, o.desc)) = some (s.job.free.headD 0, descAt s ring.val)
        ∧ (t.job.ops.getLast?).map (·.result) = some (some (st, false, [])))
  ∧ (∀ (s : State) (ring : Fin 32) (ecc : Bool),
      arbNext s ring.val = false →
      exec (.descriptorFetch ring ecc) s = .next (settle s (s)))
  ∧ (∀ (s : State) (ring : Fin 32),
      arbNext s ring.val = true →
      seqCase (ringGet s ring.val) (dsSeq (descAt s ring.val)) = .duplicate →
      ∃ t, exec (.descriptorFetch ring false) s = .next t
        ∧ (ringGet t ring.val).fi = (ringGet s ring.val).fi + 1
        ∧ (ringGet t ring.val).dup = satInc 127 (ringGet s ring.val).dup
        ∧ t.job.ops = s.job.ops
        ∧ (ringGet t ring.val).expect = (ringGet s ring.val).expect)
  ∧ (∀ (s : State) (ring : Fin 32),
      arbNext s ring.val = true →
      seqCase (ringGet s ring.val) (dsSeq (descAt s ring.val)) = .ahead →
      ∃ t, exec (.descriptorFetch ring false) s = .next t
        ∧ (ringGet t ring.val).seqErr = true
        ∧ (ringGet t ring.val).expect = (ringGet s ring.val).expect
        ∧ (t.job.ops.getLast?).map (·.result) = some (some (.badDesc, false, [])))
  ∧ (∀ (s : State) (ring : Fin 32),
      arbNext s ring.val = true →
      ∃ t, exec (.descriptorFetch ring true) s = .next t
        ∧ (ringGet t ring.val).stopped = true
        ∧ t.job.evt.getLsbD 0 = true
        ∧ (t.job.ops.getLast?).map (·.result) = some (some (.eccError, false, []))
        ∧ t.flt.uncorrected = satInc 255 s.flt.uncorrected)

/-- For an operation with a result, on a ring of 16 to 256 entries: the entry of R425 stands at CQ_PI modulo DEPTH, CQ_PI is
one on, the operation goes and its tag is the last free one, and no byte of the window outside the output at DST and the
entry changes. With an uncorrectable error of the entry's memory CQ_PI advances and the operation goes likewise, the
ring stops and event bit 0 is set. -/
def Obligations.CompletionEntry : Prop :=
  (∀ (s : State) (tag : Fin 512) (o : Op) (st : Status) (late : Bool) (out : Bytes),
      opFind s tag.val = some o →
      o.result = some (st, late, out) →
      o.ring < 32 →
      o.desc.length = 64 →
      1 ≤ depthOf (ringGet s o.ring).depth →
      ∃ t, exec (.operationComplete tag false) s = .next t
        ∧ (ringGet t o.ring).cqPi = (ringGet s o.ring).cqPi + 1
        ∧ t.job.ops = s.job.ops.filter (fun x => !(x.tag = tag.val))
        ∧ t.job.free = s.job.free ++ [tag.val]
        ∧ winRead t ((ringGet s o.ring).cbase + 32 * ((ringGet s o.ring).cqPi.toNat % depthOf (ringGet s o.ring).depth)) 32 = completionEntry s o st late (if dsKind o.desc = 1 && out.take (dsDstLen o.desc) = [] then o.written else (out.take (dsDstLen o.desc)).length)
        ∧ (∀ a, (a < dsDst o.desc ∨ dsDst o.desc + (out.take (dsDstLen o.desc)).length ≤ a) → (a < (ringGet s o.ring).cbase + 32 * ((ringGet s o.ring).cqPi.toNat % depthOf (ringGet s o.ring).depth) ∨ (ringGet s o.ring).cbase + 32 * ((ringGet s o.ring).cqPi.toNat % depthOf (ringGet s o.ring).depth) + 32 ≤ a) → memGet 0 t.win a = memGet 0 s.win a))
  ∧ (∀ (s : State) (tag : Fin 512) (o : Op) (st : Status) (late : Bool) (out : Bytes),
      opFind s tag.val = some o →
      o.result = some (st, late, out) →
      o.ring < 32 →
      ∃ t, exec (.operationComplete tag true) s = .next t
        ∧ (ringGet t o.ring).cqPi = (ringGet s o.ring).cqPi + 1
        ∧ (ringGet t o.ring).stopped = true
        ∧ t.job.evt.getLsbD 0 = true
        ∧ t.job.ops = s.job.ops.filter (fun x => !(x.tag = tag.val)))

/-- For the operation Burin serves next: with its block and entry passing R198 and an index free, the entry stands at the
first free index with the kind, unit, reference, block and owner of the job and, without NOW, the time of the entry as
due instant, and no job ends. With SRC below 32 bytes it ends with BAD_ENTRY, a frame of length 0 with BAD_DESC, an
entry that breaks R198 with the status of the first failing check; then the timetable does not change. -/
def Obligations.EntryJobs : Prop :=
  (∀ (s : State) (tag : Fin 512) (o : Op) (blk : Bytes) (i : Nat),
      opLive s tag.val 6 = some o →
      burinWaits s o = true →
      engineNext (burinWaits s) s o = true →
      32 ≤ dsSrcLen o.desc →
      sendZero s o (winRead s (dsSrc o.desc) 32) = false →
      entryBlock s o (winRead s (dsSrc o.desc) 32) = some blk →
      entryCheck s o.page (winRead s (dsSrc o.desc) 32) true = none →
      freeIndex s o.page = some i →
      ∃ t, exec (.lfFrameJob tag) s = .next t
        ∧ (ttGet t i).map (fun e => (e.kind, e.unit, e.ref, e.owner, e.block)) = some (enKind (winRead s (dsSrc o.desc) 32), enUnit (winRead s (dsSrc o.desc) 32), enRef (winRead s (dsSrc o.desc) 32), .job tag.val, blk)
        ∧ (bit (enFlags (winRead s (dsSrc o.desc) 32)) 1 = false → (ttGet t i).map (·.due) = some (BitVec.ofNat 48 (enTime (winRead s (dsSrc o.desc) 32))))
        ∧ t.job = s.job)
  ∧ (∀ (s : State) (tag : Fin 512) (o : Op) (blk : Bytes) (i : Nat),
      opLive s tag.val 7 = some o →
      burinWaits s o = true →
      engineNext (burinWaits s) s o = true →
      32 ≤ dsSrcLen o.desc →
      sendZero s o (winRead s (dsSrc o.desc) 32) = false →
      entryBlock s o (winRead s (dsSrc o.desc) 32) = some blk →
      entryCheck s o.page (winRead s (dsSrc o.desc) 32) true = none →
      freeIndex s o.page = some i →
      ∃ t, exec (.uhfExchangeJob tag) s = .next t
        ∧ (ttGet t i).map (fun e => (e.kind, e.unit, e.ref, e.owner, e.block)) = some (enKind (winRead s (dsSrc o.desc) 32), enUnit (winRead s (dsSrc o.desc) 32), enRef (winRead s (dsSrc o.desc) 32), .job tag.val, blk)
        ∧ (bit (enFlags (winRead s (dsSrc o.desc) 32)) 1 = false → (ttGet t i).map (·.due) = some (BitVec.ofNat 48 (enTime (winRead s (dsSrc o.desc) 32))))
        ∧ t.job = s.job)
  ∧ (∀ (s : State) (tag : Fin 512) (o : Op) (blk : Bytes) (i : Nat),
      opLive s tag.val 8 = some o →
      burinWaits s o = true →
      engineNext (burinWaits s) s o = true →
      32 ≤ dsSrcLen o.desc →
      sendZero s o (winRead s (dsSrc o.desc) 32) = false →
      entryBlock s o (winRead s (dsSrc o.desc) 32) = some blk →
      entryCheck s o.page (winRead s (dsSrc o.desc) 32) true = none →
      freeIndex s o.page = some i →
      ∃ t, exec (.rangingJob tag) s = .next t
        ∧ (ttGet t i).map (fun e => (e.kind, e.unit, e.ref, e.owner, e.block)) = some (enKind (winRead s (dsSrc o.desc) 32), enUnit (winRead s (dsSrc o.desc) 32), enRef (winRead s (dsSrc o.desc) 32), .job tag.val, blk)
        ∧ (bit (enFlags (winRead s (dsSrc o.desc) 32)) 1 = false → (ttGet t i).map (·.due) = some (BitVec.ofNat 48 (enTime (winRead s (dsSrc o.desc) 32))))
        ∧ t.job = s.job)
  ∧ (∀ (s : State) (tag : Fin 512) (o : Op) (blk : Bytes) (i : Nat),
      opLive s tag.val 10 = some o →
      burinWaits s o = true →
      engineNext (burinWaits s) s o = true →
      32 ≤ dsSrcLen o.desc →
      sendZero s o (winRead s (dsSrc o.desc) 32) = false →
      entryBlock s o (winRead s (dsSrc o.desc) 32) = some blk →
      entryCheck s o.page (winRead s (dsSrc o.desc) 32) true = none →
      freeIndex s o.page = some i →
      ∃ t, exec (.frameSendJob tag) s = .next t
        ∧ (ttGet t i).map (fun e => (e.kind, e.unit, e.ref, e.owner, e.block)) = some (enKind (winRead s (dsSrc o.desc) 32), enUnit (winRead s (dsSrc o.desc) 32), enRef (winRead s (dsSrc o.desc) 32), .job tag.val, blk)
        ∧ (bit (enFlags (winRead s (dsSrc o.desc) 32)) 1 = false → (ttGet t i).map (·.due) = some (BitVec.ofNat 48 (enTime (winRead s (dsSrc o.desc) 32))))
        ∧ t.job = s.job)
  ∧ (∀ (s : State) (tag : Fin 512) (o : Op),
      opLive s tag.val 6 = some o →
      burinWaits s o = true →
      engineNext (burinWaits s) s o = true →
      dsSrcLen o.desc < 32 →
      ∃ t, exec (.lfFrameJob tag) s = .next t
        ∧ t.job = (opEnd tag.val .badEntry false [] s).job
        ∧ t.tt = s.tt)
  ∧ (∀ (s : State) (tag : Fin 512) (o : Op),
      opLive s tag.val 7 = some o →
      burinWaits s o = true →
      engineNext (burinWaits s) s o = true →
      dsSrcLen o.desc < 32 →
      ∃ t, exec (.uhfExchangeJob tag) s = .next t
        ∧ t.job = (opEnd tag.val .badEntry false [] s).job
        ∧ t.tt = s.tt)
  ∧ (∀ (s : State) (tag : Fin 512) (o : Op),
      opLive s tag.val 8 = some o →
      burinWaits s o = true →
      engineNext (burinWaits s) s o = true →
      dsSrcLen o.desc < 32 →
      ∃ t, exec (.rangingJob tag) s = .next t
        ∧ t.job = (opEnd tag.val .badEntry false [] s).job
        ∧ t.tt = s.tt)
  ∧ (∀ (s : State) (tag : Fin 512) (o : Op),
      opLive s tag.val 10 = some o →
      burinWaits s o = true →
      engineNext (burinWaits s) s o = true →
      dsSrcLen o.desc < 32 →
      ∃ t, exec (.frameSendJob tag) s = .next t
        ∧ t.job = (opEnd tag.val .badEntry false [] s).job
        ∧ t.tt = s.tt)
  ∧ (∀ (s : State) (tag : Fin 512) (o : Op),
      opLive s tag.val 10 = some o →
      burinWaits s o = true →
      engineNext (burinWaits s) s o = true →
      32 ≤ dsSrcLen o.desc →
      sendZero s o (winRead s (dsSrc o.desc) 32) = true →
      ∃ t, exec (.frameSendJob tag) s = .next t
        ∧ t.job = (opEnd tag.val .badDesc false [] s).job
        ∧ t.tt = s.tt)
  ∧ (∀ (s : State) (tag : Fin 512) (o : Op) (st : Status),
      opLive s tag.val 6 = some o →
      burinWaits s o = true →
      engineNext (burinWaits s) s o = true →
      32 ≤ dsSrcLen o.desc →
      sendZero s o (winRead s (dsSrc o.desc) 32) = false →
      entryCheck s o.page (winRead s (dsSrc o.desc) 32) (entryBlock s o (winRead s (dsSrc o.desc) 32)).isSome = some st →
      ∃ t, exec (.lfFrameJob tag) s = .next t
        ∧ t.job = (opEnd tag.val st false [] s).job
        ∧ t.tt = s.tt)
  ∧ (∀ (s : State) (tag : Fin 512) (o : Op) (st : Status),
      opLive s tag.val 7 = some o →
      burinWaits s o = true →
      engineNext (burinWaits s) s o = true →
      32 ≤ dsSrcLen o.desc →
      sendZero s o (winRead s (dsSrc o.desc) 32) = false →
      entryCheck s o.page (winRead s (dsSrc o.desc) 32) (entryBlock s o (winRead s (dsSrc o.desc) 32)).isSome = some st →
      ∃ t, exec (.uhfExchangeJob tag) s = .next t
        ∧ t.job = (opEnd tag.val st false [] s).job
        ∧ t.tt = s.tt)
  ∧ (∀ (s : State) (tag : Fin 512) (o : Op) (st : Status),
      opLive s tag.val 8 = some o →
      burinWaits s o = true →
      engineNext (burinWaits s) s o = true →
      32 ≤ dsSrcLen o.desc →
      sendZero s o (winRead s (dsSrc o.desc) 32) = false →
      entryCheck s o.page (winRead s (dsSrc o.desc) 32) (entryBlock s o (winRead s (dsSrc o.desc) 32)).isSome = some st →
      ∃ t, exec (.rangingJob tag) s = .next t
        ∧ t.job = (opEnd tag.val st false [] s).job
        ∧ t.tt = s.tt)
  ∧ (∀ (s : State) (tag : Fin 512) (o : Op) (st : Status),
      opLive s tag.val 10 = some o →
      burinWaits s o = true →
      engineNext (burinWaits s) s o = true →
      32 ≤ dsSrcLen o.desc →
      sendZero s o (winRead s (dsSrc o.desc) 32) = false →
      entryCheck s o.page (winRead s (dsSrc o.desc) 32) (entryBlock s o (winRead s (dsSrc o.desc) 32)).isSome = some st →
      ∃ t, exec (.frameSendJob tag) s = .next t
        ∧ t.job = (opEnd tag.val st false [] s).job
        ∧ t.tt = s.tt)

/-- For the solver job served next while the solver's domain is on: with SRC holding a scan block that passes its checks and
its scan result (the layout of SRC is the model's, log 25), the operation ends with the solver's status and bytes for
them, and a fix of another page than CPG0 leaves LOC_FIX; with SRC below 8 bytes or a scan block that fails its checks
it ends with BAD_DESC and the solver's registers stay. While the domain is off nothing changes. -/
def Obligations.SolverJob : Prop :=
  (∀ (s : State) (tag : Fin 512) (o : Op),
      opLive s tag.val 9 = some o →
      solverOn s = true →
      engineNext (fun x => dsKind x.desc = 9) s o = true →
      scanLen (winRead s (dsSrc o.desc) (dsSrcLen o.desc)) + 4 + 8 * u8 ((winRead s (dsSrc o.desc) (dsSrcLen o.desc)).drop (scanLen (winRead s (dsSrc o.desc) (dsSrcLen o.desc)))) 0 ≤ dsSrcLen o.desc →
      8 ≤ dsSrcLen o.desc →
      scanOk s.set ((winRead s (dsSrc o.desc) (dsSrcLen o.desc)).take (scanLen (winRead s (dsSrc o.desc) (dsSrcLen o.desc)))) = true →
      ∃ t, exec (.solverJob tag) s = .next t
        ∧ t.job = (let src := winRead s (dsSrc o.desc) (dsSrcLen o.desc); let n := scanLen src; let m := 4 + 8 * u8 (src.drop n) 0; let r := solve s (src.take n) (sl src n m) (src.drop (n + m)); (opEnd tag.val r.st false r.bytes s).job)
        ∧ (o.page ≠ 0 → t.loc.fixXy = s.loc.fixXy ∧ t.loc.fixZ = s.loc.fixZ))
  ∧ (∀ (s : State) (tag : Fin 512) (o : Op),
      opLive s tag.val 9 = some o →
      solverOn s = true →
      engineNext (fun x => dsKind x.desc = 9) s o = true →
      dsSrcLen o.desc < 8 ∨ scanOk s.set ((winRead s (dsSrc o.desc) (dsSrcLen o.desc)).take (scanLen (winRead s (dsSrc o.desc) (dsSrcLen o.desc)))) = false →
      ∃ t, exec (.solverJob tag) s = .next t
        ∧ t.job = (opEnd tag.val .badDesc false [] s).job
        ∧ t.loc = s.loc)
  ∧ (∀ (s : State) (tag : Fin 512),
      solverOn s = false →
      exec (.solverJob tag) s = .next (settle s (s)))

/-- For a job's frame-send entry that is prepared and due, whose one copy waits on one port whose gate lets it pass: the
frame leaves with its FCS, the port counts it, the entry goes, and the operation ends with OK, or with LATE where the
start lies more than t_ttlate after the due instant. -/
def Obligations.FrameLaunchEnds : Prop :=
  (∀ (s : State) (i : Fin 256) (e : Entry) (g p c : Nat) (f : Frame),
      ttGet s i.val = some e →
      e.kind = 10 →
      e.st = .preparing →
      s48 e.due (now48 s) ≤ 0 →
      sendPermit e = false →
      e.owner = .job g →
      e.pats = 0 →
      launchPorts s i.val = [p] →
      p < 8 →
      (portFrames (portGet s p)).filter (fun x => x.entry == some i.val) = [f] →
      (List.range 8).find? (fun c => (vget (portGet s p).queues c []).any (fun x => x.entry == some i.val)) = some c →
      gateLets s p c (frameNs f.bytes (portGet s p).rate) = true →
      ∃ t, exec (.frameLaunch i) s = .next t
        ∧ (portGet t p).lastTx = f.bytes ++ fcs f.bytes
        ∧ (portGet t p).tx = sat32 (portGet s p).tx 1
        ∧ ttGet t i.val = none
        ∧ t.job = (opEnd g (if s48 (now48 s) e.due > tTtlate s then .late else .ok) (decide (s48 (now48 s) e.due > tTtlate s)) [] s).job)

/-- AES_BLOCK_JOB of a cipher block job that nothing holds. One block, first and last, not gated on, the generator serving,
the engine taking it, its key readable: AES of the input under the key, cut to LAST_BYTES, stands in DST and no other
byte of the window changes; or in the holding buffer with WRITTEN set and COVERED clear, OVERRUN where it was written
already; or in T_h. The DST form ends with OK, counts 16 bytes written and one request to the generator. A failing check
gives its status, a latched generator ENTROPY_FAIL with event bit 3, a lost key KEY_GONE, and the window stays. A bulk
job beside a waiting urgent one is suspended after the blocks done with its key. AES_JOB_RESUME of a suspended job that
is next, with no urgent one waiting: the remaining blocks are done and it ends with OK. -/
def Obligations.AesBlockJobs : Prop :=
  (∀ (s : State) (tag : Fin 512) (o : Op) (n : Nat) (key : BitVec 256),
      opFind s tag.val = some o →
      o.result = none →
      dsKind o.desc = 1 →
      caFunc (dsParams o.desc) = 0 →
      gateHeld s o = false →
      o.page < 8 →
      o.suspended = false →
      o.blocks = 0 →
      blockCheck s o = none →
      caCount (dsParams o.desc) = 1 →
      caX (dsParams o.desc) 1 = true →
      caX (dsParams o.desc) 2 = false →
      caX (dsParams o.desc) 3 = false →
      caPost (dsParams o.desc) = 0 →
      caDest (dsParams o.desc) = 0 →
      s.rng.latched = false →
      rngServes s = true →
      aesTakes s o = true →
      o.cls ≠ 0 ∨ urgentWaits s o = false →
      jobKey s o = some key →
      ∃ t, exec (.aesBlockJob tag n) s = .next t
        ∧ winRead t (dsDst o.desc) 16 = padTo 16 ((blockBytes (aesBlock (caDec (dsParams o.desc)) (16 + 8 * caKlen (dsParams o.desc)) key (blockOf (winRead s (dsSrc o.desc) 16)))).take (caLast (dsParams o.desc)))
        ∧ (∀ a, a < dsDst o.desc ∨ dsDst o.desc + 16 ≤ a → memGet 0 t.win a = memGet 0 s.win a)
        ∧ (opFind t tag.val).map (·.result) = some (some (.ok, false, []))
        ∧ (opFind t tag.val).map (·.written) = some 16
        ∧ t.rng.requests = min 65536 (s.rng.requests + 1))
  ∧ (∀ (s : State) (tag : Fin 512) (o : Op) (n : Nat) (key : BitVec 256),
      opFind s tag.val = some o →
      o.result = none →
      dsKind o.desc = 1 →
      caFunc (dsParams o.desc) = 0 →
      gateHeld s o = false →
      o.page < 8 →
      o.suspended = false →
      o.blocks = 0 →
      blockCheck s o = none →
      caCount (dsParams o.desc) = 1 →
      caX (dsParams o.desc) 1 = true →
      caX (dsParams o.desc) 2 = false →
      caX (dsParams o.desc) 3 = false →
      caPost (dsParams o.desc) = 0 →
      caDest (dsParams o.desc) = 1 →
      s.rng.latched = false →
      rngServes s = true →
      aesTakes s o = true →
      o.cls ≠ 0 ∨ urgentWaits s o = false →
      jobKey s o = some key →
      (pageGet s o.page).clearAt = none →
      ∃ t, exec (.aesBlockJob tag n) s = .next t
        ∧ hbRead (pageGet t o.page) (caHbOut (dsParams o.desc)) 16 = padTo 16 ((blockBytes (aesBlock (caDec (dsParams o.desc)) (16 + 8 * caKlen (dsParams o.desc)) key (blockOf (winRead s (dsSrc o.desc) 16)))).take (caLast (dsParams o.desc)))
        ∧ (pageGet t o.page).written.getLsbD (caHbOut (dsParams o.desc) / 16) = true
        ∧ (pageGet t o.page).covered.getLsbD (caHbOut (dsParams o.desc) / 16) = false
        ∧ t.win = s.win
        ∧ ((pageGet t o.page).overrun = ((pageGet s o.page).overrun || (pageGet s o.page).written.getLsbD (caHbOut (dsParams o.desc) / 16))))
  ∧ (∀ (s : State) (tag : Fin 512) (o : Op) (n : Nat) (key : BitVec 256),
      opFind s tag.val = some o →
      o.result = none →
      dsKind o.desc = 1 →
      caFunc (dsParams o.desc) = 0 →
      gateHeld s o = false →
      o.page < 8 →
      o.suspended = false →
      o.blocks = 0 →
      blockCheck s o = none →
      caCount (dsParams o.desc) = 1 →
      caX (dsParams o.desc) 1 = true →
      caX (dsParams o.desc) 2 = false →
      caX (dsParams o.desc) 3 = false →
      caPost (dsParams o.desc) = 0 →
      caDest (dsParams o.desc) = 2 →
      s.rng.latched = false →
      rngServes s = true →
      aesTakes s o = true →
      o.cls ≠ 0 ∨ urgentWaits s o = false →
      jobKey s o = some key →
      (pageGet s o.page).clearAt = none →
      ∃ t, exec (.aesBlockJob tag n) s = .next t
        ∧ (pageGet t o.page).th = blockOf (padTo 16 ((blockBytes (aesBlock (caDec (dsParams o.desc)) (16 + 8 * caKlen (dsParams o.desc)) key (blockOf (winRead s (dsSrc o.desc) 16)))).take (caLast (dsParams o.desc))))
        ∧ (pageGet t o.page).covered = 0
        ∧ t.win = s.win)
  ∧ (∀ (s : State) (tag : Fin 512) (o : Op) (n : Nat) (x : Status),
      opFind s tag.val = some o →
      o.result = none →
      dsKind o.desc = 1 →
      caFunc (dsParams o.desc) = 0 →
      gateHeld s o = false →
      o.page < 8 →
      o.suspended = false →
      blockCheck s o = some x →
      ∃ t, exec (.aesBlockJob tag n) s = .next t
        ∧ (opFind t tag.val).map (·.result) = some (some (x, false, []))
        ∧ t.win = s.win
        ∧ t.rng = s.rng)
  ∧ (∀ (s : State) (tag : Fin 512) (o : Op) (n : Nat),
      opFind s tag.val = some o →
      o.result = none →
      dsKind o.desc = 1 →
      caFunc (dsParams o.desc) = 0 →
      gateHeld s o = false →
      o.page < 8 →
      o.suspended = false →
      blockCheck s o = none →
      0 < caCount (dsParams o.desc) →
      s.rng.latched = true →
      ∃ t, exec (.aesBlockJob tag n) s = .next t
        ∧ (opFind t tag.val).map (·.result) = some (some (.entropyFail, false, []))
        ∧ t.cip.aesEvt.getLsbD 3 = true
        ∧ t.win = s.win)
  ∧ (∀ (s : State) (tag : Fin 512) (o : Op) (n : Nat),
      opFind s tag.val = some o →
      o.result = none →
      dsKind o.desc = 1 →
      caFunc (dsParams o.desc) = 0 →
      gateHeld s o = false →
      o.page < 8 →
      o.suspended = false →
      blockCheck s o = none →
      0 < caCount (dsParams o.desc) →
      s.rng.latched = false →
      rngServes s = true →
      aesTakes s o = true →
      jobKey s o = none →
      ∃ t, exec (.aesBlockJob tag n) s = .next t
        ∧ (opFind t tag.val).map (·.result) = some (some (.keyGone, false, []))
        ∧ t.win = s.win)
  ∧ (∀ (s : State) (tag : Fin 512) (o : Op) (n : Nat) (key : BitVec 256),
      opFind s tag.val = some o →
      o.result = none →
      dsKind o.desc = 1 →
      caFunc (dsParams o.desc) = 0 →
      gateHeld s o = false →
      o.page < 8 →
      o.suspended = false →
      o.blocks = 0 →
      blockCheck s o = none →
      0 < n →
      n < caCount (dsParams o.desc) →
      s.rng.latched = false →
      rngServes s = true →
      aesTakes s o = true →
      o.cls = 0 →
      urgentWaits s o = true →
      jobKey s o = some key →
      ∃ t, exec (.aesBlockJob tag n) s = .next t
        ∧ (opFind t tag.val).map (·.suspended) = some true
        ∧ (opFind t tag.val).map (·.blocks) = some n
        ∧ (opFind t tag.val).map (·.key) = some (some key)
        ∧ (opFind t tag.val).map (·.result) = some none)
  ∧ (∀ (s : State) (tag : Fin 512) (o : Op) (n : Nat) (key : BitVec 256),
      opFind s tag.val = some o →
      o.result = none →
      dsKind o.desc = 1 →
      o.suspended = true →
      o.key = some key →
      rngServes s = true →
      aesNext s o = true →
      urgentWaits s o = false →
      ∃ t, exec (.aesJobResume tag n) s = .next t
        ∧ (opFind t tag.val).map (·.result) = some (some (.ok, false, []))
        ∧ (opFind t tag.val).map (·.suspended) = some false
        ∧ (opFind t tag.val).map (·.wasSuspended) = some o.wasSuspended
        ∧ t.win = (aesBlocks o key o.blocks (caCount (dsParams o.desc) - o.blocks) s).win)

/-- GATE_JOB that passes its checks and is next: where the tag agrees, the bytes asked for are released if covered and not
overrun; an overrun or an empty release gives OK and nothing; an uncovered one DENIED with event bit 2; where the tag
disagrees TAG_MISMATCH with event bit 1; in every case the buffer, T_h and their bits end zero. CPG_GATE_CLEAR with bit
0 and no earlier job of the page that names the gate: the same zeros. CIPHER_PARITY_ERROR with a job on the engine: it
ends with FAULT, the fault is counted with event bit 0; in start-up tamper source 7 is captured and only its output's
bytes of the window may change; in Run under a ladder step 0 the count of source 7 is one on and the tamper latch stays. -/
def Obligations.GateAndParity : Prop :=
  (∀ (s : State) (tag : Fin 512) (o : Op),
      opFind s tag.val = some o →
      o.result = none →
      dsKind o.desc = 1 →
      caFunc (dsParams o.desc) = 1 →
      gateHeld s o = false →
      aesNext s o = true →
      o.page < 8 →
      (pageGet s o.page).clearAt = none →
      gateCheck s o = none →
      (blockBytes (pageGet s o.page).th).take (dsSrcLen o.desc) = winRead s (dsSrc o.desc) (dsSrcLen o.desc) →
      (pageGet s o.page).overrun = false →
      0 < caCount (dsParams o.desc) →
      gateCovered (pageGet s o.page) (caCount (dsParams o.desc)) = true →
      ∃ t, exec (.gateJob tag) s = .next t
        ∧ (opFind t tag.val).map (·.result) = some (some (.ok, false, hbRead (pageGet s o.page) 0 (caCount (dsParams o.desc))))
        ∧ (pageGet t o.page).hb = []
        ∧ (pageGet t o.page).th = 0
        ∧ (pageGet t o.page).written = 0
        ∧ (pageGet t o.page).covered = 0
        ∧ (pageGet t o.page).overrun = false)
  ∧ (∀ (s : State) (tag : Fin 512) (o : Op),
      opFind s tag.val = some o →
      o.result = none →
      dsKind o.desc = 1 →
      caFunc (dsParams o.desc) = 1 →
      gateHeld s o = false →
      aesNext s o = true →
      o.page < 8 →
      (pageGet s o.page).clearAt = none →
      gateCheck s o = none →
      (blockBytes (pageGet s o.page).th).take (dsSrcLen o.desc) ≠ winRead s (dsSrc o.desc) (dsSrcLen o.desc) →
      ∃ t, exec (.gateJob tag) s = .next t
        ∧ (opFind t tag.val).map (·.result) = some (some (.tagMismatch, false, []))
        ∧ t.cip.aesEvt.getLsbD 1 = true
        ∧ (pageGet t o.page).hb = []
        ∧ (pageGet t o.page).th = 0
        ∧ (pageGet t o.page).written = 0
        ∧ (pageGet t o.page).covered = 0
        ∧ (pageGet t o.page).overrun = false)
  ∧ (∀ (s : State) (tag : Fin 512) (o : Op),
      opFind s tag.val = some o →
      o.result = none →
      dsKind o.desc = 1 →
      caFunc (dsParams o.desc) = 1 →
      gateHeld s o = false →
      aesNext s o = true →
      o.page < 8 →
      (pageGet s o.page).clearAt = none →
      gateCheck s o = none →
      (blockBytes (pageGet s o.page).th).take (dsSrcLen o.desc) = winRead s (dsSrc o.desc) (dsSrcLen o.desc) →
      (pageGet s o.page).overrun = true ∨ caCount (dsParams o.desc) = 0 →
      ∃ t, exec (.gateJob tag) s = .next t
        ∧ (opFind t tag.val).map (·.result) = some (some (.ok, false, []))
        ∧ (pageGet t o.page).hb = []
        ∧ (pageGet t o.page).th = 0
        ∧ (pageGet t o.page).written = 0
        ∧ (pageGet t o.page).covered = 0
        ∧ (pageGet t o.page).overrun = false)
  ∧ (∀ (s : State) (tag : Fin 512) (o : Op),
      opFind s tag.val = some o →
      o.result = none →
      dsKind o.desc = 1 →
      caFunc (dsParams o.desc) = 1 →
      gateHeld s o = false →
      aesNext s o = true →
      o.page < 8 →
      (pageGet s o.page).clearAt = none →
      gateCheck s o = none →
      (blockBytes (pageGet s o.page).th).take (dsSrcLen o.desc) = winRead s (dsSrc o.desc) (dsSrcLen o.desc) →
      (pageGet s o.page).overrun = false →
      0 < caCount (dsParams o.desc) →
      gateCovered (pageGet s o.page) (caCount (dsParams o.desc)) = false →
      ∃ t, exec (.gateJob tag) s = .next t
        ∧ (opFind t tag.val).map (·.result) = some (some (.denied, false, []))
        ∧ t.cip.aesEvt.getLsbD 2 = true
        ∧ (pageGet t o.page).hb = []
        ∧ (pageGet t o.page).th = 0
        ∧ (pageGet t o.page).written = 0
        ∧ (pageGet t o.page).covered = 0
        ∧ (pageGet t o.page).overrun = false)
  ∧ (∀ (s : State) (page : Fin 8) (word : Word),
      word.getLsbD 0 = true →
      s.job.ops.any (fun o => namesGate o && o.page = page.val && o.order < s.job.fetched && o.result.isNone) = false →
      ∃ t, exec (.cpgGateClear page word) s = .next t
        ∧ (pageGet t page.val).hb = []
        ∧ (pageGet t page.val).th = 0
        ∧ (pageGet t page.val).written = 0
        ∧ (pageGet t page.val).covered = 0
        ∧ (pageGet t page.val).overrun = false)
  ∧ (∀ (s : State) (o : Op),
      s.job.ops.find? (onEngine s) = some o →
      opFind s o.tag = some o →
      s.pwr.st = .startUp →
      ∃ t, exec (.cipherParityError) s = .next t
        ∧ (opFind t o.tag).map (·.result) = some (some (.fault, false, []))
        ∧ t.cip.faults = satInc 65535 s.cip.faults
        ∧ t.cip.aesEvt.getLsbD 0 = true
        ∧ t.tmp.captured = s.tmp.captured ++ [7]
        ∧ t.cip.running = none
        ∧ (∀ a, a < dsDst o.desc ∨ dsDst o.desc + o.written ≤ a → memGet 0 t.win a = memGet 0 s.win a))
  ∧ (∀ (s : State) (o : Op),
      s.job.ops.find? (onEngine s) = some o →
      s.pwr.st = .run →
      ladderStep (policySec s) 7 (satInc 255 (vget s.tmp.count 7 0)) = 0 →
      ∃ t, exec (.cipherParityError) s = .next t
        ∧ (∀ x ∈ t.job.ops, x.tag = o.tag → x.result = some (.fault, false, []))
        ∧ t.cip.faults = satInc 65535 s.cip.faults
        ∧ t.cip.aesEvt.getLsbD 0 = true
        ∧ vget t.tmp.count 7 0 = satInc 255 (vget s.tmp.count 7 0)
        ∧ t.tmp.latch = s.tmp.latch)

/-- For the public-key engine's next job. HASH_JOB that passes its checks: FIRST and LAST ends OK with SHA-512 of SRC; FIRST
alone keeps a state that finishes to SHA-512 of SRC and what follows; LAST alone finishes the kept state, which goes.
RSA_VERIFY and RSA_VERIFY_DIGEST that pass their checks: OK exactly when the pinned slot agrees and the PSS check
passes, else TAG_MISMATCH; with a failing check its status (shown for RSA_VERIFY). ATTEST with the fields right, the
identity and the root present and six words queued, not latched: OK with the statement and its signature, six words
drawn, event bit 1; with no identity NOT_READY. CERT_READ with the fields right: the certificate, or with no identity
NOT_READY. -/
def Obligations.HashAndPublicKeyJobs : Prop :=
  (∀ (s : State) (tag : Fin 512) (o : Op),
      hpkStart s tag.val 2 (fun _ => true) = some o →
      opFind s tag.val = some o →
      hashBad s o = false →
      bit (u8 (dsParams o.desc) 1) 0 = true →
      bit (u8 (dsParams o.desc) 1) 1 = true →
      ∃ t, exec (.hashJob tag) s = .next t
        ∧ (opFind t tag.val).map (·.result) = some (some (.ok, false, sha512 (winRead s (dsSrc o.desc) (dsSrcLen o.desc)))))
  ∧ (∀ (s : State) (tag : Fin 512) (o : Op),
      hpkStart s tag.val 2 (fun _ => true) = some o →
      opFind s tag.val = some o →
      hashBad s o = false →
      bit (u8 (dsParams o.desc) 1) 0 = true →
      bit (u8 (dsParams o.desc) 1) 1 = false →
      o.page < 8 →
      ∃ t, exec (.hashJob tag) s = .next t
        ∧ (opFind t tag.val).map (·.result) = some (some (.ok, false, []))
        ∧ (∀ rest, (match (pageGet t o.page).hash with | some c => shaFinish c.1 c.2 rest | none => []) = sha512 (winRead s (dsSrc o.desc) (dsSrcLen o.desc) ++ rest)))
  ∧ (∀ (s : State) (tag : Fin 512) (o : Op) (h : List (BitVec 64)) (n : Nat),
      hpkStart s tag.val 2 (fun _ => true) = some o →
      opFind s tag.val = some o →
      hashBad s o = false →
      bit (u8 (dsParams o.desc) 1) 0 = false →
      bit (u8 (dsParams o.desc) 1) 1 = true →
      o.page < 8 →
      (pageGet s o.page).hash = some (h, n) →
      ∃ t, exec (.hashJob tag) s = .next t
        ∧ (opFind t tag.val).map (·.result) = some (some (.ok, false, shaFinish h n (winRead s (dsSrc o.desc) (dsSrcLen o.desc))))
        ∧ (pageGet t o.page).hash = none)
  ∧ (∀ (s : State) (tag : Fin 512) (o : Op),
      hpkStart s tag.val 3 (fun p => rsOp p = 0 || rsOp p > 3) = some o →
      opFind s tag.val = some o →
      rsaCheck s o = none →
      ∃ t, exec (.rsaVerify tag) s = .next t
        ∧ (opFind t tag.val).map (·.result) = some (some (if pinAgrees s o && pssVerifyDigest (beNat ((rsaKeyBytes s o).drop 4)) (u32 (rsaKeyBytes s o) 0) (rsSalt (dsParams o.desc)) (sha512 (winRead s (dsSrc o.desc) (dsSrcLen o.desc))) (winRead s (rsSigOff (dsParams o.desc)) 512) then .ok else .tagMismatch, false, [])))
  ∧ (∀ (s : State) (tag : Fin 512) (o : Op),
      hpkStart s tag.val 3 (fun p => rsOp p = 1) = some o →
      opFind s tag.val = some o →
      rsaCheck s o = none →
      ∃ t, exec (.rsaVerifyDigest tag) s = .next t
        ∧ (opFind t tag.val).map (·.result) = some (some (if pinAgrees s o && pssVerifyDigest (beNat ((rsaKeyBytes s o).drop 4)) (u32 (rsaKeyBytes s o) 0) (rsSalt (dsParams o.desc)) (winRead s (dsSrc o.desc) 64) (winRead s (rsSigOff (dsParams o.desc)) 512) then .ok else .tagMismatch, false, [])))
  ∧ (∀ (s : State) (tag : Fin 512) (o : Op) (x : Status),
      hpkStart s tag.val 3 (fun p => rsOp p = 0 || rsOp p > 3) = some o →
      opFind s tag.val = some o →
      rsaCheck s o = some x →
      ∃ t, exec (.rsaVerify tag) s = .next t
        ∧ (opFind t tag.val).map (·.result) = some (some (x, false, []))
        ∧ t.cip.hpkEvt = s.cip.hpkEvt)
  ∧ (∀ (s : State) (tag : Fin 512) (o : Op) (id : CrtKey × Bytes),
      hpkStart s tag.val 3 (fun p => rsOp p = 2) = some o →
      opFind s tag.val = some o →
      rsaFields s o = none →
      s.ks.identity = some id →
      s.boot.pufFail = false →
      s.ks.root.isSome = true →
      s.rng.latched = false →
      6 ≤ s.rng.queue.length →
      ∃ t, exec (.attest tag) s = .next t
        ∧ (opFind t tag.val).map (·.result) = some (some (.ok, false, attestStatement s o.page (winRead s (rsNonceOff (dsParams o.desc)) 64) ++ beBytes 512 (rsaCrt id.1.p id.1.q id.1.dP id.1.dQ id.1.qInv (beNat (pssEncode (sha512 (attestStatement s o.page (winRead s (rsNonceOff (dsParams o.desc)) 64))) (attestSalt s))))))
        ∧ t.cip.hpkEvt.getLsbD 1 = true
        ∧ t.rng.queue = s.rng.queue.drop 6)
  ∧ (∀ (s : State) (tag : Fin 512) (o : Op),
      hpkStart s tag.val 3 (fun p => rsOp p = 2) = some o →
      opFind s tag.val = some o →
      rsaFields s o = none →
      s.ks.identity = none →
      ∃ t, exec (.attest tag) s = .next t
        ∧ (opFind t tag.val).map (·.result) = some (some (.notReady, false, []))
        ∧ t.rng = s.rng)
  ∧ (∀ (s : State) (tag : Fin 512) (o : Op) (id : CrtKey × Bytes),
      hpkStart s tag.val 3 (fun p => rsOp p = 3) = some o →
      opFind s tag.val = some o →
      rsaFields s o = none →
      s.ks.identity = some id →
      ∃ t, exec (.certRead tag) s = .next t
        ∧ (opFind t tag.val).map (·.result) = some (some (.ok, false, id.2)))
  ∧ (∀ (s : State) (tag : Fin 512) (o : Op),
      hpkStart s tag.val 3 (fun p => rsOp p = 3) = some o →
      opFind s tag.val = some o →
      rsaFields s o = none →
      s.ks.identity = none →
      ∃ t, exec (.certRead tag) s = .next t
        ∧ (opFind t tag.val).map (·.result) = some (some (.notReady, false, [])))

/-- For the record job served next whose checks pass. NVM_RECORD_READ: of an absent record OK with the absent flag and no
payload, the record layer unchanged; of a record with a copy selected OK with its SEQ, length, flags and payload; the
same with CONFLICTED and event bit 1 where the copies conflict; of copies that both fail ECC_ERROR with event bit 2.
NVM_RECORD_WRITE: refused by the energy check LOW_ENERGY with event bit 3, both banks and the record as they were, VHOLD
as measured; an absent record, with the check passed, a free run in the lower bank and the write verified: OK with SEQ
1, the record reads back the bytes at SRC and the upper bank stays. -/
def Obligations.RecordJobs : Prop :=
  (∀ (s : State) (tag : Fin 512) (o : Op),
      nvStart s tag.val (fun k => k = 0 || k > 4) = some o →
      nvCheck s o = none →
      opFind s tag.val = some o →
      select s (nvId (dsParams o.desc)) = .absent →
      ∃ t, exec (.nvmRecordRead tag) s = .next t
        ∧ (opFind t tag.val).map (·.result) = some (some (.ok, false, readHead 0 0 8))
        ∧ t.nvm = s.nvm)
  ∧ (∀ (s : State) (tag : Fin 512) (o : Op) (c : Copy) (u : Bool),
      nvStart s tag.val (fun k => k = 0 || k > 4) = some o →
      nvCheck s o = none →
      opFind s tag.val = some o →
      select s (nvId (dsParams o.desc)) = .copy c u false →
      ∃ t, exec (.nvmRecordRead tag) s = .next t
        ∧ (opFind t tag.val).map (·.result) = some (some (.ok, false, readHead c.seq.toNat c.data.length (b2n u + 4 * b2n o.corrected) ++ c.data)))
  ∧ (∀ (s : State) (tag : Fin 512) (o : Op) (c : Copy) (u : Bool),
      nvStart s tag.val (fun k => k = 0 || k > 4) = some o →
      nvCheck s o = none →
      opFind s tag.val = some o →
      select s (nvId (dsParams o.desc)) = .copy c u true →
      ∃ t, exec (.nvmRecordRead tag) s = .next t
        ∧ (opFind t tag.val).map (·.result) = some (some (.conflicted, false, readHead c.seq.toNat c.data.length (b2n u + 2 + 4 * b2n o.corrected) ++ c.data))
        ∧ t.nvm.evt.getLsbD 1 = true)
  ∧ (∀ (s : State) (tag : Fin 512) (o : Op),
      nvStart s tag.val (fun k => k = 0 || k > 4) = some o →
      nvCheck s o = none →
      opFind s tag.val = some o →
      select s (nvId (dsParams o.desc)) = .bad →
      ∃ t, exec (.nvmRecordRead tag) s = .next t
        ∧ (opFind t tag.val).map (·.result) = some (some (.eccError, false, []))
        ∧ t.nvm.evt.getLsbD 2 = true)
  ∧ (∀ (s : State) (tag : Fin 512) (o : Op) (mv : Nat) (v1 v2 : Bool),
      nvStart (seeVhold mv s) tag.val (· = 1) = some o →
      nvCheck (seeVhold mv s) o = none →
      opFind s tag.val = some o →
      energyOk false (copyGroups (winRead s (dsSrc o.desc) (dsSrcLen o.desc)).length) (noteSel (select s (nvId (dsParams o.desc))) (seeVhold mv s)) = false →
      ∃ t, exec (.nvmRecordWrite tag mv v1 v2) s = .next t
        ∧ (opFind t tag.val).map (·.result) = some (some (.lowEnergy, false, []))
        ∧ t.nvm.evt.getLsbD 3 = true
        ∧ t.nvm.lower = s.nvm.lower
        ∧ t.nvm.upper = s.nvm.upper
        ∧ t.sup.vhold = mv)
  ∧ (∀ (s : State) (tag : Fin 512) (o : Op) (mv : Nat) (v2 : Bool) (f : Nat),
      nvStart (seeVhold mv s) tag.val (· = 1) = some o →
      nvCheck (seeVhold mv s) o = none →
      opFind s tag.val = some o →
      select s (nvId (dsParams o.desc)) = .absent →
      energyOk false (copyGroups (winRead s (dsSrc o.desc) (dsSrcLen o.desc)).length) (seeVhold mv s) = true →
      findRun s.nvm.lower s.nvm.freeLower (copyFrames (winRead s (dsSrc o.desc) (dsSrcLen o.desc)).length) = some f →
      ∃ t, exec (.nvmRecordWrite tag mv true v2) s = .next t
        ∧ (opFind t tag.val).map (·.result) = some (some (.ok, false, [1, 0, 0, 0, 0, 0, 0, 0]))
        ∧ recRead t (nvId (dsParams o.desc)) = some (winRead s (dsSrc o.desc) (dsSrcLen o.desc))
        ∧ t.nvm.upper = s.nvm.upper)

/-- For the counter job served next whose checks pass. CTR_READ: OK with the larger of the counter's value and the value AON
holds, which the counter then has; an unreadable counter ECC_ERROR, no counter changed. CTR_INC admitted by the energy
check: OK with the value plus 1, in the counter and in AON; at 2^32 − 1 LOCKED with event bit 6; refused by the check
LOW_ENERGY and the value stays; unreadable ECC_ERROR. CTR_ADVANCE to a value not above the counter's: OK with the
counter's value; admitted: OK with the larger of the two, which the counter then has; refused: LOW_ENERGY with event bit
3. -/
def Obligations.CounterJobs : Prop :=
  (∀ (s : State) (tag : Fin 512) (o : Op),
      nvStart s tag.val (· = 2) = some o →
      nvCheck s o = none →
      opFind s tag.val = some o →
      (ctrGet s (nvId (dsParams o.desc))).readable = true →
      ∃ t, exec (.ctrRead tag) s = .next t
        ∧ (opFind t tag.val).map (·.result) = some (some (.ok, false, ctrOut (max (ctrGet s (nvId (dsParams o.desc))).value (ctrGet s (nvId (dsParams o.desc))).held)))
        ∧ (ctrGet t (nvId (dsParams o.desc))).value = max (ctrGet s (nvId (dsParams o.desc))).value (ctrGet s (nvId (dsParams o.desc))).held)
  ∧ (∀ (s : State) (tag : Fin 512) (o : Op),
      nvStart s tag.val (· = 2) = some o →
      nvCheck s o = none →
      opFind s tag.val = some o →
      (ctrGet s (nvId (dsParams o.desc))).readable = false →
      ∃ t, exec (.ctrRead tag) s = .next t
        ∧ (opFind t tag.val).map (·.result) = some (some (.eccError, false, []))
        ∧ t.nvm.ctrs = s.nvm.ctrs)
  ∧ (∀ (s : State) (tag : Fin 512) (o : Op) (mv v : Nat),
      nvStart (seeVhold mv s) tag.val (· = 3) = some o →
      nvCheck (seeVhold mv s) o = none →
      opFind s tag.val = some o →
      (ctrRead (nvId (dsParams o.desc)) (seeVhold mv s)).1 = some v →
      energyOk false 1 (ctrRead (nvId (dsParams o.desc)) (seeVhold mv s)).2 = true →
      v < 2 ^ 32 - 1 →
      ∃ t, exec (.ctrInc tag mv) s = .next t
        ∧ (opFind t tag.val).map (·.result) = some (some (.ok, false, ctrOut (v + 1)))
        ∧ (ctrGet t (nvId (dsParams o.desc))).value = v + 1
        ∧ (ctrGet t (nvId (dsParams o.desc))).held = v + 1)
  ∧ (∀ (s : State) (tag : Fin 512) (o : Op) (mv v : Nat),
      nvStart (seeVhold mv s) tag.val (· = 3) = some o →
      nvCheck (seeVhold mv s) o = none →
      opFind s tag.val = some o →
      (ctrRead (nvId (dsParams o.desc)) (seeVhold mv s)).1 = some v →
      energyOk false 1 (ctrRead (nvId (dsParams o.desc)) (seeVhold mv s)).2 = true →
      2 ^ 32 - 1 ≤ v →
      ∃ t, exec (.ctrInc tag mv) s = .next t
        ∧ (opFind t tag.val).map (·.result) = some (some (.locked, false, []))
        ∧ t.nvm.evt.getLsbD 6 = true)
  ∧ (∀ (s : State) (tag : Fin 512) (o : Op) (mv v : Nat),
      nvStart (seeVhold mv s) tag.val (· = 3) = some o →
      nvCheck (seeVhold mv s) o = none →
      opFind s tag.val = some o →
      (ctrRead (nvId (dsParams o.desc)) (seeVhold mv s)).1 = some v →
      energyOk false 1 (ctrRead (nvId (dsParams o.desc)) (seeVhold mv s)).2 = false →
      ∃ t, exec (.ctrInc tag mv) s = .next t
        ∧ (opFind t tag.val).map (·.result) = some (some (.lowEnergy, false, []))
        ∧ (ctrGet t (nvId (dsParams o.desc))).value = v)
  ∧ (∀ (s : State) (tag : Fin 512) (o : Op) (mv : Nat),
      nvStart (seeVhold mv s) tag.val (· = 3) = some o →
      nvCheck (seeVhold mv s) o = none →
      opFind s tag.val = some o →
      (ctrGet s (nvId (dsParams o.desc))).readable = false →
      ∃ t, exec (.ctrInc tag mv) s = .next t
        ∧ (opFind t tag.val).map (·.result) = some (some (.eccError, false, []))
        ∧ t.nvm.ctrs = s.nvm.ctrs)
  ∧ (∀ (s : State) (tag : Fin 512) (o : Op) (mv v : Nat),
      nvStart (seeVhold mv s) tag.val (· = 4) = some o →
      nvCheck (seeVhold mv s) o = none →
      opFind s tag.val = some o →
      (ctrRead (nvId (dsParams o.desc)) (seeVhold mv s)).1 = some v →
      nvValue (dsParams o.desc) ≤ v →
      ∃ t, exec (.ctrAdvance tag mv) s = .next t
        ∧ (opFind t tag.val).map (·.result) = some (some (.ok, false, ctrOut v)))
  ∧ (∀ (s : State) (tag : Fin 512) (o : Op) (mv v : Nat),
      nvStart (seeVhold mv s) tag.val (· = 4) = some o →
      nvCheck (seeVhold mv s) o = none →
      opFind s tag.val = some o →
      (ctrRead (nvId (dsParams o.desc)) (seeVhold mv s)).1 = some v →
      energyOk false 1 (ctrRead (nvId (dsParams o.desc)) (seeVhold mv s)).2 = false →
      v < nvValue (dsParams o.desc) →
      ∃ t, exec (.ctrAdvance tag mv) s = .next t
        ∧ (opFind t tag.val).map (·.result) = some (some (.lowEnergy, false, []))
        ∧ t.nvm.evt.getLsbD 3 = true)
  ∧ (∀ (s : State) (tag : Fin 512) (o : Op) (mv v : Nat),
      nvStart (seeVhold mv s) tag.val (· = 4) = some o →
      nvCheck (seeVhold mv s) o = none →
      opFind s tag.val = some o →
      (ctrRead (nvId (dsParams o.desc)) (seeVhold mv s)).1 = some v →
      energyOk false 1 (ctrRead (nvId (dsParams o.desc)) (seeVhold mv s)).2 = true →
      ∃ t, exec (.ctrAdvance tag mv) s = .next t
        ∧ (opFind t tag.val).map (·.result) = some (some (.ok, false, ctrOut (max v (nvValue (dsParams o.desc)))))
        ∧ (ctrGet t (nvId (dsParams o.desc))).value = max v (nvValue (dsParams o.desc)))

/-- While the record layer is powered and measured and no record job that writes waits. Admitted: NVM_PRECLEAR of a counter
with a marked row clears the mark, and its value stays where both rows are valid; NVM_REFRESH takes the first queued
copy off the queue, and record, sequence, place, payload and state of every lower copy and what the record reads as
stay; NVM_RUN_FREEING takes the first old run off its queue, each frame of it is free in its bank, the copies stay.
Refused: each leaves its work queued and its memory unchanged, with event bit 3. -/
def Obligations.RecordLayerBackground : Prop :=
  (∀ (s : State) (n : Fin 128) (mv : Nat),
      nvmOn s = true →
      s.sup.measured = true →
      s.job.ops.any (fun o => dsKind o.desc = 5 && nvWrites o && o.result.isNone) = false →
      (ctrGet s n.val).preclear.isSome = true →
      energyOk false 16 (seeVhold mv s) = true →
      ∃ t, exec (.nvmPreclear n mv) s = .next t
        ∧ (ctrGet t n.val).preclear = none
        ∧ ((ctrGet s n.val).v0 = true → (ctrGet s n.val).v1 = true → (ctrGet t n.val).value = (ctrGet s n.val).value))
  ∧ (∀ (s : State) (n : Fin 128) (mv : Nat),
      nvmOn s = true →
      s.sup.measured = true →
      s.job.ops.any (fun o => dsKind o.desc = 5 && nvWrites o && o.result.isNone) = false →
      (ctrGet s n.val).preclear.isSome = true →
      energyOk false 16 (seeVhold mv s) = false →
      ∃ t, exec (.nvmPreclear n mv) s = .next t
        ∧ t.nvm.ctrs = s.nvm.ctrs
        ∧ t.nvm.evt.getLsbD 3 = true)
  ∧ (∀ (s : State) (mv : Nat) (rid : Nat) (u : Bool) (r : List (Nat × Bool)),
      nvmOn s = true →
      s.sup.measured = true →
      s.job.ops.any (fun o => dsKind o.desc = 5 && nvWrites o && o.result.isNone) = false →
      s.nvm.refresh = (rid, u) :: r →
      s.nvm.ledger = none →
      energyOk false (match bankCopy (if u then s.nvm.upper else s.nvm.lower) rid with | some c => copyGroups c.data.length | none => 0) (seeVhold mv s) = true →
      ∃ t, exec (.nvmRefresh mv) s = .next t
        ∧ t.nvm.refresh = r
        ∧ t.nvm.lower.map (fun c => (c.rid, c.seq, c.frame, c.data, c.ok)) = s.nvm.lower.map (fun c => (c.rid, c.seq, c.frame, c.data, c.ok))
        ∧ recRead t rid = recRead s rid)
  ∧ (∀ (s : State) (mv : Nat) (rid : Nat) (u : Bool) (r : List (Nat × Bool)),
      nvmOn s = true →
      s.sup.measured = true →
      s.job.ops.any (fun o => dsKind o.desc = 5 && nvWrites o && o.result.isNone) = false →
      s.nvm.refresh = (rid, u) :: r →
      energyOk false (match bankCopy (if u then s.nvm.upper else s.nvm.lower) rid with | some c => copyGroups c.data.length | none => 0) (seeVhold mv s) = false →
      ∃ t, exec (.nvmRefresh mv) s = .next t
        ∧ t.nvm.refresh = s.nvm.refresh
        ∧ t.nvm.lower = s.nvm.lower
        ∧ t.nvm.upper = s.nvm.upper
        ∧ t.nvm.evt.getLsbD 3 = true)
  ∧ (∀ (s : State) (mv : Nat) (x : Bool × Nat × Nat × Nat) (r : List (Bool × Nat × Nat × Nat)),
      nvmOn s = true →
      s.sup.measured = true →
      s.job.ops.any (fun o => dsKind o.desc = 5 && nvWrites o && o.result.isNone) = false →
      s.nvm.freeing = x :: r →
      energyOk false x.2.2.1 (seeVhold mv s) = false →
      ∃ t, exec (.nvmRunFreeing mv) s = .next t
        ∧ t.nvm.freeing = s.nvm.freeing
        ∧ t.nvm.freeLower = s.nvm.freeLower
        ∧ t.nvm.freeUpper = s.nvm.freeUpper
        ∧ t.nvm.evt.getLsbD 3 = true)
  ∧ (∀ (s : State) (mv : Nat) (x : Bool × Nat × Nat × Nat) (r : List (Bool × Nat × Nat × Nat)),
      nvmOn s = true →
      s.sup.measured = true →
      s.job.ops.any (fun o => dsKind o.desc = 5 && nvWrites o && o.result.isNone) = false →
      s.nvm.freeing = x :: r →
      energyOk false x.2.2.1 (seeVhold mv s) = true →
      ∃ t, exec (.nvmRunFreeing mv) s = .next t
        ∧ t.nvm.freeing = r
        ∧ t.nvm.lower = s.nvm.lower
        ∧ t.nvm.upper = s.nvm.upper
        ∧ (∀ i < x.2.2.1, (x.2.1 + i, x.2.2.2) ∈ (if x.1 then t.nvm.freeUpper else t.nvm.freeLower)))

/-- RANDOM_FILL of the fill served next with enough words queued: OK with the first bytes of the words at the head of the
queue, which leave it; with the generator failed ENTROPY_FAIL and the generator unchanged. RNG_QUEUE_REFILL with at most
56 words queued and the generator serving: eight words more behind those there, one request counted. RNG_RESEED at
65,536 requests with no sequence open: REQUESTS 0, one reseed counted, the queue as it was. RNG_DATA0_READ by CPG1: the
low word of the head of the queue, the rest held, VALID set; with an empty queue zeros and VALID clear.
RNG_DATA_HIGH_READ by CPG1: the held word, which then reads zero, the others and the queue unchanged; by another page
nothing changes. -/
def Obligations.GeneratorQueue : Prop :=
  (∀ (s : State) (tag : Fin 512) (o : Op),
      opLive s tag.val 4 = some o →
      opFind s tag.val = some o →
      engineNext (fun x => dsKind x.desc = 4) s o = true →
      rngFails s = false →
      (dsDstLen o.desc + 15) / 16 ≤ s.rng.queue.length →
      ∃ t, exec (.randomFill tag) s = .next t
        ∧ (opFind t tag.val).map (·.result) = some (some (.ok, false, ((s.rng.queue.take ((dsDstLen o.desc + 15) / 16)).flatMap (fun w => leBytes 16 w.toNat)).take (dsDstLen o.desc)))
        ∧ t.rng.queue = s.rng.queue.drop ((dsDstLen o.desc + 15) / 16))
  ∧ (∀ (s : State) (tag : Fin 512) (o : Op),
      opLive s tag.val 4 = some o →
      opFind s tag.val = some o →
      engineNext (fun x => dsKind x.desc = 4) s o = true →
      rngFails s = true →
      ∃ t, exec (.randomFill tag) s = .next t
        ∧ (opFind t tag.val).map (·.result) = some (some (.entropyFail, false, []))
        ∧ t.rng = s.rng)
  ∧ (∀ (s : State),
      secOn s = true →
      rngServes s = true →
      s.rng.queue.length ≤ 56 →
      ∃ t, exec (.rngQueueRefill) s = .next t
        ∧ t.rng.queue.take s.rng.queue.length = s.rng.queue
        ∧ t.rng.queue.length = s.rng.queue.length + 8
        ∧ t.rng.requests = s.rng.requests + 1)
  ∧ (∀ (s : State),
      65536 ≤ s.rng.requests →
      s.rng.seeded = true →
      s.rng.recovering = false →
      s.rng.reinst = false →
      s.rng.latched = false →
      secOn s = true →
      s.acc.seqn = none →
      s.acc.remotes = [] →
      ∃ t, exec (.rngReseed) s = .next t
        ∧ t.rng.requests = 0
        ∧ t.rng.reseeds = satInc 65535 s.rng.reseeds
        ∧ t.rng.queue = s.rng.queue)
  ∧ (∀ (s : State) (page : Fin 8) (w : BitVec 128) (q : List (BitVec 128)),
      pageLive s page.val = true →
      page = 1 →
      s.rng.queue = w :: q →
      ∃ t, exec (.rngData0Read page) s = .next t
        ∧ t.spi.rdata = leBytes 4 (w.toNat % 2 ^ 32)
        ∧ t.rng.data = w.extractLsb' 32 96
        ∧ t.rng.valid = true
        ∧ t.rng.queue = q
        ∧ t.spi.status = .ok)
  ∧ (∀ (s : State) (page : Fin 8),
      pageLive s page.val = true →
      page = 1 →
      s.rng.queue = [] →
      ∃ t, exec (.rngData0Read page) s = .next t
        ∧ t.spi.rdata = [0, 0, 0, 0]
        ∧ t.rng.data = 0
        ∧ t.rng.valid = false)
  ∧ (∀ (s : State) (page : Fin 8) (n : Fin 3),
      pageLive s page.val = true →
      page = 1 →
      ∃ t, exec (.rngDataHighRead page n) s = .next t
        ∧ t.spi.rdata = leBytes 4 (s.rng.data.toNat / 2 ^ (32 * n.val) % 2 ^ 32)
        ∧ t.rng.data.toNat / 2 ^ (32 * n.val) % 2 ^ 32 = 0
        ∧ (∀ m : Fin 3, m ≠ n → t.rng.data.toNat / 2 ^ (32 * m.val) % 2 ^ 32 = s.rng.data.toNat / 2 ^ (32 * m.val) % 2 ^ 32)
        ∧ t.rng.queue = s.rng.queue)
  ∧ (∀ (s : State) (page : Fin 8) (n : Fin 3),
      pageLive s page.val = true →
      page ≠ 1 →
      ∃ t, exec (.rngDataHighRead page n) s = .next t
        ∧ t.rng = s.rng
        ∧ t.spi.rdata = s.spi.rdata
        ∧ t.spi.status = s.spi.status)

/-- With SEC powered, no sequence open and the generator not latched. RNG_HEALTH_FAILURE with the source on: below two
failures in a row the queue is empty, the seed gone, recovery begun, the failure counted, its test's event bit and the
condition 0xB74100 set; from two on the generator latches, its source is off, event bit 4 and the condition 0xB74101 are
set and RNG_READY is clear. RNG_RECOVERY_COMPLETE in a recovery: seeded, FAIL_RUN 0, RNG_READY and event bit 3 set, the
condition 0xB74100 gone. RNG_REINSTANTIATION_COMPLETE of an ordered re-instantiation: seeded, FAIL_RUN 0, no event. -/
def Obligations.GeneratorFailures : Prop :=
  (∀ (s : State) (h : HealthTest),
      secOn s = true →
      s.acc.seqn = none →
      s.acc.remotes = [] →
      s.rng.latched = false →
      s.rng.sourceOn = true →
      s.rng.failRun < 2 →
      ∃ t, exec (.rngHealthFailure h) s = .next t
        ∧ t.rng.queue = []
        ∧ t.rng.seeded = false
        ∧ t.rng.recovering = true
        ∧ t.rng.latched = false
        ∧ t.rng.failRun = s.rng.failRun + 1
        ∧ t.rng.failures = satInc 65535 s.rng.failures
        ∧ t.rng.evt.getLsbD (testBit_ h) = true
        ∧ 0xB74100 ∈ t.diag.conditions)
  ∧ (∀ (s : State) (h : HealthTest),
      secOn s = true →
      s.acc.seqn = none →
      s.acc.remotes = [] →
      s.rng.latched = false →
      s.rng.sourceOn = true →
      2 ≤ s.rng.failRun →
      ∃ t, exec (.rngHealthFailure h) s = .next t
        ∧ t.rng.queue = []
        ∧ t.rng.latched = true
        ∧ t.rng.sourceOn = false
        ∧ t.rng.recovering = false
        ∧ t.rng.evt.getLsbD 4 = true
        ∧ 0xB74101 ∈ t.diag.conditions
        ∧ t.boot.rngReady = false)
  ∧ (∀ (s : State),
      secOn s = true →
      s.acc.seqn = none →
      s.acc.remotes = [] →
      s.rng.latched = false →
      s.rng.recovering = true →
      ∃ t, exec (.rngRecoveryComplete) s = .next t
        ∧ t.rng.seeded = true
        ∧ t.rng.recovering = false
        ∧ t.rng.failRun = 0
        ∧ t.boot.rngReady = true
        ∧ t.rng.evt.getLsbD 3 = true
        ∧ 0xB74100 ∉ t.diag.conditions)
  ∧ (∀ (s : State),
      secOn s = true →
      s.acc.seqn = none →
      s.acc.remotes = [] →
      s.rng.latched = false →
      s.rng.reinst = true →
      ∃ t, exec (.rngReinstantiationComplete) s = .next t
        ∧ t.rng.seeded = true
        ∧ t.rng.reinst = false
        ∧ t.rng.failRun = 0
        ∧ t.rng.evt = s.rng.evt)

/-- TAMPER_PIN_ONSET of a watched pin without an onset, after start-up: at step 0 the source is counted, present and nothing
else; at step 4 with a reset action of 0 the tamper latch is set, the permit in deny, the session closed, the slots 56
and 63 without a key, the queue empty, its event bit set. In start-up the event is captured, not counted; a pin whose
onset stands: no event. MESH_SAMPLE in Run of a mesh pair: a first difference is counted as one, a second raises source
2n + 1 (shown at step 0), an equal sample clears the count. SUPPLY_GLITCH: in start-up captured; with its onset standing
no event; otherwise counted and the ladder's step applied, step 1 with its event, its condition and a log entry written
or held. CLOCK_MONITOR_FAULT and TEMPERATURE_MONITOR_SAMPLE: outside the monitored states nothing changes; in them the
fault, or a sample below −55 or above 170 °C, is counted and present (shown at step 0); a sample inside leaves the
source absent and uncounted; in start-up from step 3 the clock fault is captured. TAMPER_CONDITION_END after 1 ms or
more: onset, presence and condition go; earlier only presence. ERASE_PENDING_RETRY after start-up: a held latch record
that is written is no longer held; a held class erase that is written leaves the class without a key, its epoch one on. -/
def Obligations.TamperWatch : Prop :=
  (∀ (s : State) (pin : Fin 4),
      vget s.tmp.mode pin.val 0 = 1 ∨ vget s.tmp.mode pin.val 0 = 2 ∨ (vget s.tmp.mode pin.val 0 = 4 ∧ s.pwr.st = .fallow) →
      s.tmp.onset.getLsbD pin.val = false →
      s.pwr.st ≠ .startUp →
      s.pwr.st ≠ .waitNoPair →
      ladderStep (policySec s) pin.val (satInc 255 (vget s.tmp.count pin.val 0)) = 0 →
      ∃ t, exec (.tamperPinOnset pin) s = .next t
        ∧ vget t.tmp.count pin.val 0 = satInc 255 (vget s.tmp.count pin.val 0)
        ∧ t.tmp.onset.getLsbD pin.val = true
        ∧ t.tmp.active.getLsbD pin.val = true
        ∧ t.tmp.latch = s.tmp.latch
        ∧ t.nvm = s.nvm)
  ∧ (∀ (s : State) (pin : Fin 4),
      vget s.tmp.mode pin.val 0 = 1 ∨ vget s.tmp.mode pin.val 0 = 2 ∨ (vget s.tmp.mode pin.val 0 = 4 ∧ s.pwr.st = .fallow) →
      s.tmp.onset.getLsbD pin.val = false →
      s.pwr.st ≠ .startUp →
      s.pwr.st ≠ .waitNoPair →
      ladderStep (policySec s) pin.val (satInc 255 (vget s.tmp.count pin.val 0)) = 4 →
      poAction (policySec s) pin.val % 4 = 0 →
      ∃ t, exec (.tamperPinOnset pin) s = .next t
        ∧ t.tmp.latch = true
        ∧ t.permit.latch = false
        ∧ t.acc.sessOpen = false
        ∧ (slotGet t 56).key = none
        ∧ (slotGet t 63).key = none
        ∧ t.tmp.evt.getLsbD pin.val = true
        ∧ t.rng.queue = [])
  ∧ (∀ (s : State) (pin : Fin 4),
      vget s.tmp.mode pin.val 0 = 1 ∨ vget s.tmp.mode pin.val 0 = 2 ∨ (vget s.tmp.mode pin.val 0 = 4 ∧ s.pwr.st = .fallow) →
      s.tmp.onset.getLsbD pin.val = false →
      s.pwr.st = .startUp ∨ s.pwr.st = .waitNoPair →
      ∃ t, exec (.tamperPinOnset pin) s = .next t
        ∧ t.tmp.captured = s.tmp.captured ++ [pin.val]
        ∧ t.tmp.onset.getLsbD pin.val = true
        ∧ t.tmp.count = s.tmp.count
        ∧ t.nvm = s.nvm)
  ∧ (∀ (s : State) (pin : Fin 4),
      s.tmp.onset.getLsbD pin.val = true →
      ∃ t, exec (.tamperPinOnset pin) s = .next t
        ∧ t.tmp.count = s.tmp.count
        ∧ t.tmp.log = s.tmp.log
        ∧ t.acc = s.acc)
  ∧ (∀ (s : State) (pair : Fin 2),
      vget s.tmp.mode (2 * pair.val) 0 = 3 →
      s.pwr.st = .run →
      vget s.tmp.diff pair.val 0 = 0 →
      ∃ t, exec (.meshSample pair true) s = .next t
        ∧ vget t.tmp.diff pair.val 0 = 1
        ∧ t.tmp.count = s.tmp.count)
  ∧ (∀ (s : State) (pair : Fin 2),
      vget s.tmp.mode (2 * pair.val) 0 = 3 →
      s.pwr.st = .run →
      1 ≤ vget s.tmp.diff pair.val 0 →
      s.tmp.onset.getLsbD (2 * pair.val + 1) = false →
      ladderStep (policySec s) (2 * pair.val + 1) (satInc 255 (vget s.tmp.count (2 * pair.val + 1) 0)) = 0 →
      ∃ t, exec (.meshSample pair true) s = .next t
        ∧ vget t.tmp.diff pair.val 0 = 2
        ∧ vget t.tmp.count (2 * pair.val + 1) 0 = satInc 255 (vget s.tmp.count (2 * pair.val + 1) 0))
  ∧ (∀ (s : State) (pair : Fin 2),
      vget s.tmp.mode (2 * pair.val) 0 = 3 →
      s.pwr.st = .run →
      ∃ t, exec (.meshSample pair false) s = .next t
        ∧ vget t.tmp.diff pair.val 0 = 0
        ∧ t.tmp.count = s.tmp.count)
  ∧ (∀ (s : State),
      s.tmp.onset.getLsbD 4 = false →
      s.pwr.st = .startUp ∨ s.pwr.st = .waitNoPair →
      ∃ t, exec (.supplyGlitch) s = .next t
        ∧ t.tmp.captured = s.tmp.captured ++ [4]
        ∧ t.tmp.count = s.tmp.count)
  ∧ (∀ (s : State),
      s.tmp.onset.getLsbD 4 = true →
      ∃ t, exec (.supplyGlitch) s = .next t
        ∧ t.tmp.count = s.tmp.count
        ∧ t.tmp.log = s.tmp.log
        ∧ t.acc = s.acc)
  ∧ (∀ (s : State),
      s.tmp.onset.getLsbD 4 = false →
      s.pwr.st ≠ .startUp →
      s.pwr.st ≠ .waitNoPair →
      poAction (policySec s) 4 % 4 = 0 →
      ∃ t, exec (.supplyGlitch) s = .next t
        ∧ vget t.tmp.count 4 0 = satInc 255 (vget s.tmp.count 4 0)
        ∧ vget t.tmp.applied 4 0 = ladderStep (policySec s) 4 (satInc 255 (vget s.tmp.count 4 0))
        ∧ t.tmp.onset.getLsbD 4 = true)
  ∧ (∀ (s : State),
      s.tmp.onset.getLsbD 4 = false →
      s.pwr.st ≠ .startUp →
      s.pwr.st ≠ .waitNoPair →
      ladderStep (policySec s) 4 (satInc 255 (vget s.tmp.count 4 0)) = 1 →
      poAction (policySec s) 4 % 4 = 0 →
      ∃ t, exec (.supplyGlitch) s = .next t
        ∧ t.tmp.evt.getLsbD 4 = true
        ∧ vget t.tmp.applied 4 0 = 1
        ∧ t.tmp.latch = s.tmp.latch
        ∧ 0xB76004 ∈ t.diag.conditions
        ∧ (t.tmp.heldLog ≠ [] ∨ t.tmp.log ≠ []))
  ∧ (∀ (s : State),
      s.tmp.onset.getLsbD 5 = false →
      monitored s = true →
      s.pwr.st ≠ .startUp →
      s.pwr.st ≠ .waitNoPair →
      ladderStep (policySec s) 5 (satInc 255 (vget s.tmp.count 5 0)) = 0 →
      ∃ t, exec (.clockMonitorFault) s = .next t
        ∧ vget t.tmp.count 5 0 = satInc 255 (vget s.tmp.count 5 0)
        ∧ t.tmp.active.getLsbD 5 = true)
  ∧ (∀ (s : State),
      monitored s = false ∨ (s.pwr.st = .startUp ∧ s.boot.step < 3) →
      exec (.clockMonitorFault) s = .next (settle s (s)))
  ∧ (∀ (s : State) (tj : Int),
      monitored s = false →
      exec (.temperatureMonitorSample tj) s = .next (settle s (s)))
  ∧ (∀ (s : State),
      s.pwr.st = .startUp →
      3 ≤ s.boot.step →
      s.tmp.onset.getLsbD 5 = false →
      ∃ t, exec (.clockMonitorFault) s = .next t
        ∧ t.tmp.captured = s.tmp.captured ++ [5]
        ∧ t.tmp.count = s.tmp.count)
  ∧ (∀ (s : State) (tj : Int),
      s.tmp.onset.getLsbD 6 = false →
      monitored s = true →
      s.pwr.st ≠ .startUp →
      s.pwr.st ≠ .waitNoPair →
      ladderStep (policySec s) 6 (satInc 255 (vget s.tmp.count 6 0)) = 0 →
      tj < -55 ∨ 170 < tj →
      ∃ t, exec (.temperatureMonitorSample tj) s = .next t
        ∧ vget t.tmp.count 6 0 = satInc 255 (vget s.tmp.count 6 0)
        ∧ t.tmp.active.getLsbD 6 = true)
  ∧ (∀ (s : State) (tj : Int),
      monitored s = true →
      -55 ≤ tj →
      tj ≤ 170 →
      ∃ t, exec (.temperatureMonitorSample tj) s = .next t
        ∧ t.tmp.count = s.tmp.count
        ∧ t.tmp.active.getLsbD 6 = false
        ∧ t.tmp.onset = s.tmp.onset)
  ∧ (∀ (s : State) (src : Fin 7) (ns : Nat),
      1000000 ≤ ns →
      ∃ t, exec (.tamperConditionEnd src ns) s = .next t
        ∧ t.tmp.onset.getLsbD src.val = false
        ∧ t.tmp.active.getLsbD src.val = false
        ∧ (0xB76000 + src.val) ∉ t.diag.conditions
        ∧ t.tmp.count = s.tmp.count)
  ∧ (∀ (s : State) (src : Fin 7) (ns : Nat),
      ns < 1000000 →
      ∃ t, exec (.tamperConditionEnd src ns) s = .next t
        ∧ t.tmp.onset = s.tmp.onset
        ∧ t.tmp.active.getLsbD src.val = false
        ∧ t.diag = s.diag)
  ∧ (∀ (s : State) (mv : Nat),
      s.pwr.st ≠ .startUp →
      s.pwr.st ≠ .waitNoPair →
      s.tmp.erasePending = 0 →
      s.tmp.heldLatch = true →
      s.tmp.heldLog = [] →
      (latchWrite (seeVhold mv s)).1 = true →
      ∃ t, exec (.erasePendingRetry mv) s = .next t
        ∧ tamperHeld t = false
        ∧ t.tmp.latch = s.tmp.latch)
  ∧ (∀ (s : State) (mv : Nat) (c : Fin 4),
      s.pwr.st ≠ .startUp →
      s.pwr.st ≠ .waitNoPair →
      s.tmp.erasePending = onBit 4 c.val →
      s.tmp.heldLatch = false →
      s.tmp.heldLog = [] →
      (classErase c.val (seeVhold mv s)).1 = true →
      ∃ t, exec (.erasePendingRetry mv) s = .next t
        ∧ t.tmp.erasePending = 0
        ∧ vget t.ks.classKey c.val none = none
        ∧ vget t.ks.epoch c.val 0 = vget s.ks.epoch c.val 0 + 1)

/-- With the switch off, or on a port with no link, nothing changes. Otherwise: a wrong FCS counts FCS_ERR and one frame
received; a length outside 64 to 1,522 bytes and a VLAN unknown or without the port count DROP_FILTER; a reserved
address counts no filter drop; each of these leaves every queue and the learnt addresses as they were. A good frame that
a blocked or blocking flow filter catches counts its DROP, not its PASS, and enters no queue. A good frame no flow
catches, or from P8: its source is learnt and ports outside its egress mask keep their queues; where its one destination
is a linked port q that admits it, it stands last in q's queue of its class with the tag the VLAN gives it; where that
is P8 and its class is above 5 or the meter admits it, P8 carries it with its FCS and the idle timer restarts. -/
def Obligations.FrameForwarding : Prop :=
  (∀ (s : State) (port : Fin 9) (bytes : Bytes),
      swOn s = true →
      (port.val = 8 ∨ (portGet s port.val).rate ≠ 0) →
      bytes.length < 4 ∨ fcs (bytes.take (bytes.length - 4)) ≠ bytes.drop (bytes.length - 4) →
      ∃ t, exec (.frameReceive port bytes) s = .next t
        ∧ (portGet t port.val).fcsErr = sat32 (portGet s port.val).fcsErr 1
        ∧ (portGet t port.val).rx = sat32 (portGet s port.val).rx 1
        ∧ (∀ q < 8, (portGet t q).queues = (portGet s q).queues)
        ∧ t.sw.learnt = s.sw.learnt)
  ∧ (∀ (s : State) (port : Fin 9) (bytes : Bytes),
      swOn s = true →
      (port.val = 8 ∨ (portGet s port.val).rate ≠ 0) →
      4 ≤ bytes.length →
      fcs (bytes.take (bytes.length - 4)) = bytes.drop (bytes.length - 4) →
      bytes.length < 64 ∨ 1522 < bytes.length →
      ∃ t, exec (.frameReceive port bytes) s = .next t
        ∧ (portGet t port.val).dropFilter = sat32 (portGet s port.val).dropFilter 1
        ∧ (∀ q < 8, (portGet t q).queues = (portGet s q).queues)
        ∧ t.sw.learnt = s.sw.learnt)
  ∧ (∀ (s : State) (port : Fin 9) (bytes : Bytes),
    let f := bytes.take (bytes.length - 4);
      swOn s = true →
      (port.val = 8 ∨ (portGet s port.val).rate ≠ 0) →
      64 ≤ bytes.length →
      bytes.length ≤ 1522 →
      fcs f = bytes.drop (bytes.length - 4) →
      macReserved (frDa f) = true →
      ∃ t, exec (.frameReceive port bytes) s = .next t
        ∧ (portGet t port.val).dropFilter = (portGet s port.val).dropFilter
        ∧ (∀ q < 8, (portGet t q).queues = (portGet s q).queues)
        ∧ t.sw.learnt = s.sw.learnt)
  ∧ (∀ (s : State) (port : Fin 9) (bytes : Bytes),
    let f := bytes.take (bytes.length - 4);
    let vid := if frVid f = 0 then pvidOf s port.val else frVid f;
      swOn s = true →
      (port.val = 8 ∨ (portGet s port.val).rate ≠ 0) →
      64 ≤ bytes.length →
      bytes.length ≤ 1522 →
      fcs f = bytes.drop (bytes.length - 4) →
      macReserved (frDa f) = false →
      vlanOf (netSec s) vid = none ∨ (vlanOf (netSec s) vid).any (fun v => v.1.testBit port.val) = false →
      ∃ t, exec (.frameReceive port bytes) s = .next t
        ∧ (portGet t port.val).dropFilter = sat32 (portGet s port.val).dropFilter 1
        ∧ (∀ q < 8, (portGet t q).queues = (portGet s q).queues)
        ∧ t.sw.learnt = s.sw.learnt)
  ∧ (∀ (s : State) (port : Fin 9) (bytes : Bytes) (member untag q : Nat),
    let f := bytes.take (bytes.length - 4);
    let vid := if frVid f = 0 then pvidOf s port.val else frVid f;
      swOn s = true →
      (port.val = 8 ∨ (portGet s port.val).rate ≠ 0) →
      64 ≤ bytes.length →
      bytes.length ≤ 1522 →
      fcs f = bytes.drop (bytes.length - 4) →
      macReserved (frDa f) = false →
      vlanOf (netSec s) vid = some (member, untag) →
      member.testBit port.val = true →
      flowMatch (netSec s) port.val (frDa f) (frSa f) vid = none ∨ port.val = 8 →
      q < 8 →
      q ≠ port.val →
      egressMask (learn port.val vid (frSa f) s) port.val vid member (frDa f) = 2 ^ q →
      (portGet s q).rate ≠ 0 →
      admits s q (classOf (netSec s) port.val (if frVid f = 0 then defPcp (netSec s) port.val else frPcp f)) (if untag.testBit q then frUntag f else frTag f (if frVid f = 0 then defPcp (netSec s) port.val else frPcp f) vid) = true →
      ∃ t, exec (.frameReceive port bytes) s = .next t
        ∧ (let c := classOf (netSec s) port.val (if frVid f = 0 then defPcp (netSec s) port.val else frPcp f); vget (portGet t q).queues c [] = vget (portGet s q).queues c [] ++ [{ bytes := if untag.testBit q then frUntag f else frTag f (if frVid f = 0 then defPcp (netSec s) port.val else frPcp f) vid, launch := none, entry := none, permit := false, late := false }])
        ∧ t.sw.learnt = (learn port.val vid (frSa f) s).sw.learnt
        ∧ (∀ p < 8, p ≠ q → (portGet t p).queues = (portGet s p).queues))
  ∧ (∀ (s : State) (port : Fin 9) (bytes : Bytes),
      swOn s = false ∨ (port.val < 8 ∧ (portGet s port.val).rate = 0) →
      exec (.frameReceive port bytes) s = .next (settle s (s)))
  ∧ (∀ (s : State) (port : Fin 9) (bytes : Bytes) (member untag : Nat),
    let f := bytes.take (bytes.length - 4);
    let vid := if frVid f = 0 then pvidOf s port.val else frVid f;
      swOn s = true →
      (port.val = 8 ∨ (portGet s port.val).rate ≠ 0) →
      64 ≤ bytes.length →
      bytes.length ≤ 1522 →
      fcs f = bytes.drop (bytes.length - 4) →
      macReserved (frDa f) = false →
      vlanOf (netSec s) vid = some (member, untag) →
      member.testBit port.val = true →
      flowMatch (netSec s) port.val (frDa f) (frSa f) vid = none ∨ port.val = 8 →
      egressMask (learn port.val vid (frSa f) s) port.val vid member (frDa f) = 256 →
      5 < (classOf (netSec s) port.val (if frVid f = 0 then defPcp (netSec s) port.val else frPcp f)) ∨ (meterRun 256 (nwP8Rate (netSec s) * 10 ^ 6) 0 16384 0 ((if untag.testBit 8 then frUntag f else frTag f (if frVid f = 0 then defPcp (netSec s) port.val else frPcp f) vid).length + 4) s).1 = true →
      ∃ t, exec (.frameReceive port bytes) s = .next t
        ∧ (portGet t 8).lastTx = (if untag.testBit 8 then frUntag f else frTag f (if frVid f = 0 then defPcp (netSec s) port.val else frPcp f) vid) ++ fcs (if untag.testBit 8 then frUntag f else frTag f (if frVid f = 0 then defPcp (netSec s) port.val else frPcp f) vid)
        ∧ t.pwr.idleSince = s.elapsed
        ∧ t.sw.learnt = (learn port.val vid (frSa f) s).sw.learnt
        ∧ (∀ q < 8, (portGet t q).queues = (portGet s q).queues))
  ∧ (∀ (s : State) (port : Fin 9) (bytes : Bytes) (member untag i : Nat) (r : Bytes),
    let f := bytes.take (bytes.length - 4);
    let vid := if frVid f = 0 then pvidOf s port.val else frVid f;
      swOn s = true →
      (port.val = 8 ∨ (portGet s port.val).rate ≠ 0) →
      64 ≤ bytes.length →
      bytes.length ≤ 1522 →
      fcs f = bytes.drop (bytes.length - 4) →
      macReserved (frDa f) = false →
      port.val < 8 →
      vlanOf (netSec s) vid = some (member, untag) →
      member.testBit port.val = true →
      flowMatch (netSec s) port.val (frDa f) (frSa f) vid = some (i, r) →
      (flowGet s i).blocked = true ∨ bit (u8 r 1) 1 = true →
      ∃ t, exec (.frameReceive port bytes) s = .next t
        ∧ (flowGet t i).drop = min (2 ^ 31 - 1) ((flowGet s i).drop + 1)
        ∧ (flowGet t i).pass = (flowGet s i).pass
        ∧ (∀ q < 8, (portGet t q).queues = (portGet s q).queues))
  ∧ (∀ (s : State) (port : Fin 9) (bytes : Bytes) (member untag : Nat),
    let f := bytes.take (bytes.length - 4);
    let vid := if frVid f = 0 then pvidOf s port.val else frVid f;
      swOn s = true →
      (port.val = 8 ∨ (portGet s port.val).rate ≠ 0) →
      64 ≤ bytes.length →
      bytes.length ≤ 1522 →
      fcs f = bytes.drop (bytes.length - 4) →
      macReserved (frDa f) = false →
      vlanOf (netSec s) vid = some (member, untag) →
      member.testBit port.val = true →
      flowMatch (netSec s) port.val (frDa f) (frSa f) vid = none ∨ port.val = 8 →
      ∃ t, exec (.frameReceive port bytes) s = .next t
        ∧ (∀ p < 8, (egressMask (learn port.val vid (frSa f) s) port.val vid member (frDa f)).testBit p = false → (portGet t p).queues = (portGet s p).queues)
        ∧ t.sw.learnt = (learn port.val vid (frSa f) s).sw.learnt)

/-- LINK_UP of an enabled, unshed port at a fitting new rate: that rate and event bit 0, the queues kept; otherwise nothing.
LINK_DOWN of a linked port: rate 0, PLCA down, event bit 0, every queue empty; of another nothing. FRAME_TRANSMIT of a
head without launch time: with a gate that can never let it pass it is dropped and counted; with a gate that lets it
pass and no higher class ready it leaves with its FCS and counts; with the switch off, no link or an empty queue
nothing. ADDRESS_AGE_OUT of an address whose entries are all past the age: exactly they go. FRER_RESET past its time: no
history, event bit 3, DISCARDED kept. PLCA_STATUS_LOST: status clear with event bit 4. PLCA_BEACON_RESUME on a linked
port with a PLCA ID: status set, no event. SW_FLOW_UNBLOCK by CPG1 with key 0x5B1E: the flow is not blocked, its counts
stay; otherwise the switch does not change. -/
def Obligations.PortsAndQueues : Prop :=
  (∀ (s : State) (port : Fin 8) (rate : Fin 5),
      swOn s = true →
      nwPortEn (netSec s) port.val = true →
      portShed s port.val = false →
      rateFits (netSec s) port.val rate.val = true →
      (portGet s port.val).rate ≠ rate.val →
      ∃ t, exec (.linkUp port rate) s = .next t
        ∧ (portGet t port.val).rate = rate.val
        ∧ t.sw.evt.getLsbD 0 = true
        ∧ (portGet t port.val).queues = (portGet s port.val).queues)
  ∧ (∀ (s : State) (port : Fin 8),
      (portGet s port.val).rate ≠ 0 →
      ∃ t, exec (.linkDown port) s = .next t
        ∧ (portGet t port.val).rate = 0
        ∧ (portGet t port.val).plca = false
        ∧ t.sw.evt.getLsbD 0 = true
        ∧ (∀ c < 8, vget (portGet t port.val).queues c [] = []))
  ∧ (∀ (s : State) (port : Fin 8) (rate : Fin 5),
      swOn s = false ∨ nwPortEn (netSec s) port.val = false ∨ portShed s port.val = true ∨ rateFits (netSec s) port.val rate.val = false →
      exec (.linkUp port rate) s = .next (settle s (s)))
  ∧ (∀ (s : State) (port : Fin 8),
      (portGet s port.val).rate = 0 →
      exec (.linkDown port) s = .next (settle s (s)))
  ∧ (∀ (s : State) (port : Fin 9) (cls : Fin 8) (f : Frame) (r : List Frame),
      swOn s = true →
      (portGet s port.val).rate ≠ 0 →
      vget (portGet s port.val).queues cls.val [] = f :: r →
      f.launch = none →
      gateNever s port.val cls.val (frameNs f.bytes (portGet s port.val).rate) = true →
      ∃ t, exec (.frameTransmit port cls) s = .next t
        ∧ (portGet t port.val).dropGate = sat32 (portGet s port.val).dropGate 1
        ∧ (portGet t port.val).tx = (portGet s port.val).tx
        ∧ vget (portGet t port.val).queues cls.val [] = headLate (now48 s) r)
  ∧ (∀ (s : State) (port : Fin 9) (cls : Fin 8),
      swOn s = false ∨ (portGet s port.val).rate = 0 ∨ vget (portGet s port.val).queues cls.val [] = [] →
      exec (.frameTransmit port cls) s = .next (settle s (s)))
  ∧ (∀ (s : State) (port : Fin 9) (cls : Fin 8) (f : Frame) (r : List Frame),
      swOn s = true →
      (portGet s port.val).rate ≠ 0 →
      vget (portGet s port.val).queues cls.val [] = f :: r →
      f.launch = none →
      gateNever s port.val cls.val (frameNs f.bytes (portGet s port.val).rate) = false →
      gateLets s port.val cls.val (frameNs f.bytes (portGet s port.val).rate) = true →
      higherReady s port.val cls.val = false →
      ∃ t, exec (.frameTransmit port cls) s = .next t
        ∧ (portGet t port.val).lastTx = f.bytes ++ fcs f.bytes
        ∧ (portGet t port.val).tx = sat32 (portGet s port.val).tx 1
        ∧ vget (portGet t port.val).queues cls.val [] = headLate (now48 s) r)
  ∧ (∀ (s : State) (mac : BitVec 48) (vid : BitVec 12),
      (∀ l ∈ s.sw.learnt, l.mac = mac → l.vid = vid → l.seen + tS (nwAge (netSec s)) ≤ s.elapsed) →
      ∃ t, exec (.addressAgeOut mac vid) s = .next t
        ∧ (∀ l ∈ t.sw.learnt, ¬(l.mac = mac ∧ l.vid = vid))
        ∧ (∀ l ∈ s.sw.learnt, l.mac ≠ mac ∨ l.vid ≠ vid → l ∈ t.sw.learnt)
        ∧ t.sw.ports = s.sw.ports)
  ∧ (∀ (s : State) (fn : Fin 16),
      fn.val < (netDir (netSec s) 7).2 →
      (vget s.sw.frer fn.val Frer.reset).recv.isSome = true →
      (vget s.sw.frer fn.val Frer.reset).passedAt + tMs (10 * u8 (netRec (netSec s) 7 8 fn.val) 3) ≤ s.elapsed →
      ∃ t, exec (.frerReset fn) s = .next t
        ∧ (vget t.sw.frer fn.val Frer.reset).recv = none
        ∧ (vget t.sw.frer fn.val Frer.reset).discarded = (vget s.sw.frer fn.val Frer.reset).discarded
        ∧ t.sw.evt.getLsbD 3 = true)
  ∧ (∀ (s : State) (port : Fin 2),
      (portGet s (6 + port.val)).plca = true →
      ∃ t, exec (.plcaStatusLost port) s = .next t
        ∧ (portGet t (6 + port.val)).plca = false
        ∧ t.sw.evt.getLsbD 4 = true
        ∧ (portGet t (6 + port.val)).rate = (portGet s (6 + port.val)).rate)
  ∧ (∀ (s : State) (port : Fin 2),
      (portGet s (6 + port.val)).rate ≠ 0 →
      plcaId s (6 + port.val) ≠ 255 →
      ∃ t, exec (.plcaBeaconResume port) s = .next t
        ∧ (portGet t (6 + port.val)).plca = true
        ∧ t.sw.evt = s.sw.evt)
  ∧ (∀ (s : State) (page : Fin 8) (word : Word),
      pageLive s page.val = true →
      page = 1 →
      word.toNat / 65536 = 0x5B1E →
      ∃ t, exec (.swFlowUnblock page word) s = .next t
        ∧ (flowGet t (word.toNat % 2048)).blocked = false
        ∧ (flowGet t (word.toNat % 2048)).drop = (flowGet s (word.toNat % 2048)).drop)
  ∧ (∀ (s : State) (page : Fin 8) (word : Word),
      pageLive s page.val = true →
      page ≠ 1 ∨ word.toNat / 65536 ≠ 0x5B1E →
      ∃ t, exec (.swFlowUnblock page word) s = .next t
        ∧ t.sw = s.sw)

/-- On a live controller: CAN_TOKEN_TRANSMIT sends the waiting token, TEC one down, SENT one on. CAN_BUS_ERROR adds to TEC
and REC what the fault's rule gives, 8 and 0 for a transmit fault, 0 and 1 for a receive fault, within 256 and 255, with
event bit 1 on becoming passive. CAN_BUS_OFF at TEC 256: bus-off, the token gone and counted late. CAN_BUS_OFF_RECOVERY:
both counters 0, event bit 0. On a controller that is not live the token, the bus error and a received frame change
nothing. CAN_FRAME_RECEIVE of an identifier that is neither of the two: no connection changes. On a diagnostic
controller with the request identifier in the configured format: a single frame (classic) gives the connection its
request; a first frame opens a message and is answered with flow control; the consecutive frame expected is appended,
and the last one completes the request. N_CR_TIMEOUT 1 s after the last frame: the message goes. -/
def Obligations.CanControllers : Prop :=
  (∀ (s : State) (ctl : Fin 2) (k : Bytes),
      canLive s ctl.val = true →
      (canGet s ctl.val).token = some k →
      ∃ t, exec (.canTokenTransmit ctl) s = .next t
        ∧ (canGet t ctl.val).lastTx = k
        ∧ (canGet t ctl.val).token = none
        ∧ (canGet t ctl.val).tec = (canGet s ctl.val).tec - 1
        ∧ (canGet t ctl.val).sent = satInc 65535 (canGet s ctl.val).sent)
  ∧ (∀ (s : State) (ctl : Fin 2),
      canLive s ctl.val = false ∨ (canGet s ctl.val).token = none →
      exec (.canTokenTransmit ctl) s = .next (settle s (s)))
  ∧ (∀ (s : State) (ctl : Fin 2) (f : CanFault),
      canLive s ctl.val = false →
      exec (.canBusError ctl f) s = .next (settle s (s)))
  ∧ (∀ (s : State) (ctl : Fin 2) (f : CanFault),
      canLive s ctl.val = true →
      ∃ t, exec (.canBusError ctl f) s = .next t
        ∧ (canGet t ctl.val).tec = min 256 ((canGet s ctl.val).tec + tecAdd (canPassive (canGet s ctl.val)) f)
        ∧ (canGet t ctl.val).rec_ = min 255 ((canGet s ctl.val).rec_ + recAdd f)
        ∧ (f = .tx → tecAdd (canPassive (canGet s ctl.val)) f = 8 ∧ recAdd f = 0)
        ∧ (f = .rx → tecAdd (canPassive (canGet s ctl.val)) f = 0 ∧ recAdd f = 1)
        ∧ (canPassive (canGet t ctl.val) = true → canPassive (canGet s ctl.val) = false → (canGet t ctl.val).evt.getLsbD 1 = true))
  ∧ (∀ (s : State) (ctl : Fin 2),
      canLive s ctl.val = true →
      256 ≤ (canGet s ctl.val).tec →
      ∃ t, exec (.canBusOff ctl) s = .next t
        ∧ (canGet t ctl.val).busOff = true
        ∧ (canGet t ctl.val).token = none
        ∧ (canGet t ctl.val).late = (if (canGet s ctl.val).token.isSome then satInc 65535 (canGet s ctl.val).late else (canGet s ctl.val).late))
  ∧ (∀ (s : State) (ctl : Fin 2),
      (canGet s ctl.val).busOff = true →
      swOn s = true →
      ∃ t, exec (.canBusOffRecovery ctl) s = .next t
        ∧ (canGet t ctl.val).busOff = false
        ∧ (canGet t ctl.val).tec = 0
        ∧ (canGet t ctl.val).rec_ = 0
        ∧ (canGet t ctl.val).evt.getLsbD 0 = true)
  ∧ (∀ (s : State) (ctl : Fin 2) (id : BitVec 29) (d : Bytes),
      canLive s ctl.val = true →
      canDiag s ctl.val = true →
      bit (dgCan (diagSec s)) 3 = false →
      d.length ≤ 8 →
      id.toNat = dgReqId (diagSec s) →
      u8 d 0 / 16 = 0 →
      1 ≤ u8 d 0 % 16 →
      u8 d 0 % 16 < d.length →
      ∃ t, exec (.canFrameReceive ctl id false d) s = .next t
        ∧ (connGet t 2).req = (d.drop 1).take (u8 d 0 % 16)
        ∧ (connGet t 2).active = true
        ∧ (connGet t 2).isoTp = none)
  ∧ (∀ (s : State) (ctl : Fin 2) (id : BitVec 29) (ext : Bool) (d : Bytes),
      canLive s ctl.val = true →
      id.toNat ≠ dgReqId (diagSec s) →
      id.toNat ≠ dgFuncId (diagSec s) →
      ∃ t, exec (.canFrameReceive ctl id ext d) s = .next t
        ∧ t.diag.conns = s.diag.conns
        ∧ (canGet t ctl.val).lastTx = (canGet s ctl.val).lastTx)
  ∧ (∀ (s : State) (ctl : Fin 2) (id : BitVec 29) (ext : Bool) (d : Bytes),
      canLive s ctl.val = true →
      canDiag s ctl.val = true →
      ext = bit (dgCan (diagSec s)) 3 →
      d.length ≤ 8 ∨ (bit (dgCan (diagSec s)) 2 = true ∧ d.length ≤ 64) →
      id.toNat = dgReqId (diagSec s) →
      u8 d 0 / 16 = 1 →
      u8 d 0 % 16 * 256 + u8 d 1 ≠ 0 →
      ∃ t, exec (.canFrameReceive ctl id ext d) s = .next t
        ∧ (connGet t 2).isoTp = some (d.drop 2, u8 d 0 % 16 * 256 + u8 d 1, s.elapsed, 1)
        ∧ (connGet t 2).req = (connGet s 2).req
        ∧ (canGet t ctl.val).lastTx = [0x30, 0, 1, 0xCC, 0xCC, 0xCC, 0xCC, 0xCC])
  ∧ (∀ (s : State) (ctl : Fin 2) (id : BitVec 29) (ext : Bool) (d b : Bytes) (len at_ : Nat),
      canLive s ctl.val = true →
      canDiag s ctl.val = true →
      ext = bit (dgCan (diagSec s)) 3 →
      d.length ≤ 8 ∨ (bit (dgCan (diagSec s)) 2 = true ∧ d.length ≤ 64) →
      id.toNat = dgReqId (diagSec s) →
      (connGet s 2).isoTp = some (b, len, at_, u8 d 0 % 16) →
      u8 d 0 / 16 = 2 →
      len ≤ (b ++ d.drop 1).length →
      ∃ t, exec (.canFrameReceive ctl id ext d) s = .next t
        ∧ (connGet t 2).req = (b ++ d.drop 1).take len
        ∧ (connGet t 2).active = true
        ∧ (connGet t 2).isoTp = none)
  ∧ (∀ (s : State) (ctl : Fin 2) (id : BitVec 29) (ext : Bool) (d b : Bytes) (len at_ : Nat),
      canLive s ctl.val = true →
      canDiag s ctl.val = true →
      ext = bit (dgCan (diagSec s)) 3 →
      d.length ≤ 8 ∨ (bit (dgCan (diagSec s)) 2 = true ∧ d.length ≤ 64) →
      id.toNat = dgReqId (diagSec s) →
      (connGet s 2).isoTp = some (b, len, at_, u8 d 0 % 16) →
      u8 d 0 / 16 = 2 →
      (b ++ d.drop 1).length < len →
      ∃ t, exec (.canFrameReceive ctl id ext d) s = .next t
        ∧ (connGet t 2).isoTp = some (b ++ d.drop 1, len, s.elapsed, (u8 d 0 % 16 + 1) % 16)
        ∧ (connGet t 2).req = (connGet s 2).req)
  ∧ (∀ (s : State) (ctl : Fin 2) (id : BitVec 29) (ext : Bool) (d : Bytes),
      canLive s ctl.val = false →
      exec (.canFrameReceive ctl id ext d) s = .next (settle s (s)))
  ∧ (∀ (s : State) (x : Bytes × Nat × Nat × Nat),
      (connGet s 2).isoTp = some x →
      x.2.2.1 + tMs 1000 ≤ s.elapsed →
      ∃ t, exec (.nCrTimeout) s = .next t
        ∧ (connGet t 2).isoTp = none
        ∧ (connGet t 2).req = (connGet s 2).req)

/-- ARP_REQUEST for another address: nothing is sent; for the interface's own, where the switch brings exactly the request
to the pairs: the reply with the device's MAC and IP. ICMP_ECHO_REQUEST with the interface's address and at most 1,472
bytes of data: the answer goes to the sender's MAC as IPv4 with type and code 0 and the same identifier, sequence number
and data, and the idle timer restarts; for another address nothing is sent. VEHICLE_ANNOUNCEMENT: the announcement while
the interface is on, otherwise nothing (the payload's layout is ISO 13400-2's). -/
def Obligations.InterfaceAnswers : Prop :=
  (∀ (s : State) (port : Fin 9) (mac : BitVec 48) (ip tip : BitVec 32),
      beBytes 4 tip.toNat ≠ ownIp s →
      ∃ t, exec (.arpRequest port mac ip tip) s = .next t
        ∧ t.diag.out = s.diag.out)
  ∧ (∀ (s : State) (port : Fin 9) (mac : BitVec 48) (ip tip : BitVec 32) (g : Bytes),
      beBytes 4 tip.toNat = ownIp s →
      aspOn s = true →
      (frameIn port.val (padTo 60 (List.replicate 6 0xFF ++ beBytes 6 mac.toNat ++ [0x08, 0x06] ++ arpPacket 1 (beBytes 6 mac.toNat) (beBytes 4 ip.toNat) (List.replicate 6 0) (beBytes 4 tip.toNat)) ++ fcs (padTo 60 (List.replicate 6 0xFF ++ beBytes 6 mac.toNat ++ [0x08, 0x06] ++ arpPacket 1 (beBytes 6 mac.toNat) (beBytes 4 ip.toNat) (List.replicate 6 0) (beBytes 4 tip.toNat)))) { s with sw.toPairs := [] }).sw.toPairs = [g] →
      ∃ t, exec (.arpRequest port mac ip tip) s = .next t
        ∧ t.diag.out = padTo 60 (beBytes 6 mac.toNat ++ nwDevMac (netSec s) ++ [0x08, 0x06] ++ arpPacket 2 (nwDevMac (netSec s)) (ownIp s) (beBytes 6 mac.toNat) (beBytes 4 ip.toNat)))
  ∧ (∀ (s : State) (mac : BitVec 48) (ip dst : BitVec 32) (ident seq : BitVec 16) (data : Bytes),
      aspOn s = true →
      swOn s = true →
      beBytes 4 dst.toNat = ownIp s →
      data.length ≤ 1472 →
      (nwDevMac (netSec s)).length = 6 →
      ∃ t, exec (.icmpEchoRequest mac ip dst ident seq data) s = .next t
        ∧ t.pwr.idleSince = s.elapsed
        ∧ sl t.diag.out 0 6 = beBytes 6 mac.toNat
        ∧ sl t.diag.out 12 2 = [0x08, 0x00]
        ∧ sl t.diag.out 34 2 = [0, 0]
        ∧ sl t.diag.out 38 (4 + data.length) = beBytes 2 ident.toNat ++ beBytes 2 seq.toNat ++ data)
  ∧ (∀ (s : State) (mac : BitVec 48) (ip dst : BitVec 32) (ident seq : BitVec 16) (data : Bytes),
      beBytes 4 dst.toNat ≠ ownIp s →
      ∃ t, exec (.icmpEchoRequest mac ip dst ident seq data) s = .next t
        ∧ t.diag = s.diag
        ∧ t.sw = s.sw)
  ∧ (∀ (s : State),
      aspOn s = true →
      ∃ t, exec (.vehicleAnnouncement) s = .next t
        ∧ t.diag.out = vehicleId s)
  ∧ (∀ (s : State),
      aspOn s = false →
      ∃ t, exec (.vehicleAnnouncement) s = .next t
        ∧ t.diag.out = s.diag.out
        ∧ t.sw = s.sw)

/-- Without pair B each is silent, STATUS and SYS_HOST_ERR as they were. With it: a wrong HCRC is CRC_ERROR, a LEN outside
the command's range or an ADDR off a word FRAME_ERROR, both with ADDR in SYS_HOST_ERR and nothing written; a write or
put abandoned before DCRC is silent, with a wrong DCRC CRC_ERROR. One word read: its value and the first matching row as
STATUS, the window unchanged; a scratch word its value. One word written: the effect and the status of the register
write (shown for the window and the scratch words), a scratch word while LOCK_SYS is clear; SYS_RESET_CMD with its key
an HCR. SPI_ASP_PUT after READY with fewer than 4 queued: a message that names page 1 is queued, another discarded, both
OK; otherwise NOT_READY. SPI_ASP_GET after READY: zeros from an empty queue; the oldest message behind its length, which
leaves once RCRC is clocked; with too small a LEN FRAME_ERROR, the message kept; before READY NOT_READY. -/
def Obligations.SpiTransactions : Prop :=
  (∀ (s : State) (addr : BitVec 24) (len hcrc : BitVec 16),
      ppbOn s = false →
      ∃ t, exec (.spiRegRead addr len hcrc) s = .next t
        ∧ t.spi.answered = false
        ∧ t.spi.status = s.spi.status)
  ∧ (∀ (s : State) (addr : BitVec 24) (len hcrc : BitVec 16),
      ppbOn s = true →
      crc16 (spiHead 1 addr len) ≠ hcrc.toNat →
      ∃ t, exec (.spiRegRead addr len hcrc) s = .next t
        ∧ t.spi.answered = true
        ∧ t.spi.status = .crcError
        ∧ t.spi.hostErr = BitVec.ofNat 32 (0x0F + 256 * addr.toNat))
  ∧ (∀ (s : State) (addr : BitVec 24) (len hcrc : BitVec 16),
      ppbOn s = true →
      crc16 (spiHead 1 addr len) = hcrc.toNat →
      len = 0 ∨ 64 < len.toNat ∨ addr.toNat % 4 ≠ 0 →
      ∃ t, exec (.spiRegRead addr len hcrc) s = .next t
        ∧ t.spi.answered = true
        ∧ t.spi.status = .frameError
        ∧ t.spi.hostErr = BitVec.ofNat 32 (0x0E + 256 * addr.toNat))
  ∧ (∀ (s : State) (addr : BitVec 24) (len hcrc : BitVec 16) (data : Bytes) (dcrc : BitVec 16) (ended : Bool),
      ppbOn s = false →
      ∃ t, exec (.spiRegWrite addr len hcrc data dcrc ended) s = .next t
        ∧ t.spi.answered = false
        ∧ t.spi.status = s.spi.status
        ∧ t.spi.hostErr = s.spi.hostErr)
  ∧ (∀ (s : State) (addr : BitVec 24) (len hcrc : BitVec 16) (data : Bytes) (dcrc : BitVec 16) (ended : Bool),
      ppbOn s = false →
      ∃ t, exec (.spiAspPut addr len hcrc data dcrc ended) s = .next t
        ∧ t.spi.answered = false
        ∧ t.spi.status = s.spi.status
        ∧ t.spi.hostErr = s.spi.hostErr)
  ∧ (∀ (s : State) (addr : BitVec 24) (len hcrc : BitVec 16) (clk : Bool),
      ppbOn s = false →
      ∃ t, exec (.spiAspGet addr len hcrc clk) s = .next t
        ∧ t.spi.answered = false
        ∧ t.spi.status = s.spi.status
        ∧ t.spi.hostErr = s.spi.hostErr)
  ∧ (∀ (s : State) (addr : BitVec 24) (len hcrc : BitVec 16) (data : Bytes) (dcrc : BitVec 16),
      ppbOn s = true →
      data.length = 4 * len.toNat →
      crc16 (spiHead 2 addr len) ≠ hcrc.toNat →
      ∃ t, exec (.spiRegWrite addr len hcrc data dcrc true) s = .next t
        ∧ t.spi.answered = true
        ∧ t.spi.status = .crcError
        ∧ t.spi.hostErr = BitVec.ofNat 32 (0x0F + 256 * addr.toNat)
        ∧ t.spi.scratch = s.spi.scratch
        ∧ t.job = s.job)
  ∧ (∀ (s : State) (addr : BitVec 24) (len hcrc : BitVec 16) (data : Bytes) (dcrc : BitVec 16),
      ppbOn s = true →
      data.length = len.toNat →
      crc16 (spiHead 3 addr len) ≠ hcrc.toNat →
      ∃ t, exec (.spiAspPut addr len hcrc data dcrc true) s = .next t
        ∧ t.spi.answered = true
        ∧ t.spi.status = .crcError
        ∧ t.spi.hostErr = BitVec.ofNat 32 (0x0F + 256 * addr.toNat)
        ∧ (pageGet t 1).inQ = (pageGet s 1).inQ)
  ∧ (∀ (s : State) (addr : BitVec 24) (len hcrc : BitVec 16) (clk : Bool),
      ppbOn s = true →
      crc16 (spiHead 4 addr len) ≠ hcrc.toNat →
      ∃ t, exec (.spiAspGet addr len hcrc clk) s = .next t
        ∧ t.spi.answered = true
        ∧ t.spi.status = .crcError
        ∧ t.spi.hostErr = BitVec.ofNat 32 (0x0F + 256 * addr.toNat)
        ∧ (pageGet t 1).outQ = (pageGet s 1).outQ)
  ∧ (∀ (s : State) (addr : BitVec 24) (len hcrc : BitVec 16) (data : Bytes) (dcrc : BitVec 16),
      ppbOn s = true →
      data.length = 4 * len.toNat →
      crc16 (spiHead 2 addr len) = hcrc.toNat →
      len = 0 ∨ 64 < len.toNat ∨ addr.toNat % 4 ≠ 0 →
      ∃ t, exec (.spiRegWrite addr len hcrc data dcrc true) s = .next t
        ∧ t.spi.answered = true
        ∧ t.spi.status = .frameError
        ∧ t.spi.hostErr = BitVec.ofNat 32 (0x0E + 256 * addr.toNat)
        ∧ t.spi.scratch = s.spi.scratch
        ∧ t.job = s.job)
  ∧ (∀ (s : State) (addr : BitVec 24) (len hcrc : BitVec 16) (data : Bytes) (dcrc : BitVec 16),
      ppbOn s = true →
      data.length = len.toNat →
      crc16 (spiHead 3 addr len) = hcrc.toNat →
      len.toNat < 20 ∨ 1044 < len.toNat ∨ addr.toNat % 4 ≠ 0 →
      ∃ t, exec (.spiAspPut addr len hcrc data dcrc true) s = .next t
        ∧ t.spi.answered = true
        ∧ t.spi.status = .frameError
        ∧ t.spi.hostErr = BitVec.ofNat 32 (0x0E + 256 * addr.toNat)
        ∧ (pageGet t 1).inQ = (pageGet s 1).inQ)
  ∧ (∀ (s : State) (addr : BitVec 24) (len hcrc : BitVec 16) (clk : Bool),
      ppbOn s = true →
      crc16 (spiHead 4 addr len) = hcrc.toNat →
      len.toNat < 2 ∨ 1046 < len.toNat ∨ addr.toNat % 4 ≠ 0 →
      ∃ t, exec (.spiAspGet addr len hcrc clk) s = .next t
        ∧ t.spi.answered = true
        ∧ t.spi.status = .frameError
        ∧ t.spi.hostErr = BitVec.ofNat 32 (0x0E + 256 * addr.toNat)
        ∧ (pageGet t 1).outQ = (pageGet s 1).outQ)
  ∧ (∀ (s : State) (addr : BitVec 24) (hcrc : BitVec 16),
      ppbOn s = true →
      crc16 (spiHead 1 addr 1) = hcrc.toNat →
      addr.toNat % 4 = 0 →
      ∃ t, exec (.spiRegRead addr 1 hcrc) s = .next t
        ∧ t.spi.answered = true
        ∧ t.spi.status = (spiWorse (.ok, addr.toNat) ((regRead 1 addr.toNat s).1.1, addr.toNat)).1
        ∧ t.spi.rdata = leBytes 4 (regRead 1 addr.toNat s).1.2
        ∧ t.win = s.win)
  ∧ (∀ (s : State) (addr : BitVec 24) (hcrc : BitVec 16) (i : Nat),
      ppbOn s = true →
      crc16 (spiHead 1 addr 1) = hcrc.toNat →
      i < 8 →
      addr.toNat = 0xA0 + 4 * i →
      ∃ t, exec (.spiRegRead addr 1 hcrc) s = .next t
        ∧ t.spi.answered = true
        ∧ t.spi.status = .ok
        ∧ t.spi.rdata = leBytes 4 (vget s.spi.scratch i 0).toNat
        ∧ t.spi.scratch = s.spi.scratch)
  ∧ (∀ (s : State) (addr : BitVec 24) (len hcrc : BitVec 16) (data : Bytes) (dcrc : BitVec 16) (ended : Bool),
      ppbOn s = true →
      ended = false ∨ data.length ≠ 4 * len.toNat →
      ∃ t, exec (.spiRegWrite addr len hcrc data dcrc ended) s = .next t
        ∧ t.spi.answered = false
        ∧ t.spi.scratch = s.spi.scratch
        ∧ t.job = s.job)
  ∧ (∀ (s : State) (addr : BitVec 24) (len hcrc : BitVec 16) (data : Bytes) (dcrc : BitVec 16),
      ppbOn s = true →
      data.length = 4 * len.toNat →
      crc16 (spiHead 2 addr len) = hcrc.toNat →
      len ≠ 0 →
      len.toNat ≤ 64 →
      addr.toNat % 4 = 0 →
      crc16 data ≠ dcrc.toNat →
      ∃ t, exec (.spiRegWrite addr len hcrc data dcrc true) s = .next t
        ∧ t.spi.status = .crcError
        ∧ t.spi.scratch = s.spi.scratch
        ∧ t.job = s.job)
  ∧ (∀ (s : State) (addr : BitVec 24) (hcrc dcrc : BitVec 16) (w : Word) (i : Nat),
      ppbOn s = true →
      s.spi.lock = false →
      crc16 (spiHead 2 addr 1) = hcrc.toNat →
      crc16 (leBytes 4 w.toNat) = dcrc.toNat →
      i < 8 →
      addr.toNat = 0xA0 + 4 * i →
      ∃ t, exec (.spiRegWrite addr 1 hcrc (leBytes 4 w.toNat) dcrc true) s = .next t
        ∧ t.spi.status = .ok
        ∧ vget t.spi.scratch i 0 = w
        ∧ (∀ j < 8, j ≠ i → vget t.spi.scratch j 0 = vget s.spi.scratch j 0))
  ∧ (∀ (s : State) (addr : BitVec 24) (hcrc dcrc : BitVec 16) (w : Word),
      ppbOn s = true →
      crc16 (spiHead 2 addr 1) = hcrc.toNat →
      crc16 (leBytes 4 w.toNat) = dcrc.toNat →
      addr.toNat % 4 = 0 →
      addr.toNat ≠ 8 →
      ∃ t, exec (.spiRegWrite addr 1 hcrc (leBytes 4 w.toNat) dcrc true) s = .next t
        ∧ t.spi.answered = true
        ∧ t.spi.status = (spiWorse (.ok, addr.toNat) (if (regWrite 1 addr.toNat w s).1 = .ringFull then .ok else (regWrite 1 addr.toNat w s).1, addr.toNat)).1
        ∧ t.win = (regWrite 1 addr.toNat w s).2.win
        ∧ t.spi.scratch = (regWrite 1 addr.toNat w s).2.spi.scratch)
  ∧ (∀ (s : State) (addr : BitVec 24) (hcrc dcrc : BitVec 16) (w : Word),
      ppbOn s = true →
      crc16 (spiHead 2 addr 1) = hcrc.toNat →
      crc16 (leBytes 4 w.toNat) = dcrc.toNat →
      addr.toNat = 8 →
      w.toNat / 65536 = 0x5EC7 →
      ∃ t, exec (.spiRegWrite addr 1 hcrc (leBytes 4 w.toNat) dcrc true) s = .next t
        ∧ t.spi.answered = true
        ∧ t.pwr.st = .startUp
        ∧ t.boot.kinds.contains .hcr = true
        ∧ t.permit.latch = false)
  ∧ (∀ (s : State) (addr : BitVec 24) (len hcrc : BitVec 16) (data : Bytes) (dcrc : BitVec 16) (ended : Bool),
      ppbOn s = true →
      ended = false ∨ data.length ≠ len.toNat →
      ∃ t, exec (.spiAspPut addr len hcrc data dcrc ended) s = .next t
        ∧ t.spi.answered = false
        ∧ (pageGet t 1).inQ = (pageGet s 1).inQ)
  ∧ (∀ (s : State) (addr : BitVec 24) (len hcrc : BitVec 16) (data : Bytes) (dcrc : BitVec 16),
      ppbOn s = true →
      data.length = len.toNat →
      crc16 (spiHead 3 addr len) = hcrc.toNat →
      20 ≤ len.toNat →
      len.toNat ≤ 1044 →
      addr.toNat % 4 = 0 →
      crc16 data ≠ dcrc.toNat →
      ∃ t, exec (.spiAspPut addr len hcrc data dcrc true) s = .next t
        ∧ t.spi.status = .crcError
        ∧ (pageGet t 1).inQ = (pageGet s 1).inQ)
  ∧ (∀ (s : State) (addr : BitVec 24) (len hcrc : BitVec 16) (data : Bytes) (dcrc : BitVec 16),
      ppbOn s = true →
      data.length = len.toNat →
      crc16 (spiHead 3 addr len) = hcrc.toNat →
      20 ≤ len.toNat →
      len.toNat ≤ 1044 →
      addr.toNat % 4 = 0 →
      crc16 data = dcrc.toNat →
      s.boot.ready = true →
      (pageGet s 1).inQ.length < 4 →
      u8 data 1 ≠ 1 →
      ∃ t, exec (.spiAspPut addr len hcrc data dcrc true) s = .next t
        ∧ t.spi.status = .ok
        ∧ (pageGet t 1).inQ = (pageGet s 1).inQ)
  ∧ (∀ (s : State) (addr : BitVec 24) (len hcrc : BitVec 16) (data : Bytes) (dcrc : BitVec 16),
      ppbOn s = true →
      data.length = len.toNat →
      crc16 (spiHead 3 addr len) = hcrc.toNat →
      20 ≤ len.toNat →
      len.toNat ≤ 1044 →
      addr.toNat % 4 = 0 →
      crc16 data = dcrc.toNat →
      s.boot.ready = true →
      (pageGet s 1).inQ.length < 4 →
      u8 data 1 = 1 →
      ∃ t, exec (.spiAspPut addr len hcrc data dcrc true) s = .next t
        ∧ t.spi.status = .ok
        ∧ (pageGet t 1).inQ = (pageGet s 1).inQ ++ [{ bytes := data, srcMac := 0, srcIp := 0, srcPort := 0 }])
  ∧ (∀ (s : State) (addr : BitVec 24) (len hcrc : BitVec 16) (data : Bytes) (dcrc : BitVec 16),
      ppbOn s = true →
      data.length = len.toNat →
      crc16 (spiHead 3 addr len) = hcrc.toNat →
      20 ≤ len.toNat →
      len.toNat ≤ 1044 →
      addr.toNat % 4 = 0 →
      crc16 data = dcrc.toNat →
      s.boot.ready = false ∨ 4 ≤ (pageGet s 1).inQ.length →
      ∃ t, exec (.spiAspPut addr len hcrc data dcrc true) s = .next t
        ∧ t.spi.status = .notReady
        ∧ (pageGet t 1).inQ = (pageGet s 1).inQ)
  ∧ (∀ (s : State) (addr : BitVec 24) (len hcrc : BitVec 16) (clk : Bool),
      ppbOn s = true →
      crc16 (spiHead 4 addr len) = hcrc.toNat →
      2 ≤ len.toNat →
      len.toNat ≤ 1046 →
      addr.toNat % 4 = 0 →
      s.boot.ready = true →
      (pageGet s 1).outQ = [] →
      ∃ t, exec (.spiAspGet addr len hcrc clk) s = .next t
        ∧ t.spi.status = .ok
        ∧ t.spi.rdata = List.replicate len.toNat 0
        ∧ (pageGet t 1).outQ = [])
  ∧ (∀ (s : State) (addr : BitVec 24) (len hcrc : BitVec 16) (clk : Bool),
      ppbOn s = true →
      crc16 (spiHead 4 addr len) = hcrc.toNat →
      2 ≤ len.toNat →
      len.toNat ≤ 1046 →
      addr.toNat % 4 = 0 →
      s.boot.ready = false →
      ∃ t, exec (.spiAspGet addr len hcrc clk) s = .next t
        ∧ t.spi.status = .notReady
        ∧ (pageGet t 1).outQ = (pageGet s 1).outQ)
  ∧ (∀ (s : State) (addr : BitVec 24) (len hcrc : BitVec 16) (m : AspMsg) (r : List AspMsg),
      ppbOn s = true →
      crc16 (spiHead 4 addr len) = hcrc.toNat →
      2 ≤ len.toNat →
      len.toNat ≤ 1046 →
      addr.toNat % 4 = 0 →
      s.boot.ready = true →
      (pageGet s 1).outQ = m :: r →
      m.bytes.length + 2 ≤ len.toNat →
      ∃ t, exec (.spiAspGet addr len hcrc true) s = .next t
        ∧ t.spi.status = .ok
        ∧ t.spi.rdata = padTo len.toNat (beBytes 2 m.bytes.length ++ m.bytes)
        ∧ (pageGet t 1).outQ = r)
  ∧ (∀ (s : State) (addr : BitVec 24) (len hcrc : BitVec 16) (clk : Bool) (m : AspMsg) (r : List AspMsg),
      ppbOn s = true →
      crc16 (spiHead 4 addr len) = hcrc.toNat →
      2 ≤ len.toNat →
      len.toNat ≤ 1046 →
      addr.toNat % 4 = 0 →
      s.boot.ready = true →
      (pageGet s 1).outQ = m :: r →
      len.toNat < m.bytes.length + 2 ∨ clk = false →
      ∃ t, exec (.spiAspGet addr len hcrc clk) s = .next t
        ∧ (pageGet t 1).outQ = (pageGet s 1).outQ
        ∧ t.spi.answered = true
        ∧ t.spi.status = (if len.toNat < m.bytes.length + 2 then .frameError else .ok))

/-- By a page that cannot reach the registers nothing changes. REGISTER_WRITE: before READY from 0x10000 on NOT_READY; a
misaligned address ADDR_ERROR; a window word within the page's grant is written and no other byte, outside it DENIED; a
scratch word is written by CPG1 while LOCK_SYS is clear, and not otherwise; each block's event word, and PWR_WAKE_SRC,
loses exactly the bits CPG1 writes as 1, and by another page the fault events stay; any other word has the effect and
the status of its register's rule (shown for the window, the clock, the scratch words). SYS_LOCK_SET by CPG1 with bit 0
sets LOCK_SYS, which stays set; by another page it does not change. SYS_ASP_GATE_WRITE by CPG1 while LOCK_SYS is clear:
the four page bits, and a shut page without requests has no session; otherwise DENIED. -/
def Obligations.RegisterWrites : Prop :=
  (∀ (s : State) (page : Fin 8) (addr : BitVec 24) (w : Word),
      regLive s page.val = false →
      exec (.registerWrite page addr w) s = .next (settle s (s)))
  ∧ (∀ (s : State) (page : Fin 8) (w : Word),
      regLive s page.val = false →
      exec (.sysLockSet page w) s = .next (settle s (s)))
  ∧ (∀ (s : State) (page : Fin 8) (w : Word),
      regLive s page.val = false →
      exec (.sysAspGateWrite page w) s = .next (settle s (s)))
  ∧ (∀ (s : State) (page : Fin 8) (addr : BitVec 24) (w : Word),
      regLive s page.val = true →
      s.boot.ready = false →
      0x10000 ≤ addr.toNat →
      ∃ t, exec (.registerWrite page addr w) s = .next t
        ∧ (page = 1 → t.spi.status = .notReady)
        ∧ t.win = s.win
        ∧ t.job = s.job)
  ∧ (∀ (s : State) (page : Fin 8) (addr : BitVec 24) (w : Word),
      regLive s page.val = true →
      s.boot.ready = true ∨ addr.toNat < 0x10000 →
      addr.toNat ≠ 8 ∨ page ≠ 1 →
      ∃ t, exec (.registerWrite page addr w) s = .next t
        ∧ (page = 1 → t.spi.status = (if (regWrite page.val addr.toNat w s).1 = .ringFull then .ok else (regWrite page.val addr.toNat w s).1))
        ∧ t.win = (regWrite page.val addr.toNat w s).2.win
        ∧ t.clk = (regWrite page.val addr.toNat w s).2.clk
        ∧ t.spi.scratch = (regWrite page.val addr.toNat w s).2.spi.scratch)
  ∧ (∀ (s : State) (page : Fin 8) (addr : BitVec 24) (w : Word),
      regLive s page.val = true →
      s.boot.ready = true →
      addr.toNat = 0x010008 →
      page = 1 →
      ∃ t, exec (.registerWrite page addr w) s = .next t
        ∧ t.pwr.wakeSrc = s.pwr.wakeSrc &&& ~~~(BitVec.ofNat 14 w.toNat))
  ∧ (∀ (s : State) (page : Fin 8) (addr : BitVec 24) (w : Word),
      regLive s page.val = true →
      s.boot.ready = true →
      addr.toNat = 0x020004 →
      page = 1 →
      ∃ t, exec (.registerWrite page addr w) s = .next t
        ∧ t.tt.evt = s.tt.evt &&& ~~~(BitVec.ofNat 5 w.toNat))
  ∧ (∀ (s : State) (page : Fin 8) (addr : BitVec 24) (w : Word),
      regLive s page.val = true →
      s.boot.ready = true →
      addr.toNat = 0x030008 →
      page = 1 →
      ∃ t, exec (.registerWrite page addr w) s = .next t
        ∧ t.lf.evt = s.lf.evt &&& ~~~(BitVec.ofNat 7 w.toNat))
  ∧ (∀ (s : State) (page : Fin 8) (addr : BitVec 24) (w : Word),
      regLive s page.val = true →
      s.boot.ready = true →
      addr.toNat = 0x040004 →
      page = 1 →
      ∃ t, exec (.registerWrite page addr w) s = .next t
        ∧ t.kl.evt = s.kl.evt &&& ~~~(BitVec.ofNat 4 w.toNat))
  ∧ (∀ (s : State) (page : Fin 8) (addr : BitVec 24) (w : Word),
      regLive s page.val = true →
      s.boot.ready = true →
      addr.toNat = 0x05000C →
      page = 1 →
      ∃ t, exec (.registerWrite page addr w) s = .next t
        ∧ t.uhf.evt = s.uhf.evt &&& ~~~(BitVec.ofNat 7 w.toNat))
  ∧ (∀ (s : State) (page : Fin 8) (addr : BitVec 24) (w : Word),
      regLive s page.val = true →
      s.boot.ready = true →
      addr.toNat = 0x060004 →
      page = 1 →
      ∃ t, exec (.registerWrite page addr w) s = .next t
        ∧ t.loc.evt = s.loc.evt &&& ~~~(BitVec.ofNat 9 w.toNat))
  ∧ (∀ (s : State) (page : Fin 8) (addr : BitVec 24) (w : Word),
      regLive s page.val = true →
      s.boot.ready = true →
      addr.toNat = 0x070004 →
      page = 1 →
      ∃ t, exec (.registerWrite page addr w) s = .next t
        ∧ t.acc.evt = s.acc.evt &&& ~~~(BitVec.ofNat 10 w.toNat))
  ∧ (∀ (s : State) (page : Fin 8) (addr : BitVec 24) (w : Word),
      regLive s page.val = true →
      s.boot.ready = true →
      addr.toNat = 0x080004 →
      page = 1 →
      ∃ t, exec (.registerWrite page addr w) s = .next t
        ∧ t.job.evt = s.job.evt &&& ~~~(BitVec.ofNat 2 w.toNat))
  ∧ (∀ (s : State) (page : Fin 8) (addr : BitVec 24) (w : Word),
      regLive s page.val = true →
      s.boot.ready = true →
      addr.toNat = 0x0A0004 →
      page = 1 →
      ∃ t, exec (.registerWrite page addr w) s = .next t
        ∧ t.cip.aesEvt = s.cip.aesEvt &&& ~~~(BitVec.ofNat 5 w.toNat))
  ∧ (∀ (s : State) (page : Fin 8) (addr : BitVec 24) (w : Word),
      regLive s page.val = true →
      s.boot.ready = true →
      addr.toNat = 0x0A8004 →
      page = 1 →
      ∃ t, exec (.registerWrite page addr w) s = .next t
        ∧ t.cip.hpkEvt = s.cip.hpkEvt &&& ~~~(BitVec.ofNat 2 w.toNat))
  ∧ (∀ (s : State) (page : Fin 8) (addr : BitVec 24) (w : Word),
      regLive s page.val = true →
      s.boot.ready = true →
      addr.toNat = 0x0B0004 →
      page = 1 →
      ∃ t, exec (.registerWrite page addr w) s = .next t
        ∧ t.rng.evt = s.rng.evt &&& ~~~(BitVec.ofNat 5 w.toNat))
  ∧ (∀ (s : State) (page : Fin 8) (addr : BitVec 24) (w : Word),
      regLive s page.val = true →
      s.boot.ready = true →
      addr.toNat = 0x0C0010 →
      page = 1 →
      ∃ t, exec (.registerWrite page addr w) s = .next t
        ∧ t.ks.evt = s.ks.evt &&& ~~~(BitVec.ofNat 5 w.toNat))
  ∧ (∀ (s : State) (page : Fin 8) (addr : BitVec 24) (w : Word),
      regLive s page.val = true →
      s.boot.ready = true →
      addr.toNat = 0x0D0004 →
      page = 1 →
      ∃ t, exec (.registerWrite page addr w) s = .next t
        ∧ t.nvm.evt = s.nvm.evt &&& ~~~(BitVec.ofNat 7 w.toNat))
  ∧ (∀ (s : State) (page : Fin 8) (addr : BitVec 24) (w : Word),
      regLive s page.val = true →
      s.boot.ready = true →
      addr.toNat = 0x0E0004 →
      page = 1 →
      ∃ t, exec (.registerWrite page addr w) s = .next t
        ∧ t.tmp.evt = s.tmp.evt &&& ~~~(BitVec.ofNat 9 w.toNat))
  ∧ (∀ (s : State) (page : Fin 8) (addr : BitVec 24) (w : Word),
      regLive s page.val = true →
      s.boot.ready = true →
      addr.toNat = 0x0F0004 →
      page = 1 →
      ∃ t, exec (.registerWrite page addr w) s = .next t
        ∧ t.sw.evt = s.sw.evt &&& ~~~(BitVec.ofNat 6 w.toNat))
  ∧ (∀ (s : State) (page : Fin 8) (addr : BitVec 24) (w : Word),
      regLive s page.val = true →
      s.boot.ready = true →
      addr.toNat = 0x100020 →
      page = 1 →
      ∃ t, exec (.registerWrite page addr w) s = .next t
        ∧ t.clk.evt = s.clk.evt &&& ~~~(BitVec.ofNat 9 w.toNat))
  ∧ (∀ (s : State) (page : Fin 8) (addr : BitVec 24) (w : Word),
      regLive s page.val = true →
      s.boot.ready = true →
      addr.toNat = 0x120004 →
      page = 1 →
      ∃ t, exec (.registerWrite page addr w) s = .next t
        ∧ t.diag.evt = s.diag.evt &&& ~~~(BitVec.ofNat 7 w.toNat))
  ∧ (∀ (s : State) (page : Fin 8) (addr : BitVec 24) (w : Word),
      regLive s page.val = true →
      s.boot.ready = true →
      addr.toNat = 0x010040 →
      page = 1 →
      ∃ t, exec (.registerWrite page addr w) s = .next t
        ∧ t.sup.evt = s.sup.evt &&& ~~~(BitVec.ofNat 7 (w.toNat / 256)))
  ∧ (∀ (s : State) (page : Fin 8) (addr : BitVec 24) (w : Word),
      regLive s page.val = true →
      s.boot.ready = true →
      addr.toNat % 4 ≠ 0 →
      ∃ t, exec (.registerWrite page addr w) s = .next t
        ∧ (page = 1 → t.spi.status = .addrError)
        ∧ t.win = s.win
        ∧ t.job = s.job
        ∧ t.spi.scratch = s.spi.scratch)
  ∧ (∀ (s : State) (page : Fin 8) (addr : BitVec 24) (w : Word),
      regLive s page.val = true →
      s.boot.ready = true →
      addr.toNat % 4 = 0 →
      0x200000 ≤ addr.toNat →
      addr.toNat + 4 ≤ 0x600000 →
      inGrant s page.val (addr.toNat - 0x200000) 4 = true →
      ∃ t, exec (.registerWrite page addr w) s = .next t
        ∧ winRead t (addr.toNat - 0x200000) 4 = leBytes 4 w.toNat
        ∧ (∀ a, a + 0x200000 < addr.toNat ∨ addr.toNat + 4 ≤ a + 0x200000 → memGet 0 t.win a = memGet 0 s.win a))
  ∧ (∀ (s : State) (page : Fin 8) (addr : BitVec 24) (w : Word),
      regLive s page.val = true →
      s.boot.ready = true →
      addr.toNat % 4 = 0 →
      0x200000 ≤ addr.toNat →
      addr.toNat ≤ 0x9FFFFF →
      inGrant s page.val (addr.toNat - 0x200000) 4 = false →
      ∃ t, exec (.registerWrite page addr w) s = .next t
        ∧ t.win = s.win
        ∧ (page = 1 → t.spi.status = .denied))
  ∧ (∀ (s : State) (page : Fin 8) (addr : BitVec 24) (w : Word) (i : Nat),
      regLive s page.val = true →
      i < 8 →
      addr.toNat = 0xA0 + 4 * i →
      page = 1 →
      s.spi.lock = false →
      ∃ t, exec (.registerWrite page addr w) s = .next t
        ∧ vget t.spi.scratch i 0 = w
        ∧ t.spi.status = .ok)
  ∧ (∀ (s : State) (page : Fin 8) (addr : BitVec 24) (w : Word) (i : Nat),
      regLive s page.val = true →
      i < 8 →
      addr.toNat = 0xA0 + 4 * i →
      page ≠ 1 ∨ s.spi.lock = true →
      ∃ t, exec (.registerWrite page addr w) s = .next t
        ∧ t.spi.scratch = s.spi.scratch)
  ∧ (∀ (s : State) (page : Fin 8) (addr : BitVec 24) (w : Word),
      regLive s page.val = true →
      s.boot.ready = true →
      addr.toNat = 0x130004 →
      page = 1 →
      ∃ t, exec (.registerWrite page addr w) s = .next t
        ∧ t.flt.evt = s.flt.evt &&& ~~~(BitVec.ofNat 8 w.toNat)
        ∧ t.spi.status = .ok)
  ∧ (∀ (s : State) (page : Fin 8) (addr : BitVec 24) (w : Word),
      regLive s page.val = true →
      s.boot.ready = true →
      addr.toNat = 0x130004 →
      page ≠ 1 →
      ∃ t, exec (.registerWrite page addr w) s = .next t
        ∧ t.flt = s.flt)
  ∧ (∀ (s : State) (page : Fin 8) (w : Word),
      regLive s page.val = true →
      page = 1 →
      ∃ t, exec (.sysLockSet page w) s = .next t
        ∧ t.spi.lock = (s.spi.lock || w.getLsbD 0)
        ∧ t.spi.scratch = s.spi.scratch)
  ∧ (∀ (s : State) (page : Fin 8) (w : Word),
      regLive s page.val = true →
      page ≠ 1 →
      ∃ t, exec (.sysLockSet page w) s = .next t
        ∧ t.spi.lock = s.spi.lock)
  ∧ (∀ (s : State) (page : Fin 8) (w : Word),
      regLive s page.val = true →
      page = 1 →
      s.spi.lock = false →
      ∃ t, exec (.sysAspGateWrite page w) s = .next t
        ∧ t.spi.pageOff = w.extractLsb' 2 4
        ∧ t.spi.status = .ok
        ∧ (∀ p, 2 ≤ p → p < 6 → w.getLsbD p = true → (pageGet s p).inQ = [] → (pageGet t p).aspKey = none))
  ∧ (∀ (s : State) (page : Fin 8) (w : Word),
      regLive s page.val = true →
      page ≠ 1 ∨ s.spi.lock = true →
      ∃ t, exec (.sysAspGateWrite page w) s = .next t
        ∧ t.spi.pageOff = s.spi.pageOff
        ∧ (page = 1 → t.spi.status = .denied))

/-- For the oldest message of a page that is open and may answer. ASP_OPEN of pages 1 to 5 with the pair's MAC and a word in
the queue: the session key of both nonces, SEQ taken, no subscriptions, the response; with another MAC it is dropped and
counted, no session. ASP_CLOSE: no session, no subscriptions, no queued events, the response. A request (shown for
ASP_REG_READ) with a wrong MAC is dropped and counted; one (shown for ASP_WIN_WRITE) with a SEQ not above the last is
answered 0x18 with no effect. ASP_SUBSCRIBE: the classes allowed to the page, answered. ASP_EVENT of a pending class 1
ms after its first event: one message with the page's next event SEQ, LOST 0, the class no longer pending. -/
def Obligations.AspSessions : Prop :=
  (∀ (s : State) (page : Fin 8) (m : AspMsg) (r : List AspMsg) (key : BitVec 128) (kp w : BitVec 128) (q : List (BitVec 128)),
      (pageGet s page.val).inQ = m :: r →
      aspOn s = true →
      page = 1 → (pageGet s 1).outQ.length < 16 →
      pageShut s page.val = false →
      msOk page.val m.bytes = true →
      msType m.bytes = 1 →
      page ≠ 0 →
      page.val ≤ 5 →
      (msBody m.bytes).length = 16 →
      pairKey s page.val = some kp →
      msAuth kp m.bytes = true →
      s.rng.queue = w :: q →
      key = sessionKey kp page.val (msBody m.bytes) (blockBytes w) →
      (pageGet s page.val).outQ.any (fun x => aspKeyOf x.bytes = (page.val, 1, 3, msSeq m.bytes)) = false →
      ∃ t, exec (.aspOpen page) s = .next t
        ∧ (pageGet t page.val).aspKey = some key
        ∧ (pageGet t page.val).aspLast = msSeq m.bytes
        ∧ (pageGet t page.val).evtSeq = 0
        ∧ (pageGet t page.val).subs = 0
        ∧ t.rng.queue = q
        ∧ (pageGet t page.val).inQ = r
        ∧ (page = 1 → (pageGet t 1).outQ = (pageGet s 1).outQ ++ [{ m with bytes := msMake key page.val 1 3 (msSeq m.bytes) (0 :: blockBytes w) }])
        ∧ (page ≠ 1 → t.diag.out = (udpSend m.srcMac m.srcIp (dgAspPort (diagSec s)) m.srcPort.toNat (msMake key page.val 1 3 (msSeq m.bytes) (0 :: blockBytes w)) s).diag.out))
  ∧ (∀ (s : State) (page : Fin 8) (m : AspMsg) (r : List AspMsg) (kp : BitVec 128),
      (pageGet s page.val).inQ = m :: r →
      aspOn s = true →
      page = 1 → (pageGet s 1).outQ.length < 16 →
      pageShut s page.val = false →
      msOk page.val m.bytes = true →
      msType m.bytes = 1 →
      page ≠ 0 →
      page.val ≤ 5 →
      (msBody m.bytes).length = 16 →
      pairKey s page.val = some kp →
      msAuth kp m.bytes = false →
      ∃ t, exec (.aspOpen page) s = .next t
        ∧ (pageGet t page.val).inQ = r
        ∧ (pageGet t page.val).aspKey = (pageGet s page.val).aspKey
        ∧ (pageGet t page.val).outQ = (pageGet s page.val).outQ
        ∧ t.diag.macFails = satInc 65535 s.diag.macFails
        ∧ t.rng = s.rng)
  ∧ (∀ (s : State) (page : Fin 8) (m : AspMsg) (r : List AspMsg) (key : BitVec 128),
      (pageGet s page.val).inQ = m :: r →
      aspOn s = true →
      page = 1 → (pageGet s 1).outQ.length < 16 →
      pageShut s page.val = false →
      msOk page.val m.bytes = true →
      msType m.bytes = 2 →
      (pageGet s page.val).aspKey = some key →
      msAuth key m.bytes = true →
      0 < (msSeq m.bytes - (pageGet s page.val).aspLast).toInt →
      (pageGet s page.val).delivered.contains (page.val, 2, 3, msSeq m.bytes) = false →
      (pageGet s page.val).outQ.any (fun x => aspKeyOf x.bytes = (page.val, 2, 3, msSeq m.bytes)) = false →
      msBody m.bytes = [] →
      ∃ t, exec (.aspClose page) s = .next t
        ∧ (pageGet t page.val).aspKey = none
        ∧ (pageGet t page.val).subs = 0
        ∧ (pageGet t page.val).inQ = r
        ∧ (page = 1 → (pageGet t 1).outQ = (pageGet s 1).outQ.filter (fun x => u8 x.bytes 3 / 4 % 2 = 0) ++ [{ m with bytes := msMake key page.val 2 3 (msSeq m.bytes) (leBytes 1 0 ++ []) }])
        ∧ (page ≠ 1 → t.diag.out = (udpSend m.srcMac m.srcIp (dgAspPort (diagSec s)) m.srcPort.toNat (msMake key page.val 2 3 (msSeq m.bytes) (leBytes 1 0 ++ [])) s).diag.out))
  ∧ (∀ (s : State) (page : Fin 8) (m : AspMsg) (r : List AspMsg) (key : BitVec 128),
      (pageGet s page.val).inQ = m :: r →
      aspOn s = true →
      page = 1 → (pageGet s 1).outQ.length < 16 →
      pageShut s page.val = false →
      msOk page.val m.bytes = true →
      msType m.bytes = 16 →
      (pageGet s page.val).aspKey = some key →
      msAuth key m.bytes = false →
      ∃ t, exec (.aspRegRead page) s = .next t
        ∧ (pageGet t page.val).inQ = r
        ∧ (pageGet t page.val).outQ = (pageGet s page.val).outQ
        ∧ t.diag.macFails = satInc 65535 s.diag.macFails
        ∧ (pageGet t page.val).aspLast = (pageGet s page.val).aspLast)
  ∧ (∀ (s : State) (page : Fin 8) (m : AspMsg) (r : List AspMsg) (key : BitVec 128),
      (pageGet s page.val).inQ = m :: r →
      aspOn s = true →
      page = 1 → (pageGet s 1).outQ.length < 16 →
      pageShut s page.val = false →
      msOk page.val m.bytes = true →
      msType m.bytes = 19 →
      (pageGet s page.val).aspKey = some key →
      msAuth key m.bytes = true →
      (msSeq m.bytes - (pageGet s page.val).aspLast).toInt ≤ 0 →
      ∃ t, exec (.aspWinWrite page) s = .next t
        ∧ (pageGet t page.val).inQ = r
        ∧ t.win = s.win
        ∧ (pageGet t page.val).aspLast = (pageGet s page.val).aspLast
        ∧ (page = 1 → (pageGet t 1).outQ = (pageGet s 1).outQ ++ [{ m with bytes := msMake key page.val 0x13 3 (msSeq m.bytes) [0x18] }])
        ∧ (page ≠ 1 → t.diag.out = (udpSend m.srcMac m.srcIp (dgAspPort (diagSec s)) m.srcPort.toNat (msMake key page.val 0x13 3 (msSeq m.bytes) [0x18]) s).diag.out))
  ∧ (∀ (s : State) (page : Fin 8) (m : AspMsg) (r : List AspMsg) (key : BitVec 128),
      (pageGet s page.val).inQ = m :: r →
      aspOn s = true →
      page = 1 → (pageGet s 1).outQ.length < 16 →
      pageShut s page.val = false →
      msOk page.val m.bytes = true →
      msType m.bytes = 48 →
      (pageGet s page.val).aspKey = some key →
      msAuth key m.bytes = true →
      0 < (msSeq m.bytes - (pageGet s page.val).aspLast).toInt →
      (pageGet s page.val).delivered.contains (page.val, 48, 3, msSeq m.bytes) = false →
      (pageGet s page.val).outQ.any (fun x => aspKeyOf x.bytes = (page.val, 48, 3, msSeq m.bytes)) = false →
      (msBody m.bytes).length = 4 →
      ∃ t, exec (.aspSubscribe page) s = .next t
        ∧ (pageGet t page.val).inQ = r
        ∧ (pageGet t page.val).aspLast = msSeq m.bytes
        ∧ (page = 1 → (pageGet t 1).outQ = (pageGet s 1).outQ ++ [{ m with bytes := msMake key page.val 48 3 (msSeq m.bytes) (leBytes 1 0 ++ beBytes 4 (BitVec.ofNat 19 (beNat (msBody m.bytes)) &&& subsAllowed page.val).toNat) }])
        ∧ (page ≠ 1 → t.diag.out = (udpSend m.srcMac m.srcIp (dgAspPort (diagSec s)) m.srcPort.toNat (msMake key page.val 48 3 (msSeq m.bytes) (leBytes 1 0 ++ beBytes 4 (BitVec.ofNat 19 (beNat (msBody m.bytes)) &&& subsAllowed page.val).toNat)) s).diag.out)
        ∧ (pageGet t page.val).subs = BitVec.ofNat 19 (beNat (msBody m.bytes)) &&& subsAllowed page.val)
  ∧ (∀ (s : State) (page : Fin 8) (cls : Fin 19) (key : BitVec 128) (v first : Nat) (ti : BitVec 48),
      (pageGet s page.val).aspKey = some key →
      (pageGet s page.val).evPend.find? (fun e => e.1 = cls.val) = some (cls.val, v, first, ti) →
      aspOn s = true →
      first + tMs 1 ≤ s.elapsed →
      page = 1 → (pageGet s 1).outQ.length < 16 →
      (pageGet s page.val).delivered.contains (page.val, 0x31, 5, (pageGet s page.val).evtSeq + 1) = false →
      (pageGet s page.val).outQ.any (fun x => aspKeyOf x.bytes = (page.val, 0x31, 5, (pageGet s page.val).evtSeq + 1)) = false →
      s.evLog = [] →
      ∃ t, exec (.aspEvent page cls) s = .next t
        ∧ (pageGet t page.val).evtSeq = (pageGet s page.val).evtSeq + 1
        ∧ (pageGet t page.val).lost = 0
        ∧ (pageGet t page.val).evPend.all (fun e => e.1 ≠ cls.val) = true
        ∧ (page = 1 → (pageGet t 1).outQ.map (·.bytes) = (pageGet s 1).outQ.map (·.bytes) ++ [msMake key 1 0x31 5 ((pageGet s 1).evtSeq + 1) (eventBody s 1 cls.val v ti)])
        ∧ (page ≠ 1 → t.diag.out = (udpSend (pageGet s page.val).peerMac (pageGet s page.val).peerIp (dgAspPort (diagSec s)) (pageGet s page.val).peerPort.toNat (msMake key page.val 0x31 5 ((pageGet s page.val).evtSeq + 1) (eventBody s page.val cls.val v ti)) s).diag.out))

/-- Each takes the message, notes SEQ and answers. ASP_REG_READ: a scratch word, SYS_BOOT_STAT, or for RNG_DATA0 DENIED with
no word drawn. ASP_REG_WRITE: a scratch word of page 1, a window word in the grant; a lockable word by another page
DENIED. ASP_WIN_READ and ASP_WIN_WRITE within the grant: the bytes, and no other byte changes; outside it DENIED.
ASP_RING_SUBMIT: descriptors at PI and PI on, RING_FULL beyond DEPTH with FULL set, DENIED for another page's ring.
ASP_RING_COLLECT: no entry, or one entry, and CQ_CI taken. By CPG1 ASP_POWER sets the request, ASP_RESET gives an HCR
after its answer, ASP_UHF_CAL marks the bands, the overrides take effect where their checks pass and otherwise answer
BAD_ENTRY, ASP_REVERT ends them, at once with no sequence open; by another page each is DENIED. ASP_ENGINE_RUNNING and
ASP_PERMIT_END with the open session's number: HOLD_S anew, or the session withdrawn with three deny tokens; with
another number refused. -/
def Obligations.AspRequests : Prop :=
  (∀ (s : State) (page : Fin 8) (m : AspMsg) (r : List AspMsg) (key : BitVec 128) (i : Nat),
      (pageGet s page.val).inQ = m :: r →
      aspOn s = true →
      page = 1 → (pageGet s 1).outQ.length < 16 →
      pageShut s page.val = false →
      msOk page.val m.bytes = true →
      msType m.bytes = 16 →
      (pageGet s page.val).aspKey = some key →
      msAuth key m.bytes = true →
      0 < (msSeq m.bytes - (pageGet s page.val).aspLast).toInt →
      (pageGet s page.val).delivered.contains (page.val, 16, 3, msSeq m.bytes) = false →
      (pageGet s page.val).outQ.any (fun x => aspKeyOf x.bytes = (page.val, 16, 3, msSeq m.bytes)) = false →
      page = 1 →
      i < 8 →
      (msBody m.bytes) = [0, 0, BitVec.ofNat 8 (0xA0 + 4 * i), 1] →
      ∃ t, exec (.aspRegRead page) s = .next t
        ∧ (pageGet t page.val).inQ = r
        ∧ (pageGet t page.val).aspLast = msSeq m.bytes
        ∧ (page = 1 → (pageGet t 1).outQ = (pageGet s 1).outQ ++ [{ m with bytes := msMake key page.val 16 3 (msSeq m.bytes) (leBytes 1 0 ++ leBytes 4 (vget s.spi.scratch i 0).toNat) }])
        ∧ (page ≠ 1 → t.diag.out = (udpSend m.srcMac m.srcIp (dgAspPort (diagSec s)) m.srcPort.toNat (msMake key page.val 16 3 (msSeq m.bytes) (leBytes 1 0 ++ leBytes 4 (vget s.spi.scratch i 0).toNat)) s).diag.out))
  ∧ (∀ (s : State) (page : Fin 8) (m : AspMsg) (r : List AspMsg) (key : BitVec 128),
      (pageGet s page.val).inQ = m :: r →
      aspOn s = true →
      page = 1 → (pageGet s 1).outQ.length < 16 →
      pageShut s page.val = false →
      msOk page.val m.bytes = true →
      msType m.bytes = 16 →
      (pageGet s page.val).aspKey = some key →
      msAuth key m.bytes = true →
      0 < (msSeq m.bytes - (pageGet s page.val).aspLast).toInt →
      (pageGet s page.val).delivered.contains (page.val, 16, 3, msSeq m.bytes) = false →
      (pageGet s page.val).outQ.any (fun x => aspKeyOf x.bytes = (page.val, 16, 3, msSeq m.bytes)) = false →
      (msBody m.bytes) = [0, 0, 0x10, 1] →
      ∃ t, exec (.aspRegRead page) s = .next t
        ∧ (pageGet t page.val).inQ = r
        ∧ (pageGet t page.val).aspLast = msSeq m.bytes
        ∧ (page = 1 → (pageGet t 1).outQ = (pageGet s 1).outQ ++ [{ m with bytes := msMake key page.val 16 3 (msSeq m.bytes) (leBytes 1 0 ++ leBytes 4 (bootStat s)) }])
        ∧ (page ≠ 1 → t.diag.out = (udpSend m.srcMac m.srcIp (dgAspPort (diagSec s)) m.srcPort.toNat (msMake key page.val 16 3 (msSeq m.bytes) (leBytes 1 0 ++ leBytes 4 (bootStat s))) s).diag.out))
  ∧ (∀ (s : State) (page : Fin 8) (m : AspMsg) (r : List AspMsg) (key : BitVec 128),
      (pageGet s page.val).inQ = m :: r →
      aspOn s = true →
      page = 1 → (pageGet s 1).outQ.length < 16 →
      pageShut s page.val = false →
      msOk page.val m.bytes = true →
      msType m.bytes = 16 →
      (pageGet s page.val).aspKey = some key →
      msAuth key m.bytes = true →
      0 < (msSeq m.bytes - (pageGet s page.val).aspLast).toInt →
      (pageGet s page.val).delivered.contains (page.val, 16, 3, msSeq m.bytes) = false →
      (pageGet s page.val).outQ.any (fun x => aspKeyOf x.bytes = (page.val, 16, 3, msSeq m.bytes)) = false →
      (msBody m.bytes) = [0x0B, 0x00, 0x10, 1] →
      ∃ t, exec (.aspRegRead page) s = .next t
        ∧ (pageGet t page.val).inQ = r
        ∧ (pageGet t page.val).aspLast = msSeq m.bytes
        ∧ (page = 1 → (pageGet t 1).outQ = (pageGet s 1).outQ ++ [{ m with bytes := msMake key page.val 16 3 (msSeq m.bytes) (leBytes 1 30 ++ []) }])
        ∧ (page ≠ 1 → t.diag.out = (udpSend m.srcMac m.srcIp (dgAspPort (diagSec s)) m.srcPort.toNat (msMake key page.val 16 3 (msSeq m.bytes) (leBytes 1 30 ++ [])) s).diag.out)
        ∧ t.rng = s.rng)
  ∧ (∀ (s : State) (page : Fin 8) (m : AspMsg) (r : List AspMsg) (key : BitVec 128) (i : Nat) (w : Word),
      (pageGet s page.val).inQ = m :: r →
      aspOn s = true →
      page = 1 → (pageGet s 1).outQ.length < 16 →
      pageShut s page.val = false →
      msOk page.val m.bytes = true →
      msType m.bytes = 17 →
      (pageGet s page.val).aspKey = some key →
      msAuth key m.bytes = true →
      0 < (msSeq m.bytes - (pageGet s page.val).aspLast).toInt →
      (pageGet s page.val).delivered.contains (page.val, 17, 3, msSeq m.bytes) = false →
      (pageGet s page.val).outQ.any (fun x => aspKeyOf x.bytes = (page.val, 17, 3, msSeq m.bytes)) = false →
      page = 1 →
      i < 8 →
      s.spi.lock = false →
      (msBody m.bytes) = [0, 0, BitVec.ofNat 8 (0xA0 + 4 * i), 1] ++ leBytes 4 w.toNat →
      ∃ t, exec (.aspRegWrite page) s = .next t
        ∧ (pageGet t page.val).inQ = r
        ∧ (pageGet t page.val).aspLast = msSeq m.bytes
        ∧ (page = 1 → (pageGet t 1).outQ = (pageGet s 1).outQ ++ [{ m with bytes := msMake key page.val 17 3 (msSeq m.bytes) (leBytes 1 0 ++ []) }])
        ∧ (page ≠ 1 → t.diag.out = (udpSend m.srcMac m.srcIp (dgAspPort (diagSec s)) m.srcPort.toNat (msMake key page.val 17 3 (msSeq m.bytes) (leBytes 1 0 ++ [])) s).diag.out)
        ∧ vget t.spi.scratch i 0 = w)
  ∧ (∀ (s : State) (page : Fin 8) (m : AspMsg) (r : List AspMsg) (key : BitVec 128) (a : BitVec 24) (w : Word),
      (pageGet s page.val).inQ = m :: r →
      aspOn s = true →
      page = 1 → (pageGet s 1).outQ.length < 16 →
      pageShut s page.val = false →
      msOk page.val m.bytes = true →
      msType m.bytes = 17 →
      (pageGet s page.val).aspKey = some key →
      msAuth key m.bytes = true →
      0 < (msSeq m.bytes - (pageGet s page.val).aspLast).toInt →
      (pageGet s page.val).delivered.contains (page.val, 17, 3, msSeq m.bytes) = false →
      (pageGet s page.val).outQ.any (fun x => aspKeyOf x.bytes = (page.val, 17, 3, msSeq m.bytes)) = false →
      0x200000 ≤ a.toNat →
      a.toNat % 4 = 0 →
      winHas s page.val (a.toNat - 0x200000) 4 = true →
      (msBody m.bytes) = beBytes 3 a.toNat ++ [1] ++ leBytes 4 w.toNat →
      ∃ t, exec (.aspRegWrite page) s = .next t
        ∧ (pageGet t page.val).inQ = r
        ∧ (pageGet t page.val).aspLast = msSeq m.bytes
        ∧ (page = 1 → (pageGet t 1).outQ = (pageGet s 1).outQ ++ [{ m with bytes := msMake key page.val 17 3 (msSeq m.bytes) (leBytes 1 0 ++ []) }])
        ∧ (page ≠ 1 → t.diag.out = (udpSend m.srcMac m.srcIp (dgAspPort (diagSec s)) m.srcPort.toNat (msMake key page.val 17 3 (msSeq m.bytes) (leBytes 1 0 ++ [])) s).diag.out)
        ∧ winRead t (a.toNat - 0x200000) 4 = leBytes 4 w.toNat)
  ∧ (∀ (s : State) (page : Fin 8) (m : AspMsg) (r : List AspMsg) (key : BitVec 128),
      (pageGet s page.val).inQ = m :: r →
      aspOn s = true →
      page = 1 → (pageGet s 1).outQ.length < 16 →
      pageShut s page.val = false →
      msOk page.val m.bytes = true →
      msType m.bytes = 17 →
      (pageGet s page.val).aspKey = some key →
      msAuth key m.bytes = true →
      0 < (msSeq m.bytes - (pageGet s page.val).aspLast).toInt →
      (pageGet s page.val).delivered.contains (page.val, 17, 3, msSeq m.bytes) = false →
      (pageGet s page.val).outQ.any (fun x => aspKeyOf x.bytes = (page.val, 17, 3, msSeq m.bytes)) = false →
      page ≠ 1 →
      (msBody m.bytes).length = 8 →
      u8 (msBody m.bytes) 3 = 1 →
      lockWord (beNat ((msBody m.bytes).take 3)) = true →
      beNat ((msBody m.bytes).take 3) % 4 = 0 →
      ∃ t, exec (.aspRegWrite page) s = .next t
        ∧ (pageGet t page.val).inQ = r
        ∧ (pageGet t page.val).aspLast = msSeq m.bytes
        ∧ (page = 1 → (pageGet t 1).outQ = (pageGet s 1).outQ ++ [{ m with bytes := msMake key page.val 17 3 (msSeq m.bytes) (leBytes 1 30 ++ []) }])
        ∧ (page ≠ 1 → t.diag.out = (udpSend m.srcMac m.srcIp (dgAspPort (diagSec s)) m.srcPort.toNat (msMake key page.val 17 3 (msSeq m.bytes) (leBytes 1 30 ++ [])) s).diag.out)
        ∧ t.spi.scratch = s.spi.scratch
        ∧ t.spi.lock = s.spi.lock
        ∧ t.spi.pageOff = s.spi.pageOff)
  ∧ (∀ (s : State) (page : Fin 8) (m : AspMsg) (r : List AspMsg) (key : BitVec 128) (off n : Nat),
      (pageGet s page.val).inQ = m :: r →
      aspOn s = true →
      page = 1 → (pageGet s 1).outQ.length < 16 →
      pageShut s page.val = false →
      msOk page.val m.bytes = true →
      msType m.bytes = 18 →
      (pageGet s page.val).aspKey = some key →
      msAuth key m.bytes = true →
      0 < (msSeq m.bytes - (pageGet s page.val).aspLast).toInt →
      (pageGet s page.val).delivered.contains (page.val, 18, 3, msSeq m.bytes) = false →
      (pageGet s page.val).outQ.any (fun x => aspKeyOf x.bytes = (page.val, 18, 3, msSeq m.bytes)) = false →
      (msBody m.bytes).length = 6 →
      beNat ((msBody m.bytes).take 4) = off →
      beNat (sl (msBody m.bytes) 4 2) = n →
      1 ≤ n →
      n ≤ 1008 →
      winHas s page.val off n = true →
      ∃ t, exec (.aspWinRead page) s = .next t
        ∧ (pageGet t page.val).inQ = r
        ∧ (pageGet t page.val).aspLast = msSeq m.bytes
        ∧ (page = 1 → (pageGet t 1).outQ = (pageGet s 1).outQ ++ [{ m with bytes := msMake key page.val 18 3 (msSeq m.bytes) (leBytes 1 0 ++ winRead s off n) }])
        ∧ (page ≠ 1 → t.diag.out = (udpSend m.srcMac m.srcIp (dgAspPort (diagSec s)) m.srcPort.toNat (msMake key page.val 18 3 (msSeq m.bytes) (leBytes 1 0 ++ winRead s off n)) s).diag.out)
        ∧ t.win = s.win)
  ∧ (∀ (s : State) (page : Fin 8) (m : AspMsg) (r : List AspMsg) (key : BitVec 128) (off n : Nat),
      (pageGet s page.val).inQ = m :: r →
      aspOn s = true →
      page = 1 → (pageGet s 1).outQ.length < 16 →
      pageShut s page.val = false →
      msOk page.val m.bytes = true →
      msType m.bytes = 18 →
      (pageGet s page.val).aspKey = some key →
      msAuth key m.bytes = true →
      0 < (msSeq m.bytes - (pageGet s page.val).aspLast).toInt →
      (pageGet s page.val).delivered.contains (page.val, 18, 3, msSeq m.bytes) = false →
      (pageGet s page.val).outQ.any (fun x => aspKeyOf x.bytes = (page.val, 18, 3, msSeq m.bytes)) = false →
      (msBody m.bytes).length = 6 →
      beNat ((msBody m.bytes).take 4) = off →
      beNat (sl (msBody m.bytes) 4 2) = n →
      1 ≤ n →
      n ≤ 1008 →
      winHas s page.val off n = false →
      ∃ t, exec (.aspWinRead page) s = .next t
        ∧ (pageGet t page.val).inQ = r
        ∧ (pageGet t page.val).aspLast = msSeq m.bytes
        ∧ (page = 1 → (pageGet t 1).outQ = (pageGet s 1).outQ ++ [{ m with bytes := msMake key page.val 18 3 (msSeq m.bytes) (leBytes 1 30 ++ []) }])
        ∧ (page ≠ 1 → t.diag.out = (udpSend m.srcMac m.srcIp (dgAspPort (diagSec s)) m.srcPort.toNat (msMake key page.val 18 3 (msSeq m.bytes) (leBytes 1 30 ++ [])) s).diag.out)
        ∧ t.win = s.win)
  ∧ (∀ (s : State) (page : Fin 8) (m : AspMsg) (r : List AspMsg) (key : BitVec 128) (off n : Nat),
      (pageGet s page.val).inQ = m :: r →
      aspOn s = true →
      page = 1 → (pageGet s 1).outQ.length < 16 →
      pageShut s page.val = false →
      msOk page.val m.bytes = true →
      msType m.bytes = 19 →
      (pageGet s page.val).aspKey = some key →
      msAuth key m.bytes = true →
      0 < (msSeq m.bytes - (pageGet s page.val).aspLast).toInt →
      (pageGet s page.val).delivered.contains (page.val, 19, 3, msSeq m.bytes) = false →
      (pageGet s page.val).outQ.any (fun x => aspKeyOf x.bytes = (page.val, 19, 3, msSeq m.bytes)) = false →
      (msBody m.bytes).length = 6 + n →
      beNat ((msBody m.bytes).take 4) = off →
      beNat (sl (msBody m.bytes) 4 2) = n →
      1 ≤ n →
      winHas s page.val off n = true →
      ∃ t, exec (.aspWinWrite page) s = .next t
        ∧ (pageGet t page.val).inQ = r
        ∧ (pageGet t page.val).aspLast = msSeq m.bytes
        ∧ (page = 1 → (pageGet t 1).outQ = (pageGet s 1).outQ ++ [{ m with bytes := msMake key page.val 19 3 (msSeq m.bytes) (leBytes 1 0 ++ []) }])
        ∧ (page ≠ 1 → t.diag.out = (udpSend m.srcMac m.srcIp (dgAspPort (diagSec s)) m.srcPort.toNat (msMake key page.val 19 3 (msSeq m.bytes) (leBytes 1 0 ++ [])) s).diag.out)
        ∧ winRead t off n = (msBody m.bytes).drop 6
        ∧ (∀ a, a < off ∨ off + n ≤ a → memGet 0 t.win a = memGet 0 s.win a))
  ∧ (∀ (s : State) (page : Fin 8) (m : AspMsg) (r : List AspMsg) (key : BitVec 128) (off n : Nat),
      (pageGet s page.val).inQ = m :: r →
      aspOn s = true →
      page = 1 → (pageGet s 1).outQ.length < 16 →
      pageShut s page.val = false →
      msOk page.val m.bytes = true →
      msType m.bytes = 19 →
      (pageGet s page.val).aspKey = some key →
      msAuth key m.bytes = true →
      0 < (msSeq m.bytes - (pageGet s page.val).aspLast).toInt →
      (pageGet s page.val).delivered.contains (page.val, 19, 3, msSeq m.bytes) = false →
      (pageGet s page.val).outQ.any (fun x => aspKeyOf x.bytes = (page.val, 19, 3, msSeq m.bytes)) = false →
      (msBody m.bytes).length = 6 + n →
      beNat ((msBody m.bytes).take 4) = off →
      beNat (sl (msBody m.bytes) 4 2) = n →
      1 ≤ n →
      winHas s page.val off n = false →
      ∃ t, exec (.aspWinWrite page) s = .next t
        ∧ (pageGet t page.val).inQ = r
        ∧ (pageGet t page.val).aspLast = msSeq m.bytes
        ∧ (page = 1 → (pageGet t 1).outQ = (pageGet s 1).outQ ++ [{ m with bytes := msMake key page.val 19 3 (msSeq m.bytes) (leBytes 1 30 ++ []) }])
        ∧ (page ≠ 1 → t.diag.out = (udpSend m.srcMac m.srcIp (dgAspPort (diagSec s)) m.srcPort.toNat (msMake key page.val 19 3 (msSeq m.bytes) (leBytes 1 30 ++ [])) s).diag.out)
        ∧ t.win = s.win)
  ∧ (∀ (s : State) (page : Fin 8) (m : AspMsg) (r : List AspMsg) (key : BitVec 128) (n : Nat),
      (pageGet s page.val).inQ = m :: r →
      aspOn s = true →
      page = 1 → (pageGet s 1).outQ.length < 16 →
      pageShut s page.val = false →
      msOk page.val m.bytes = true →
      msType m.bytes = 32 →
      (pageGet s page.val).aspKey = some key →
      msAuth key m.bytes = true →
      0 < (msSeq m.bytes - (pageGet s page.val).aspLast).toInt →
      (pageGet s page.val).delivered.contains (page.val, 32, 3, msSeq m.bytes) = false →
      (pageGet s page.val).outQ.any (fun x => aspKeyOf x.bytes = (page.val, 32, 3, msSeq m.bytes)) = false →
      (msBody m.bytes).length = 2 + 64 * n →
      u8 (msBody m.bytes) 1 = n →
      1 ≤ n →
      n ≤ 15 →
      u8 (msBody m.bytes) 0 < 32 →
      ringPage (u8 (msBody m.bytes) 0) = page.val →
      (ringGet s (u8 (msBody m.bytes) 0)).en = true →
      ((ringGet s (u8 (msBody m.bytes) 0)).pi - (ringGet s (u8 (msBody m.bytes) 0)).fi).toNat + n ≤ depthOf (ringGet s (u8 (msBody m.bytes) 0)).depth →
      ∃ t, exec (.aspRingSubmit page) s = .next t
        ∧ (pageGet t page.val).inQ = r
        ∧ (pageGet t page.val).aspLast = msSeq m.bytes
        ∧ (page = 1 → (pageGet t 1).outQ = (pageGet s 1).outQ ++ [{ m with bytes := msMake key page.val 32 3 (msSeq m.bytes) (leBytes 1 0 ++ beBytes 2 ((ringGet s (u8 (msBody m.bytes) 0)).pi + BitVec.ofNat 16 n).toNat) }])
        ∧ (page ≠ 1 → t.diag.out = (udpSend m.srcMac m.srcIp (dgAspPort (diagSec s)) m.srcPort.toNat (msMake key page.val 32 3 (msSeq m.bytes) (leBytes 1 0 ++ beBytes 2 ((ringGet s (u8 (msBody m.bytes) 0)).pi + BitVec.ofNat 16 n).toNat)) s).diag.out)
        ∧ (ringGet t (u8 (msBody m.bytes) 0)).pi = (ringGet s (u8 (msBody m.bytes) 0)).pi + BitVec.ofNat 16 n
        ∧ (ringGet t (u8 (msBody m.bytes) 0)).fedB = true
        ∧ t.win = (putDescs (ringGet s (u8 (msBody m.bytes) 0)).dbase (depthOf (ringGet s (u8 (msBody m.bytes) 0)).depth) (ringGet s (u8 (msBody m.bytes) 0)).pi.toNat n ((msBody m.bytes).drop 2) s).win)
  ∧ (∀ (s : State) (page : Fin 8) (m : AspMsg) (r : List AspMsg) (key : BitVec 128) (n : Nat),
      (pageGet s page.val).inQ = m :: r →
      aspOn s = true →
      page = 1 → (pageGet s 1).outQ.length < 16 →
      pageShut s page.val = false →
      msOk page.val m.bytes = true →
      msType m.bytes = 32 →
      (pageGet s page.val).aspKey = some key →
      msAuth key m.bytes = true →
      0 < (msSeq m.bytes - (pageGet s page.val).aspLast).toInt →
      (pageGet s page.val).delivered.contains (page.val, 32, 3, msSeq m.bytes) = false →
      (pageGet s page.val).outQ.any (fun x => aspKeyOf x.bytes = (page.val, 32, 3, msSeq m.bytes)) = false →
      (msBody m.bytes).length = 2 + 64 * n →
      u8 (msBody m.bytes) 1 = n →
      1 ≤ n →
      n ≤ 15 →
      u8 (msBody m.bytes) 0 < 32 →
      ringPage (u8 (msBody m.bytes) 0) = page.val →
      (ringGet s (u8 (msBody m.bytes) 0)).en = true →
      depthOf (ringGet s (u8 (msBody m.bytes) 0)).depth < ((ringGet s (u8 (msBody m.bytes) 0)).pi - (ringGet s (u8 (msBody m.bytes) 0)).fi).toNat + n →
      ∃ t, exec (.aspRingSubmit page) s = .next t
        ∧ (pageGet t page.val).inQ = r
        ∧ (pageGet t page.val).aspLast = msSeq m.bytes
        ∧ (page = 1 → (pageGet t 1).outQ = (pageGet s 1).outQ ++ [{ m with bytes := msMake key page.val 32 3 (msSeq m.bytes) (leBytes 1 2 ++ beBytes 2 (ringGet s (u8 (msBody m.bytes) 0)).pi.toNat) }])
        ∧ (page ≠ 1 → t.diag.out = (udpSend m.srcMac m.srcIp (dgAspPort (diagSec s)) m.srcPort.toNat (msMake key page.val 32 3 (msSeq m.bytes) (leBytes 1 2 ++ beBytes 2 (ringGet s (u8 (msBody m.bytes) 0)).pi.toNat)) s).diag.out)
        ∧ t.win = s.win
        ∧ (ringGet t (u8 (msBody m.bytes) 0)).full = true
        ∧ (ringGet t (u8 (msBody m.bytes) 0)).pi = (ringGet s (u8 (msBody m.bytes) 0)).pi)
  ∧ (∀ (s : State) (page : Fin 8) (m : AspMsg) (r : List AspMsg) (key : BitVec 128) (n : Nat),
      (pageGet s page.val).inQ = m :: r →
      aspOn s = true →
      page = 1 → (pageGet s 1).outQ.length < 16 →
      pageShut s page.val = false →
      msOk page.val m.bytes = true →
      msType m.bytes = 32 →
      (pageGet s page.val).aspKey = some key →
      msAuth key m.bytes = true →
      0 < (msSeq m.bytes - (pageGet s page.val).aspLast).toInt →
      (pageGet s page.val).delivered.contains (page.val, 32, 3, msSeq m.bytes) = false →
      (pageGet s page.val).outQ.any (fun x => aspKeyOf x.bytes = (page.val, 32, 3, msSeq m.bytes)) = false →
      (msBody m.bytes).length = 2 + 64 * n →
      u8 (msBody m.bytes) 1 = n →
      1 ≤ n →
      n ≤ 15 →
      32 ≤ u8 (msBody m.bytes) 0 ∨ ringPage (u8 (msBody m.bytes) 0) ≠ page.val →
      ∃ t, exec (.aspRingSubmit page) s = .next t
        ∧ (pageGet t page.val).inQ = r
        ∧ (pageGet t page.val).aspLast = msSeq m.bytes
        ∧ (page = 1 → (pageGet t 1).outQ = (pageGet s 1).outQ ++ [{ m with bytes := msMake key page.val 32 3 (msSeq m.bytes) (leBytes 1 30 ++ []) }])
        ∧ (page ≠ 1 → t.diag.out = (udpSend m.srcMac m.srcIp (dgAspPort (diagSec s)) m.srcPort.toNat (msMake key page.val 32 3 (msSeq m.bytes) (leBytes 1 30 ++ [])) s).diag.out)
        ∧ t.win = s.win
        ∧ t.job = s.job)
  ∧ (∀ (s : State) (page : Fin 8) (m : AspMsg) (r : List AspMsg) (key : BitVec 128),
      (pageGet s page.val).inQ = m :: r →
      aspOn s = true →
      page = 1 → (pageGet s 1).outQ.length < 16 →
      pageShut s page.val = false →
      msOk page.val m.bytes = true →
      msType m.bytes = 33 →
      (pageGet s page.val).aspKey = some key →
      msAuth key m.bytes = true →
      0 < (msSeq m.bytes - (pageGet s page.val).aspLast).toInt →
      (pageGet s page.val).delivered.contains (page.val, 33, 3, msSeq m.bytes) = false →
      (pageGet s page.val).outQ.any (fun x => aspKeyOf x.bytes = (page.val, 33, 3, msSeq m.bytes)) = false →
      (msBody m.bytes).length = 4 →
      1 ≤ u8 (msBody m.bytes) 3 →
      u8 (msBody m.bytes) 3 ≤ 31 →
      u8 (msBody m.bytes) 0 < 32 →
      ringPage (u8 (msBody m.bytes) 0) = page.val →
      beNat (sl (msBody m.bytes) 1 2) = (ringGet s (u8 (msBody m.bytes) 0)).cqPi.toNat →
      ∃ t, exec (.aspRingCollect page) s = .next t
        ∧ (pageGet t page.val).inQ = r
        ∧ (pageGet t page.val).aspLast = msSeq m.bytes
        ∧ (page = 1 → (pageGet t 1).outQ = (pageGet s 1).outQ ++ [{ m with bytes := msMake key page.val 33 3 (msSeq m.bytes) (leBytes 1 0 ++ [0]) }])
        ∧ (page ≠ 1 → t.diag.out = (udpSend m.srcMac m.srcIp (dgAspPort (diagSec s)) m.srcPort.toNat (msMake key page.val 33 3 (msSeq m.bytes) (leBytes 1 0 ++ [0])) s).diag.out)
        ∧ (ringGet t (u8 (msBody m.bytes) 0)).cqCi = (ringGet s (u8 (msBody m.bytes) 0)).cqPi)
  ∧ (∀ (s : State) (page : Fin 8) (m : AspMsg) (r : List AspMsg) (key : BitVec 128) (a : BitVec 16),
      (pageGet s page.val).inQ = m :: r →
      aspOn s = true →
      page = 1 → (pageGet s 1).outQ.length < 16 →
      pageShut s page.val = false →
      msOk page.val m.bytes = true →
      msType m.bytes = 33 →
      (pageGet s page.val).aspKey = some key →
      msAuth key m.bytes = true →
      0 < (msSeq m.bytes - (pageGet s page.val).aspLast).toInt →
      (pageGet s page.val).delivered.contains (page.val, 33, 3, msSeq m.bytes) = false →
      (pageGet s page.val).outQ.any (fun x => aspKeyOf x.bytes = (page.val, 33, 3, msSeq m.bytes)) = false →
      (msBody m.bytes).length = 4 →
      1 ≤ u8 (msBody m.bytes) 3 →
      u8 (msBody m.bytes) 3 ≤ 31 →
      u8 (msBody m.bytes) 0 < 32 →
      ringPage (u8 (msBody m.bytes) 0) = page.val →
      BitVec.ofNat 16 (beNat (sl (msBody m.bytes) 1 2)) = a →
      (ringGet s (u8 (msBody m.bytes) 0)).cqPi = a + 1 →
      (a - (ringGet s (u8 (msBody m.bytes) 0)).cqCi).toNat ≤ ((ringGet s (u8 (msBody m.bytes) 0)).cqPi - (ringGet s (u8 (msBody m.bytes) 0)).cqCi).toNat →
      ∃ t, exec (.aspRingCollect page) s = .next t
        ∧ (pageGet t page.val).inQ = r
        ∧ (pageGet t page.val).aspLast = msSeq m.bytes
        ∧ (page = 1 → (pageGet t 1).outQ = (pageGet s 1).outQ ++ [{ m with bytes := msMake key page.val 33 3 (msSeq m.bytes) (leBytes 1 0 ++ (1 :: winRead s ((ringGet s (u8 (msBody m.bytes) 0)).cbase + 32 * (a.toNat % depthOf (ringGet s (u8 (msBody m.bytes) 0)).depth)) 32)) }])
        ∧ (page ≠ 1 → t.diag.out = (udpSend m.srcMac m.srcIp (dgAspPort (diagSec s)) m.srcPort.toNat (msMake key page.val 33 3 (msSeq m.bytes) (leBytes 1 0 ++ (1 :: winRead s ((ringGet s (u8 (msBody m.bytes) 0)).cbase + 32 * (a.toNat % depthOf (ringGet s (u8 (msBody m.bytes) 0)).depth)) 32))) s).diag.out)
        ∧ (ringGet t (u8 (msBody m.bytes) 0)).cqCi = a)
  ∧ (∀ (s : State) (page : Fin 8) (m : AspMsg) (r : List AspMsg) (key : BitVec 128),
      (pageGet s page.val).inQ = m :: r →
      aspOn s = true →
      page = 1 → (pageGet s 1).outQ.length < 16 →
      pageShut s page.val = false →
      msOk page.val m.bytes = true →
      msType m.bytes = 64 →
      (pageGet s page.val).aspKey = some key →
      msAuth key m.bytes = true →
      0 < (msSeq m.bytes - (pageGet s page.val).aspLast).toInt →
      (pageGet s page.val).delivered.contains (page.val, 64, 3, msSeq m.bytes) = false →
      (pageGet s page.val).outQ.any (fun x => aspKeyOf x.bytes = (page.val, 64, 3, msSeq m.bytes)) = false →
      page = 1 →
      (msBody m.bytes) = [1] →
      ∃ t, exec (.aspPower page) s = .next t
        ∧ (pageGet t page.val).inQ = r
        ∧ (pageGet t page.val).aspLast = msSeq m.bytes
        ∧ (page = 1 → (pageGet t 1).outQ = (pageGet s 1).outQ ++ [{ m with bytes := msMake key page.val 64 3 (msSeq m.bytes) (leBytes 1 0 ++ []) }])
        ∧ (page ≠ 1 → t.diag.out = (udpSend m.srcMac m.srcIp (dgAspPort (diagSec s)) m.srcPort.toNat (msMake key page.val 64 3 (msSeq m.bytes) (leBytes 1 0 ++ [])) s).diag.out)
        ∧ t.pwr.req = 1)
  ∧ (∀ (s : State) (page : Fin 8) (m : AspMsg) (r : List AspMsg) (key : BitVec 128),
      (pageGet s page.val).inQ = m :: r →
      aspOn s = true →
      page = 1 → (pageGet s 1).outQ.length < 16 →
      pageShut s page.val = false →
      msOk page.val m.bytes = true →
      msType m.bytes = 64 →
      (pageGet s page.val).aspKey = some key →
      msAuth key m.bytes = true →
      0 < (msSeq m.bytes - (pageGet s page.val).aspLast).toInt →
      (pageGet s page.val).delivered.contains (page.val, 64, 3, msSeq m.bytes) = false →
      (pageGet s page.val).outQ.any (fun x => aspKeyOf x.bytes = (page.val, 64, 3, msSeq m.bytes)) = false →
      page = 1 →
      (msBody m.bytes) = [2] →
      ∃ t, exec (.aspPower page) s = .next t
        ∧ (pageGet t page.val).inQ = r
        ∧ (pageGet t page.val).aspLast = msSeq m.bytes
        ∧ (page = 1 → (pageGet t 1).outQ = (pageGet s 1).outQ ++ [{ m with bytes := msMake key page.val 64 3 (msSeq m.bytes) (leBytes 1 0 ++ []) }])
        ∧ (page ≠ 1 → t.diag.out = (udpSend m.srcMac m.srcIp (dgAspPort (diagSec s)) m.srcPort.toNat (msMake key page.val 64 3 (msSeq m.bytes) (leBytes 1 0 ++ [])) s).diag.out)
        ∧ t.pwr.req = 2)
  ∧ (∀ (s : State) (page : Fin 8) (m : AspMsg) (r : List AspMsg) (key : BitVec 128),
      (pageGet s page.val).inQ = m :: r →
      aspOn s = true →
      page = 1 → (pageGet s 1).outQ.length < 16 →
      pageShut s page.val = false →
      msOk page.val m.bytes = true →
      msType m.bytes = 64 →
      (pageGet s page.val).aspKey = some key →
      msAuth key m.bytes = true →
      0 < (msSeq m.bytes - (pageGet s page.val).aspLast).toInt →
      (pageGet s page.val).delivered.contains (page.val, 64, 3, msSeq m.bytes) = false →
      (pageGet s page.val).outQ.any (fun x => aspKeyOf x.bytes = (page.val, 64, 3, msSeq m.bytes)) = false →
      page = 1 →
      (msBody m.bytes) = [3] →
      ∃ t, exec (.aspPower page) s = .next t
        ∧ (pageGet t page.val).inQ = r
        ∧ (pageGet t page.val).aspLast = msSeq m.bytes
        ∧ (page = 1 → (pageGet t 1).outQ = (pageGet s 1).outQ ++ [{ m with bytes := msMake key page.val 64 3 (msSeq m.bytes) (leBytes 1 0 ++ []) }])
        ∧ (page ≠ 1 → t.diag.out = (udpSend m.srcMac m.srcIp (dgAspPort (diagSec s)) m.srcPort.toNat (msMake key page.val 64 3 (msSeq m.bytes) (leBytes 1 0 ++ [])) s).diag.out)
        ∧ t.pwr.req = 0)
  ∧ (∀ (s : State) (page : Fin 8) (m : AspMsg) (r : List AspMsg) (key : BitVec 128),
      (pageGet s page.val).inQ = m :: r →
      aspOn s = true →
      page = 1 → (pageGet s 1).outQ.length < 16 →
      pageShut s page.val = false →
      msOk page.val m.bytes = true →
      msType m.bytes = 64 →
      (pageGet s page.val).aspKey = some key →
      msAuth key m.bytes = true →
      0 < (msSeq m.bytes - (pageGet s page.val).aspLast).toInt →
      (pageGet s page.val).delivered.contains (page.val, 64, 3, msSeq m.bytes) = false →
      (pageGet s page.val).outQ.any (fun x => aspKeyOf x.bytes = (page.val, 64, 3, msSeq m.bytes)) = false →
      page ≠ 1 →
      ∃ t, exec (.aspPower page) s = .next t
        ∧ (pageGet t page.val).inQ = r
        ∧ (pageGet t page.val).aspLast = msSeq m.bytes
        ∧ (page = 1 → (pageGet t 1).outQ = (pageGet s 1).outQ ++ [{ m with bytes := msMake key page.val 64 3 (msSeq m.bytes) (leBytes 1 30 ++ []) }])
        ∧ (page ≠ 1 → t.diag.out = (udpSend m.srcMac m.srcIp (dgAspPort (diagSec s)) m.srcPort.toNat (msMake key page.val 64 3 (msSeq m.bytes) (leBytes 1 30 ++ [])) s).diag.out)
        ∧ t.pwr.req = s.pwr.req)
  ∧ (∀ (s : State) (page : Fin 8) (m : AspMsg) (r : List AspMsg) (key : BitVec 128),
      (pageGet s page.val).inQ = m :: r →
      aspOn s = true →
      page = 1 → (pageGet s 1).outQ.length < 16 →
      pageShut s page.val = false →
      msOk page.val m.bytes = true →
      msType m.bytes = 65 →
      (pageGet s page.val).aspKey = some key →
      msAuth key m.bytes = true →
      0 < (msSeq m.bytes - (pageGet s page.val).aspLast).toInt →
      (pageGet s page.val).delivered.contains (page.val, 65, 3, msSeq m.bytes) = false →
      (pageGet s page.val).outQ.any (fun x => aspKeyOf x.bytes = (page.val, 65, 3, msSeq m.bytes)) = false →
      page = 1 →
      (msBody m.bytes) = [0x5E, 0xC7] →
      ∃ t, exec (.aspReset page) s = .next t
        ∧ t.diag.out = msMake key 1 0x41 3 (msSeq m.bytes) [0]
        ∧ t.boot.ready = false
        ∧ t.pwr.st = .startUp
        ∧ t.permit.latch = false
        ∧ t.boot.kinds = kindsWith .hcr s)
  ∧ (∀ (s : State) (page : Fin 8) (m : AspMsg) (r : List AspMsg) (key : BitVec 128),
      (pageGet s page.val).inQ = m :: r →
      aspOn s = true →
      page = 1 → (pageGet s 1).outQ.length < 16 →
      pageShut s page.val = false →
      msOk page.val m.bytes = true →
      msType m.bytes = 65 →
      (pageGet s page.val).aspKey = some key →
      msAuth key m.bytes = true →
      0 < (msSeq m.bytes - (pageGet s page.val).aspLast).toInt →
      (pageGet s page.val).delivered.contains (page.val, 65, 3, msSeq m.bytes) = false →
      (pageGet s page.val).outQ.any (fun x => aspKeyOf x.bytes = (page.val, 65, 3, msSeq m.bytes)) = false →
      page ≠ 1 →
      ∃ t, exec (.aspReset page) s = .next t
        ∧ (pageGet t page.val).inQ = r
        ∧ (pageGet t page.val).aspLast = msSeq m.bytes
        ∧ (page = 1 → (pageGet t 1).outQ = (pageGet s 1).outQ ++ [{ m with bytes := msMake key page.val 65 3 (msSeq m.bytes) (leBytes 1 30 ++ []) }])
        ∧ (page ≠ 1 → t.diag.out = (udpSend m.srcMac m.srcIp (dgAspPort (diagSec s)) m.srcPort.toNat (msMake key page.val 65 3 (msSeq m.bytes) (leBytes 1 30 ++ [])) s).diag.out)
        ∧ t.pwr.st = s.pwr.st
        ∧ t.boot = s.boot)
  ∧ (∀ (s : State) (page : Fin 8) (m : AspMsg) (r : List AspMsg) (key : BitVec 128),
      (pageGet s page.val).inQ = m :: r →
      aspOn s = true →
      page = 1 → (pageGet s 1).outQ.length < 16 →
      pageShut s page.val = false →
      msOk page.val m.bytes = true →
      msType m.bytes = 66 →
      (pageGet s page.val).aspKey = some key →
      msAuth key m.bytes = true →
      0 < (msSeq m.bytes - (pageGet s page.val).aspLast).toInt →
      (pageGet s page.val).delivered.contains (page.val, 66, 3, msSeq m.bytes) = false →
      (pageGet s page.val).outQ.any (fun x => aspKeyOf x.bytes = (page.val, 66, 3, msSeq m.bytes)) = false →
      page = 1 →
      (msBody m.bytes).length = 2 →
      ∃ t, exec (.aspUhfCal page) s = .next t
        ∧ (pageGet t page.val).inQ = r
        ∧ (pageGet t page.val).aspLast = msSeq m.bytes
        ∧ (page = 1 → (pageGet t 1).outQ = (pageGet s 1).outQ ++ [{ m with bytes := msMake key page.val 66 3 (msSeq m.bytes) (leBytes 1 0 ++ []) }])
        ∧ (page ≠ 1 → t.diag.out = (udpSend m.srcMac m.srcIp (dgAspPort (diagSec s)) m.srcPort.toNat (msMake key page.val 66 3 (msSeq m.bytes) (leBytes 1 0 ++ [])) s).diag.out)
        ∧ t.uhf.trx = (calRequest (u8 (msBody m.bytes) 0 % 4 + 4 * (u8 (msBody m.bytes) 1 % 16)) s).uhf.trx)
  ∧ (∀ (s : State) (page : Fin 8) (m : AspMsg) (r : List AspMsg) (key : BitVec 128),
      (pageGet s page.val).inQ = m :: r →
      aspOn s = true →
      page = 1 → (pageGet s 1).outQ.length < 16 →
      pageShut s page.val = false →
      msOk page.val m.bytes = true →
      msType m.bytes = 66 →
      (pageGet s page.val).aspKey = some key →
      msAuth key m.bytes = true →
      0 < (msSeq m.bytes - (pageGet s page.val).aspLast).toInt →
      (pageGet s page.val).delivered.contains (page.val, 66, 3, msSeq m.bytes) = false →
      (pageGet s page.val).outQ.any (fun x => aspKeyOf x.bytes = (page.val, 66, 3, msSeq m.bytes)) = false →
      page ≠ 1 →
      ∃ t, exec (.aspUhfCal page) s = .next t
        ∧ (pageGet t page.val).inQ = r
        ∧ (pageGet t page.val).aspLast = msSeq m.bytes
        ∧ (page = 1 → (pageGet t 1).outQ = (pageGet s 1).outQ ++ [{ m with bytes := msMake key page.val 66 3 (msSeq m.bytes) (leBytes 1 30 ++ []) }])
        ∧ (page ≠ 1 → t.diag.out = (udpSend m.srcMac m.srcIp (dgAspPort (diagSec s)) m.srcPort.toNat (msMake key page.val 66 3 (msSeq m.bytes) (leBytes 1 30 ++ [])) s).diag.out)
        ∧ t.uhf = s.uhf)
  ∧ (∀ (s : State) (page : Fin 8) (m : AspMsg) (r : List AspMsg) (key : BitVec 128),
      (pageGet s page.val).inQ = m :: r →
      aspOn s = true →
      page = 1 → (pageGet s 1).outQ.length < 16 →
      pageShut s page.val = false →
      msOk page.val m.bytes = true →
      msType m.bytes = 80 →
      (pageGet s page.val).aspKey = some key →
      msAuth key m.bytes = true →
      0 < (msSeq m.bytes - (pageGet s page.val).aspLast).toInt →
      (pageGet s page.val).delivered.contains (page.val, 80, 3, msSeq m.bytes) = false →
      (pageGet s page.val).outQ.any (fun x => aspKeyOf x.bytes = (page.val, 80, 3, msSeq m.bytes)) = false →
      (msBody m.bytes).length = 4 →
      s.acc.sessOpen = true →
      beNat (msBody m.bytes) = s.acc.session →
      ∃ t, exec (.aspEngineRunning page) s = .next t
        ∧ (pageGet t page.val).inQ = r
        ∧ (pageGet t page.val).aspLast = msSeq m.bytes
        ∧ (page = 1 → (pageGet t 1).outQ = (pageGet s 1).outQ ++ [{ m with bytes := msMake key page.val 80 3 (msSeq m.bytes) (leBytes 1 0 ++ []) }])
        ∧ (page ≠ 1 → t.diag.out = (udpSend m.srcMac m.srcIp (dgAspPort (diagSec s)) m.srcPort.toNat (msMake key page.val 80 3 (msSeq m.bytes) (leBytes 1 0 ++ [])) s).diag.out)
        ∧ t.acc.holdUntil = some (s.elapsed + tS (pfHold s.acc.profile))
        ∧ t.acc.sessOpen = true)
  ∧ (∀ (s : State) (page : Fin 8) (m : AspMsg) (r : List AspMsg) (key : BitVec 128),
      (pageGet s page.val).inQ = m :: r →
      aspOn s = true →
      page = 1 → (pageGet s 1).outQ.length < 16 →
      pageShut s page.val = false →
      msOk page.val m.bytes = true →
      msType m.bytes = 80 →
      (pageGet s page.val).aspKey = some key →
      msAuth key m.bytes = true →
      0 < (msSeq m.bytes - (pageGet s page.val).aspLast).toInt →
      (pageGet s page.val).delivered.contains (page.val, 80, 3, msSeq m.bytes) = false →
      (pageGet s page.val).outQ.any (fun x => aspKeyOf x.bytes = (page.val, 80, 3, msSeq m.bytes)) = false →
      (msBody m.bytes).length = 4 →
      s.acc.sessOpen = false ∨ beNat (msBody m.bytes) ≠ s.acc.session →
      ∃ t, exec (.aspEngineRunning page) s = .next t
        ∧ (pageGet t page.val).inQ = r
        ∧ (pageGet t page.val).aspLast = msSeq m.bytes
        ∧ (page = 1 → (pageGet t 1).outQ = (pageGet s 1).outQ ++ [{ m with bytes := msMake key page.val 80 3 (msSeq m.bytes) (leBytes 1 3 ++ []) }])
        ∧ (page ≠ 1 → t.diag.out = (udpSend m.srcMac m.srcIp (dgAspPort (diagSec s)) m.srcPort.toNat (msMake key page.val 80 3 (msSeq m.bytes) (leBytes 1 3 ++ [])) s).diag.out)
        ∧ t.acc = s.acc)
  ∧ (∀ (s : State) (page : Fin 8) (m : AspMsg) (r : List AspMsg) (key : BitVec 128),
      (pageGet s page.val).inQ = m :: r →
      aspOn s = true →
      page = 1 → (pageGet s 1).outQ.length < 16 →
      pageShut s page.val = false →
      msOk page.val m.bytes = true →
      msType m.bytes = 81 →
      (pageGet s page.val).aspKey = some key →
      msAuth key m.bytes = true →
      0 < (msSeq m.bytes - (pageGet s page.val).aspLast).toInt →
      (pageGet s page.val).delivered.contains (page.val, 81, 3, msSeq m.bytes) = false →
      (pageGet s page.val).outQ.any (fun x => aspKeyOf x.bytes = (page.val, 81, 3, msSeq m.bytes)) = false →
      (msBody m.bytes).length = 4 →
      s.acc.sessOpen = true →
      beNat (msBody m.bytes) = s.acc.session →
      ∃ t, exec (.aspPermitEnd page) s = .next t
        ∧ (pageGet t page.val).inQ = r
        ∧ (pageGet t page.val).aspLast = msSeq m.bytes
        ∧ (page = 1 → (pageGet t 1).outQ = (pageGet s 1).outQ ++ [{ m with bytes := msMake key page.val 81 3 (msSeq m.bytes) (leBytes 1 0 ++ []) }])
        ∧ (page ≠ 1 → t.diag.out = (udpSend m.srcMac m.srcIp (dgAspPort (diagSec s)) m.srcPort.toNat (msMake key page.val 81 3 (msSeq m.bytes) (leBytes 1 0 ++ [])) s).diag.out)
        ∧ t.acc.sessOpen = false
        ∧ t.permit.latch = false
        ∧ t.acc.denyLeft = 3)
  ∧ (∀ (s : State) (page : Fin 8) (m : AspMsg) (r : List AspMsg) (key : BitVec 128),
      (pageGet s page.val).inQ = m :: r →
      aspOn s = true →
      page = 1 → (pageGet s 1).outQ.length < 16 →
      pageShut s page.val = false →
      msOk page.val m.bytes = true →
      msType m.bytes = 81 →
      (pageGet s page.val).aspKey = some key →
      msAuth key m.bytes = true →
      0 < (msSeq m.bytes - (pageGet s page.val).aspLast).toInt →
      (pageGet s page.val).delivered.contains (page.val, 81, 3, msSeq m.bytes) = false →
      (pageGet s page.val).outQ.any (fun x => aspKeyOf x.bytes = (page.val, 81, 3, msSeq m.bytes)) = false →
      (msBody m.bytes).length = 4 →
      s.acc.sessOpen = false ∨ beNat (msBody m.bytes) ≠ s.acc.session →
      ∃ t, exec (.aspPermitEnd page) s = .next t
        ∧ (pageGet t page.val).inQ = r
        ∧ (pageGet t page.val).aspLast = msSeq m.bytes
        ∧ (page = 1 → (pageGet t 1).outQ = (pageGet s 1).outQ ++ [{ m with bytes := msMake key page.val 81 3 (msSeq m.bytes) (leBytes 1 3 ++ []) }])
        ∧ (page ≠ 1 → t.diag.out = (udpSend m.srcMac m.srcIp (dgAspPort (diagSec s)) m.srcPort.toNat (msMake key page.val 81 3 (msSeq m.bytes) (leBytes 1 3 ++ [])) s).diag.out)
        ∧ t.acc = s.acc)
  ∧ (∀ (s : State) (page : Fin 8) (m : AspMsg) (r : List AspMsg) (key : BitVec 128),
      (pageGet s page.val).inQ = m :: r →
      aspOn s = true →
      page = 1 → (pageGet s 1).outQ.length < 16 →
      pageShut s page.val = false →
      msOk page.val m.bytes = true →
      msType m.bytes = 96 →
      (pageGet s page.val).aspKey = some key →
      msAuth key m.bytes = true →
      0 < (msSeq m.bytes - (pageGet s page.val).aspLast).toInt →
      (pageGet s page.val).delivered.contains (page.val, 96, 3, msSeq m.bytes) = false →
      (pageGet s page.val).outQ.any (fun x => aspKeyOf x.bytes = (page.val, 96, 3, msSeq m.bytes)) = false →
      page = 1 →
      (msBody m.bytes).length = 3 →
      u8 (msBody m.bytes) 0 = 1 →
      11000 ≤ beNat ((msBody m.bytes).drop 1) →
      beNat ((msBody m.bytes).drop 1) ≤ 14000 →
      ∃ t, exec (.aspOverrideCarrier page) s = .next t
        ∧ (pageGet t page.val).inQ = r
        ∧ (pageGet t page.val).aspLast = msSeq m.bytes
        ∧ (page = 1 → (pageGet t 1).outQ = (pageGet s 1).outQ ++ [{ m with bytes := msMake key page.val 96 3 (msSeq m.bytes) (leBytes 1 0 ++ []) }])
        ∧ (page ≠ 1 → t.diag.out = (udpSend m.srcMac m.srcIp (dgAspPort (diagSec s)) m.srcPort.toNat (msMake key page.val 96 3 (msSeq m.bytes) (leBytes 1 0 ++ [])) s).diag.out)
        ∧ t.ov = (ovPut 1 ((msBody m.bytes).drop 1) s).ov)
  ∧ (∀ (s : State) (page : Fin 8) (m : AspMsg) (r : List AspMsg) (key : BitVec 128),
      (pageGet s page.val).inQ = m :: r →
      aspOn s = true →
      page = 1 → (pageGet s 1).outQ.length < 16 →
      pageShut s page.val = false →
      msOk page.val m.bytes = true →
      msType m.bytes = 96 →
      (pageGet s page.val).aspKey = some key →
      msAuth key m.bytes = true →
      0 < (msSeq m.bytes - (pageGet s page.val).aspLast).toInt →
      (pageGet s page.val).delivered.contains (page.val, 96, 3, msSeq m.bytes) = false →
      (pageGet s page.val).outQ.any (fun x => aspKeyOf x.bytes = (page.val, 96, 3, msSeq m.bytes)) = false →
      page = 1 →
      u8 (msBody m.bytes) 0 = 1 →
      ovLen 1 ((msBody m.bytes).drop 1).length = true →
      ovOk s 1 ((msBody m.bytes).drop 1) = false →
      ∃ t, exec (.aspOverrideCarrier page) s = .next t
        ∧ (pageGet t page.val).inQ = r
        ∧ (pageGet t page.val).aspLast = msSeq m.bytes
        ∧ (page = 1 → (pageGet t 1).outQ = (pageGet s 1).outQ ++ [{ m with bytes := msMake key page.val 96 3 (msSeq m.bytes) (leBytes 1 16 ++ []) }])
        ∧ (page ≠ 1 → t.diag.out = (udpSend m.srcMac m.srcIp (dgAspPort (diagSec s)) m.srcPort.toNat (msMake key page.val 96 3 (msSeq m.bytes) (leBytes 1 16 ++ [])) s).diag.out)
        ∧ t.ov = s.ov)
  ∧ (∀ (s : State) (page : Fin 8) (m : AspMsg) (r : List AspMsg) (key : BitVec 128),
      (pageGet s page.val).inQ = m :: r →
      aspOn s = true →
      page = 1 → (pageGet s 1).outQ.length < 16 →
      pageShut s page.val = false →
      msOk page.val m.bytes = true →
      msType m.bytes = 96 →
      (pageGet s page.val).aspKey = some key →
      msAuth key m.bytes = true →
      0 < (msSeq m.bytes - (pageGet s page.val).aspLast).toInt →
      (pageGet s page.val).delivered.contains (page.val, 96, 3, msSeq m.bytes) = false →
      (pageGet s page.val).outQ.any (fun x => aspKeyOf x.bytes = (page.val, 96, 3, msSeq m.bytes)) = false →
      page = 1 →
      u8 (msBody m.bytes) 0 = 2 →
      ovLen 2 ((msBody m.bytes).drop 1).length = true →
      ovOk s 2 ((msBody m.bytes).drop 1) = false →
      ∃ t, exec (.aspOverrideWindowPlan page) s = .next t
        ∧ (pageGet t page.val).inQ = r
        ∧ (pageGet t page.val).aspLast = msSeq m.bytes
        ∧ (page = 1 → (pageGet t 1).outQ = (pageGet s 1).outQ ++ [{ m with bytes := msMake key page.val 96 3 (msSeq m.bytes) (leBytes 1 16 ++ []) }])
        ∧ (page ≠ 1 → t.diag.out = (udpSend m.srcMac m.srcIp (dgAspPort (diagSec s)) m.srcPort.toNat (msMake key page.val 96 3 (msSeq m.bytes) (leBytes 1 16 ++ [])) s).diag.out)
        ∧ t.ov = s.ov)
  ∧ (∀ (s : State) (page : Fin 8) (m : AspMsg) (r : List AspMsg) (key : BitVec 128),
      (pageGet s page.val).inQ = m :: r →
      aspOn s = true →
      page = 1 → (pageGet s 1).outQ.length < 16 →
      pageShut s page.val = false →
      msOk page.val m.bytes = true →
      msType m.bytes = 96 →
      (pageGet s page.val).aspKey = some key →
      msAuth key m.bytes = true →
      0 < (msSeq m.bytes - (pageGet s page.val).aspLast).toInt →
      (pageGet s page.val).delivered.contains (page.val, 96, 3, msSeq m.bytes) = false →
      (pageGet s page.val).outQ.any (fun x => aspKeyOf x.bytes = (page.val, 96, 3, msSeq m.bytes)) = false →
      page = 1 →
      u8 (msBody m.bytes) 0 = 3 →
      ovLen 3 ((msBody m.bytes).drop 1).length = true →
      ovOk s 3 ((msBody m.bytes).drop 1) = false →
      ∃ t, exec (.aspOverrideTelegram page) s = .next t
        ∧ (pageGet t page.val).inQ = r
        ∧ (pageGet t page.val).aspLast = msSeq m.bytes
        ∧ (page = 1 → (pageGet t 1).outQ = (pageGet s 1).outQ ++ [{ m with bytes := msMake key page.val 96 3 (msSeq m.bytes) (leBytes 1 16 ++ []) }])
        ∧ (page ≠ 1 → t.diag.out = (udpSend m.srcMac m.srcIp (dgAspPort (diagSec s)) m.srcPort.toNat (msMake key page.val 96 3 (msSeq m.bytes) (leBytes 1 16 ++ [])) s).diag.out)
        ∧ t.ov = s.ov)
  ∧ (∀ (s : State) (page : Fin 8) (m : AspMsg) (r : List AspMsg) (key : BitVec 128),
      (pageGet s page.val).inQ = m :: r →
      aspOn s = true →
      page = 1 → (pageGet s 1).outQ.length < 16 →
      pageShut s page.val = false →
      msOk page.val m.bytes = true →
      msType m.bytes = 96 →
      (pageGet s page.val).aspKey = some key →
      msAuth key m.bytes = true →
      0 < (msSeq m.bytes - (pageGet s page.val).aspLast).toInt →
      (pageGet s page.val).delivered.contains (page.val, 96, 3, msSeq m.bytes) = false →
      (pageGet s page.val).outQ.any (fun x => aspKeyOf x.bytes = (page.val, 96, 3, msSeq m.bytes)) = false →
      page = 1 →
      u8 (msBody m.bytes) 0 = 4 →
      ovLen 4 ((msBody m.bytes).drop 1).length = true →
      ovOk s 4 ((msBody m.bytes).drop 1) = false →
      ∃ t, exec (.aspOverrideRanging page) s = .next t
        ∧ (pageGet t page.val).inQ = r
        ∧ (pageGet t page.val).aspLast = msSeq m.bytes
        ∧ (page = 1 → (pageGet t 1).outQ = (pageGet s 1).outQ ++ [{ m with bytes := msMake key page.val 96 3 (msSeq m.bytes) (leBytes 1 16 ++ []) }])
        ∧ (page ≠ 1 → t.diag.out = (udpSend m.srcMac m.srcIp (dgAspPort (diagSec s)) m.srcPort.toNat (msMake key page.val 96 3 (msSeq m.bytes) (leBytes 1 16 ++ [])) s).diag.out)
        ∧ t.ov = s.ov)
  ∧ (∀ (s : State) (page : Fin 8) (m : AspMsg) (r : List AspMsg) (key : BitVec 128),
      (pageGet s page.val).inQ = m :: r →
      aspOn s = true →
      page = 1 → (pageGet s 1).outQ.length < 16 →
      pageShut s page.val = false →
      msOk page.val m.bytes = true →
      msType m.bytes = 96 →
      (pageGet s page.val).aspKey = some key →
      msAuth key m.bytes = true →
      0 < (msSeq m.bytes - (pageGet s page.val).aspLast).toInt →
      (pageGet s page.val).delivered.contains (page.val, 96, 3, msSeq m.bytes) = false →
      (pageGet s page.val).outQ.any (fun x => aspKeyOf x.bytes = (page.val, 96, 3, msSeq m.bytes)) = false →
      page = 1 →
      u8 (msBody m.bytes) 0 = 2 →
      ovLen 2 ((msBody m.bytes).drop 1).length = true →
      ovOk s 2 ((msBody m.bytes).drop 1) = true →
      ∃ t, exec (.aspOverrideWindowPlan page) s = .next t
        ∧ (pageGet t page.val).inQ = r
        ∧ (pageGet t page.val).aspLast = msSeq m.bytes
        ∧ (page = 1 → (pageGet t 1).outQ = (pageGet s 1).outQ ++ [{ m with bytes := msMake key page.val 96 3 (msSeq m.bytes) (leBytes 1 0 ++ []) }])
        ∧ (page ≠ 1 → t.diag.out = (udpSend m.srcMac m.srcIp (dgAspPort (diagSec s)) m.srcPort.toNat (msMake key page.val 96 3 (msSeq m.bytes) (leBytes 1 0 ++ [])) s).diag.out)
        ∧ t.ov = (ovPut 2 ((msBody m.bytes).drop 1) s).ov)
  ∧ (∀ (s : State) (page : Fin 8) (m : AspMsg) (r : List AspMsg) (key : BitVec 128),
      (pageGet s page.val).inQ = m :: r →
      aspOn s = true →
      page = 1 → (pageGet s 1).outQ.length < 16 →
      pageShut s page.val = false →
      msOk page.val m.bytes = true →
      msType m.bytes = 96 →
      (pageGet s page.val).aspKey = some key →
      msAuth key m.bytes = true →
      0 < (msSeq m.bytes - (pageGet s page.val).aspLast).toInt →
      (pageGet s page.val).delivered.contains (page.val, 96, 3, msSeq m.bytes) = false →
      (pageGet s page.val).outQ.any (fun x => aspKeyOf x.bytes = (page.val, 96, 3, msSeq m.bytes)) = false →
      page = 1 →
      u8 (msBody m.bytes) 0 = 3 →
      ovLen 3 ((msBody m.bytes).drop 1).length = true →
      ovOk s 3 ((msBody m.bytes).drop 1) = true →
      ∃ t, exec (.aspOverrideTelegram page) s = .next t
        ∧ (pageGet t page.val).inQ = r
        ∧ (pageGet t page.val).aspLast = msSeq m.bytes
        ∧ (page = 1 → (pageGet t 1).outQ = (pageGet s 1).outQ ++ [{ m with bytes := msMake key page.val 96 3 (msSeq m.bytes) (leBytes 1 0 ++ []) }])
        ∧ (page ≠ 1 → t.diag.out = (udpSend m.srcMac m.srcIp (dgAspPort (diagSec s)) m.srcPort.toNat (msMake key page.val 96 3 (msSeq m.bytes) (leBytes 1 0 ++ [])) s).diag.out)
        ∧ t.ov = (ovPut 3 ((msBody m.bytes).drop 1) s).ov)
  ∧ (∀ (s : State) (page : Fin 8) (m : AspMsg) (r : List AspMsg) (key : BitVec 128),
      (pageGet s page.val).inQ = m :: r →
      aspOn s = true →
      page = 1 → (pageGet s 1).outQ.length < 16 →
      pageShut s page.val = false →
      msOk page.val m.bytes = true →
      msType m.bytes = 96 →
      (pageGet s page.val).aspKey = some key →
      msAuth key m.bytes = true →
      0 < (msSeq m.bytes - (pageGet s page.val).aspLast).toInt →
      (pageGet s page.val).delivered.contains (page.val, 96, 3, msSeq m.bytes) = false →
      (pageGet s page.val).outQ.any (fun x => aspKeyOf x.bytes = (page.val, 96, 3, msSeq m.bytes)) = false →
      page = 1 →
      u8 (msBody m.bytes) 0 = 4 →
      ovLen 4 ((msBody m.bytes).drop 1).length = true →
      ovOk s 4 ((msBody m.bytes).drop 1) = true →
      ∃ t, exec (.aspOverrideRanging page) s = .next t
        ∧ (pageGet t page.val).inQ = r
        ∧ (pageGet t page.val).aspLast = msSeq m.bytes
        ∧ (page = 1 → (pageGet t 1).outQ = (pageGet s 1).outQ ++ [{ m with bytes := msMake key page.val 96 3 (msSeq m.bytes) (leBytes 1 0 ++ []) }])
        ∧ (page ≠ 1 → t.diag.out = (udpSend m.srcMac m.srcIp (dgAspPort (diagSec s)) m.srcPort.toNat (msMake key page.val 96 3 (msSeq m.bytes) (leBytes 1 0 ++ [])) s).diag.out)
        ∧ t.ov = (ovPut 4 ((msBody m.bytes).drop 1) s).ov)
  ∧ (∀ (s : State) (page : Fin 8) (m : AspMsg) (r : List AspMsg) (key : BitVec 128),
      (pageGet s page.val).inQ = m :: r →
      aspOn s = true →
      page = 1 → (pageGet s 1).outQ.length < 16 →
      pageShut s page.val = false →
      msOk page.val m.bytes = true →
      msType m.bytes = 96 →
      (pageGet s page.val).aspKey = some key →
      msAuth key m.bytes = true →
      0 < (msSeq m.bytes - (pageGet s page.val).aspLast).toInt →
      (pageGet s page.val).delivered.contains (page.val, 96, 3, msSeq m.bytes) = false →
      (pageGet s page.val).outQ.any (fun x => aspKeyOf x.bytes = (page.val, 96, 3, msSeq m.bytes)) = false →
      page ≠ 1 →
      u8 (msBody m.bytes) 0 = 1 →
      ∃ t, exec (.aspOverrideCarrier page) s = .next t
        ∧ (pageGet t page.val).inQ = r
        ∧ (pageGet t page.val).aspLast = msSeq m.bytes
        ∧ (page = 1 → (pageGet t 1).outQ = (pageGet s 1).outQ ++ [{ m with bytes := msMake key page.val 96 3 (msSeq m.bytes) (leBytes 1 30 ++ []) }])
        ∧ (page ≠ 1 → t.diag.out = (udpSend m.srcMac m.srcIp (dgAspPort (diagSec s)) m.srcPort.toNat (msMake key page.val 96 3 (msSeq m.bytes) (leBytes 1 30 ++ [])) s).diag.out)
        ∧ t.ov = s.ov)
  ∧ (∀ (s : State) (page : Fin 8) (m : AspMsg) (r : List AspMsg) (key : BitVec 128),
      (pageGet s page.val).inQ = m :: r →
      aspOn s = true →
      page = 1 → (pageGet s 1).outQ.length < 16 →
      pageShut s page.val = false →
      msOk page.val m.bytes = true →
      msType m.bytes = 96 →
      (pageGet s page.val).aspKey = some key →
      msAuth key m.bytes = true →
      0 < (msSeq m.bytes - (pageGet s page.val).aspLast).toInt →
      (pageGet s page.val).delivered.contains (page.val, 96, 3, msSeq m.bytes) = false →
      (pageGet s page.val).outQ.any (fun x => aspKeyOf x.bytes = (page.val, 96, 3, msSeq m.bytes)) = false →
      page ≠ 1 →
      u8 (msBody m.bytes) 0 = 2 →
      ∃ t, exec (.aspOverrideWindowPlan page) s = .next t
        ∧ (pageGet t page.val).inQ = r
        ∧ (pageGet t page.val).aspLast = msSeq m.bytes
        ∧ (page = 1 → (pageGet t 1).outQ = (pageGet s 1).outQ ++ [{ m with bytes := msMake key page.val 96 3 (msSeq m.bytes) (leBytes 1 30 ++ []) }])
        ∧ (page ≠ 1 → t.diag.out = (udpSend m.srcMac m.srcIp (dgAspPort (diagSec s)) m.srcPort.toNat (msMake key page.val 96 3 (msSeq m.bytes) (leBytes 1 30 ++ [])) s).diag.out)
        ∧ t.ov = s.ov)
  ∧ (∀ (s : State) (page : Fin 8) (m : AspMsg) (r : List AspMsg) (key : BitVec 128),
      (pageGet s page.val).inQ = m :: r →
      aspOn s = true →
      page = 1 → (pageGet s 1).outQ.length < 16 →
      pageShut s page.val = false →
      msOk page.val m.bytes = true →
      msType m.bytes = 96 →
      (pageGet s page.val).aspKey = some key →
      msAuth key m.bytes = true →
      0 < (msSeq m.bytes - (pageGet s page.val).aspLast).toInt →
      (pageGet s page.val).delivered.contains (page.val, 96, 3, msSeq m.bytes) = false →
      (pageGet s page.val).outQ.any (fun x => aspKeyOf x.bytes = (page.val, 96, 3, msSeq m.bytes)) = false →
      page ≠ 1 →
      u8 (msBody m.bytes) 0 = 3 →
      ∃ t, exec (.aspOverrideTelegram page) s = .next t
        ∧ (pageGet t page.val).inQ = r
        ∧ (pageGet t page.val).aspLast = msSeq m.bytes
        ∧ (page = 1 → (pageGet t 1).outQ = (pageGet s 1).outQ ++ [{ m with bytes := msMake key page.val 96 3 (msSeq m.bytes) (leBytes 1 30 ++ []) }])
        ∧ (page ≠ 1 → t.diag.out = (udpSend m.srcMac m.srcIp (dgAspPort (diagSec s)) m.srcPort.toNat (msMake key page.val 96 3 (msSeq m.bytes) (leBytes 1 30 ++ [])) s).diag.out)
        ∧ t.ov = s.ov)
  ∧ (∀ (s : State) (page : Fin 8) (m : AspMsg) (r : List AspMsg) (key : BitVec 128),
      (pageGet s page.val).inQ = m :: r →
      aspOn s = true →
      page = 1 → (pageGet s 1).outQ.length < 16 →
      pageShut s page.val = false →
      msOk page.val m.bytes = true →
      msType m.bytes = 96 →
      (pageGet s page.val).aspKey = some key →
      msAuth key m.bytes = true →
      0 < (msSeq m.bytes - (pageGet s page.val).aspLast).toInt →
      (pageGet s page.val).delivered.contains (page.val, 96, 3, msSeq m.bytes) = false →
      (pageGet s page.val).outQ.any (fun x => aspKeyOf x.bytes = (page.val, 96, 3, msSeq m.bytes)) = false →
      page ≠ 1 →
      u8 (msBody m.bytes) 0 = 4 →
      ∃ t, exec (.aspOverrideRanging page) s = .next t
        ∧ (pageGet t page.val).inQ = r
        ∧ (pageGet t page.val).aspLast = msSeq m.bytes
        ∧ (page = 1 → (pageGet t 1).outQ = (pageGet s 1).outQ ++ [{ m with bytes := msMake key page.val 96 3 (msSeq m.bytes) (leBytes 1 30 ++ []) }])
        ∧ (page ≠ 1 → t.diag.out = (udpSend m.srcMac m.srcIp (dgAspPort (diagSec s)) m.srcPort.toNat (msMake key page.val 96 3 (msSeq m.bytes) (leBytes 1 30 ++ [])) s).diag.out)
        ∧ t.ov = s.ov)
  ∧ (∀ (s : State) (page : Fin 8) (m : AspMsg) (r : List AspMsg) (key : BitVec 128),
      (pageGet s page.val).inQ = m :: r →
      aspOn s = true →
      page = 1 → (pageGet s 1).outQ.length < 16 →
      pageShut s page.val = false →
      msOk page.val m.bytes = true →
      msType m.bytes = 97 →
      (pageGet s page.val).aspKey = some key →
      msAuth key m.bytes = true →
      0 < (msSeq m.bytes - (pageGet s page.val).aspLast).toInt →
      (pageGet s page.val).delivered.contains (page.val, 97, 3, msSeq m.bytes) = false →
      (pageGet s page.val).outQ.any (fun x => aspKeyOf x.bytes = (page.val, 97, 3, msSeq m.bytes)) = false →
      page = 1 →
      msBody m.bytes = [] →
      ∃ t, exec (.aspRevert page) s = .next t
        ∧ (pageGet t page.val).inQ = r
        ∧ (pageGet t page.val).aspLast = msSeq m.bytes
        ∧ (page = 1 → (pageGet t 1).outQ = (pageGet s 1).outQ ++ [{ m with bytes := msMake key page.val 97 3 (msSeq m.bytes) (leBytes 1 0 ++ []) }])
        ∧ (page ≠ 1 → t.diag.out = (udpSend m.srcMac m.srcIp (dgAspPort (diagSec s)) m.srcPort.toNat (msMake key page.val 97 3 (msSeq m.bytes) (leBytes 1 0 ++ [])) s).diag.out)
        ∧ t.ov = (ovPut 0 [] s).ov
        ∧ (s.acc.seqn = none → t.ov = Overrides.none))
  ∧ (∀ (s : State) (page : Fin 8) (m : AspMsg) (r : List AspMsg) (key : BitVec 128),
      (pageGet s page.val).inQ = m :: r →
      aspOn s = true →
      page = 1 → (pageGet s 1).outQ.length < 16 →
      pageShut s page.val = false →
      msOk page.val m.bytes = true →
      msType m.bytes = 97 →
      (pageGet s page.val).aspKey = some key →
      msAuth key m.bytes = true →
      0 < (msSeq m.bytes - (pageGet s page.val).aspLast).toInt →
      (pageGet s page.val).delivered.contains (page.val, 97, 3, msSeq m.bytes) = false →
      (pageGet s page.val).outQ.any (fun x => aspKeyOf x.bytes = (page.val, 97, 3, msSeq m.bytes)) = false →
      page ≠ 1 →
      ∃ t, exec (.aspRevert page) s = .next t
        ∧ (pageGet t page.val).inQ = r
        ∧ (pageGet t page.val).aspLast = msSeq m.bytes
        ∧ (page = 1 → (pageGet t 1).outQ = (pageGet s 1).outQ ++ [{ m with bytes := msMake key page.val 97 3 (msSeq m.bytes) (leBytes 1 30 ++ []) }])
        ∧ (page ≠ 1 → t.diag.out = (udpSend m.srcMac m.srcIp (dgAspPort (diagSec s)) m.srcPort.toNat (msMake key page.val 97 3 (msSeq m.bytes) (leBytes 1 30 ++ [])) s).diag.out)
        ∧ t.ov = s.ov)

/-- On a connection that carries no request now each of the thirty-four UDS and routine requests changes nothing.
DEFAULT_SESSION: session 1, no page, no roles, S3 and the idle timer restarted. PROGRAMMING_SESSION and
EXTENDED_SESSION: their session with the timing parameters, in BLANK with CPG7 and every role bound; where another
connection holds CPG7 in BLANK NRC 0x22. TESTER_PRESENT restarts S3, answered unless suppressed. UNSUPPORTED_SERVICE
with an unlisted SID NRC 0x11, with a listed one no answer of its own. ECU_RESET: in the default session NRC 0x7F,
without the workshop right 0x33, with it the answer and an HCR with the permit in deny. S3_SERVER_TIMEOUT 5 s after the
last request outside session 1, with no routine of the connection running: session 1 and no authentication; in session
1, earlier, or with such a routine running nothing. -/
def Obligations.UdsSessions : Prop :=
  (∀ (s : State) (c : Fin 3),
      udsLive s c.val = true →
      ∃ t, exec (.defaultSession c) s = .next t
        ∧ (connGet t c.val).resp = [0x50, 1, 0, 50, 1, 0xF4]
        ∧ (connGet t c.val).session = 1
        ∧ (connGet t c.val).page = 0
        ∧ (connGet t c.val).roles = 0
        ∧ (connGet t c.val).s3 = s.elapsed
        ∧ t.pwr.idleSince = s.elapsed)
  ∧ (∀ (s : State) (c : Fin 3) (q ok a : Bool) (sid mask config format al block lock st tg page : Byte) (group : BitVec 24) (dids : List (BitVec 16)) (chain : List TesterCert) (sig data rc k cert d : Bytes) (rid g : BitVec 16) (addr size : BitVec 32) (ix : Fin 256) (n : Fin 64) (attr : Word) (key : CrtKey) (id : BitVec 64),
      udsLive s c.val = false →
      exec (.defaultSession c) s = .next (settle s s)
        ∧ exec (.programmingSession c) s = .next (settle s s)
        ∧ exec (.extendedSession c) s = .next (settle s s)
        ∧ exec (.ecuReset c) s = .next (settle s s)
        ∧ exec (.testerPresent c q) s = .next (settle s s)
        ∧ exec (.unsupportedService c sid) s = .next (settle s s)
        ∧ exec (.clearDiagnosticInformation c group) s = .next (settle s s)
        ∧ exec (.reportNumberOfDtcByStatusMask c mask) s = .next (settle s s)
        ∧ exec (.reportDtcByStatusMask c mask) s = .next (settle s s)
        ∧ exec (.reportSupportedDtc c) s = .next (settle s s)
        ∧ exec (.readDataByIdentifier c dids) s = .next (settle s s)
        ∧ exec (.verifyCertificateUnidirectional c config chain) s = .next (settle s s)
        ∧ exec (.proofOfOwnership c sig) s = .next (settle s s)
        ∧ exec (.deAuthenticate c) s = .next (settle s s)
        ∧ exec (.authenticationConfiguration c) s = .next (settle s s)
        ∧ exec (.routineResults c rid) s = .next (settle s s)
        ∧ exec (.requestDownload c format al addr size) s = .next (settle s s)
        ∧ exec (.transferData c block data ok) s = .next (settle s s)
        ∧ exec (.requestTransferExit c) s = .next (settle s s)
        ∧ exec (.verifyImage c a) s = .next (settle s s)
        ∧ exec (.learnKey c rc k lock) s = .next (settle s s)
        ∧ exec (.credState c ix st) s = .next (settle s s)
        ∧ exec (.writeProfile c rc) s = .next (settle s s)
        ∧ exec (.slotWrite c n attr g k) s = .next (settle s s)
        ∧ exec (.slotGenerate c n attr g) s = .next (settle s s)
        ∧ exec (.slotErase c n g) s = .next (settle s s)
        ∧ exec (.identityWrite c key cert) s = .next (settle s s)
        ∧ exec (.lcTransition c tg) s = .next (settle s s)
        ∧ exec (.debugSeal c) s = .next (settle s s)
        ∧ exec (.tamperClear c) s = .next (settle s s)
        ∧ exec (.tagInventory c) s = .next (settle s s)
        ∧ exec (.tagRead c id page) s = .next (settle s s)
        ∧ exec (.tagWrite c id page d) s = .next (settle s s)
        ∧ exec (.tagLock c id page) s = .next (settle s s))
  ∧ (∀ (s : State) (c : Fin 3),
      udsLive s c.val = true →
      s.ks.lc = .blank →
      pageTaken s c.val 7 = true →
      ∃ t, exec (.programmingSession c) s = .next t
        ∧ (connGet t c.val).resp = [0x7F, 0x10, 0x22]
        ∧ (connGet t c.val).session = (connGet s c.val).session)
  ∧ (∀ (s : State) (c : Fin 3),
      udsLive s c.val = true →
      s.ks.lc ≠ .blank ∨ pageTaken s c.val 7 = false →
      ∃ t, exec (.programmingSession c) s = .next t
        ∧ (connGet t c.val).resp = [0x50, 2, 0, 50, 1, 0xF4]
        ∧ (connGet t c.val).session = 2
        ∧ (s.ks.lc = .blank → (connGet t c.val).page = 7 ∧ (connGet t c.val).roles = 0x1F))
  ∧ (∀ (s : State) (c : Fin 3),
      udsLive s c.val = true →
      s.ks.lc ≠ .blank ∨ pageTaken s c.val 7 = false →
      ∃ t, exec (.extendedSession c) s = .next t
        ∧ (connGet t c.val).resp = [0x50, 3, 0, 50, 1, 0xF4]
        ∧ (connGet t c.val).session = 3
        ∧ (s.ks.lc = .blank → (connGet t c.val).page = 7 ∧ (connGet t c.val).roles = 0x1F))
  ∧ (∀ (s : State) (c : Fin 3),
      udsLive s c.val = true →
      s.ks.lc = .blank →
      pageTaken s c.val 7 = true →
      ∃ t, exec (.extendedSession c) s = .next t
        ∧ (connGet t c.val).resp = [0x7F, 0x10, 0x22]
        ∧ (connGet t c.val).session = (connGet s c.val).session)
  ∧ (∀ (s : State) (c : Fin 3),
      udsLive s c.val = true →
      ∃ t, exec (.testerPresent c false) s = .next t
        ∧ (connGet t c.val).resp = [0x7E, 0]
        ∧ (connGet t c.val).s3 = s.elapsed
        ∧ (connGet t c.val).session = (connGet s c.val).session)
  ∧ (∀ (s : State) (c : Fin 3),
      udsLive s c.val = true →
      ∃ t, exec (.testerPresent c true) s = .next t
        ∧ (connGet t c.val).resp = (connGet s c.val).resp
        ∧ (connGet t c.val).s3 = s.elapsed)
  ∧ (∀ (s : State) (c : Fin 3) (sid : Byte),
      udsLive s c.val = true →
      sidKnown sid.toNat = false →
      ∃ t, exec (.unsupportedService c sid) s = .next t
        ∧ (connGet t c.val).resp = [0x7F, sid, 0x11])
  ∧ (∀ (s : State) (c : Fin 3) (sid : Byte),
      udsLive s c.val = true →
      sidKnown sid.toNat = true →
      ∃ t, exec (.unsupportedService c sid) s = .next t
        ∧ (connGet t c.val).resp = (connGet s c.val).resp)
  ∧ (∀ (s : State) (c : Fin 3),
      udsLive s c.val = true →
      (connGet s c.val).session = 1 →
      ∃ t, exec (.ecuReset c) s = .next t
        ∧ (connGet t c.val).resp = [0x7F, 0x11, 0x7F]
        ∧ t.boot = s.boot)
  ∧ (∀ (s : State) (c : Fin 3),
      udsLive s c.val = true →
      (connGet s c.val).session ≠ 1 →
      capFull s c.val .workshop = false →
      ∃ t, exec (.ecuReset c) s = .next t
        ∧ (connGet t c.val).resp = [0x7F, 0x11, 0x33]
        ∧ t.boot = s.boot)
  ∧ (∀ (s : State) (c : Fin 3),
      udsLive s c.val = true →
      (connGet s c.val).session ≠ 1 →
      capFull s c.val .workshop = true →
      ∃ t, exec (.ecuReset c) s = .next t
        ∧ t.pwr.st = .startUp
        ∧ t.boot.ready = false
        ∧ t.boot.kinds.contains .hcr = true
        ∧ t.diag.out = [0x51, 1]
        ∧ t.permit.latch = false)
  ∧ (∀ (s : State) (c : Fin 3),
      (connGet s c.val).session ≠ 1 →
      s.diag.routine = none →
      (connGet s c.val).s3 + tS 5 ≤ s.elapsed →
      ∃ t, exec (.s3ServerTimeout c) s = .next t
        ∧ (connGet t c.val).session = 1
        ∧ (connGet t c.val).page = 0
        ∧ (connGet t c.val).roles = 0
        ∧ (connGet t c.val).auth = none)
  ∧ (∀ (s : State) (c : Fin 3) (r : Routine),
      (connGet s c.val).session ≠ 1 →
      s.diag.routine = some r →
      r.running = false ∨ r.conn ≠ c.val →
      (connGet s c.val).s3 + tS 5 ≤ s.elapsed →
      ∃ t, exec (.s3ServerTimeout c) s = .next t
        ∧ (connGet t c.val).session = 1
        ∧ (connGet t c.val).page = 0
        ∧ (connGet t c.val).roles = 0
        ∧ (connGet t c.val).auth = none)
  ∧ (∀ (s : State) (c : Fin 3) (r : Routine),
      s.diag.routine = some r →
      r.running = true →
      r.conn = c.val →
      ∃ t, exec (.s3ServerTimeout c) s = .next t
        ∧ t.diag = s.diag)
  ∧ (∀ (s : State) (c : Fin 3),
      (connGet s c.val).session = 1 →
      ∃ t, exec (.s3ServerTimeout c) s = .next t
        ∧ t.diag = s.diag)
  ∧ (∀ (s : State) (c : Fin 3),
      s.elapsed < (connGet s c.val).s3 + tS 5 →
      ∃ t, exec (.s3ServerTimeout c) s = .next t
        ∧ t.diag = s.diag)

/-- CLEAR_DIAGNOSTIC_INFORMATION with all DTCs in the extended session and with the workshop right: answered, and only DTCs
whose condition is present remain, none where none is; for another group NRC 0x31, in another session 0x7F, without the
right 0x33, the records kept. The three reports: the number, or the list with code and status, of the records that match
within 0x2D, or of all. READ_DATA_BY_IDENTIFIER of 1 to 8 identifiers that are all readable: each behind its identifier;
otherwise the NRC of the first that is not; of none or more than 8 NRC 0x13. Shown besides for 0xF187 (the part name),
0xF1A1 (the image digest) and the credentials 0xF200 to 0xF2FF with and without the right. -/
def Obligations.UdsDtcAndData : Prop :=
  (∀ (s : State) (c : Fin 3) (group : BitVec 24),
      udsLive s c.val = true →
      (connGet s c.val).session = 3 →
      capFull s c.val .workshop = true →
      group = 0xFFFFFF →
      s.diag.conditions = [] →
      ∃ t, exec (.clearDiagnosticInformation c group) s = .next t
        ∧ (connGet t c.val).resp = [0x54]
        ∧ t.diag.dtcs = [])
  ∧ (∀ (s : State) (c : Fin 3) (group : BitVec 24),
      udsLive s c.val = true →
      (connGet s c.val).session = 3 →
      capFull s c.val .workshop = true →
      group = 0xFFFFFF →
      ∃ t, exec (.clearDiagnosticInformation c group) s = .next t
        ∧ (connGet t c.val).resp = [0x54]
        ∧ (∀ d ∈ t.diag.dtcs, d.code ∈ s.diag.conditions))
  ∧ (∀ (s : State) (c : Fin 3) (group : BitVec 24),
      udsLive s c.val = true →
      (connGet s c.val).session ≠ 3 →
      ∃ t, exec (.clearDiagnosticInformation c group) s = .next t
        ∧ (connGet t c.val).resp = [0x7F, 0x14, 0x7F]
        ∧ t.diag.dtcs = s.diag.dtcs)
  ∧ (∀ (s : State) (c : Fin 3) (group : BitVec 24),
      udsLive s c.val = true →
      (connGet s c.val).session = 3 →
      capFull s c.val .workshop = false →
      ∃ t, exec (.clearDiagnosticInformation c group) s = .next t
        ∧ (connGet t c.val).resp = [0x7F, 0x14, 0x33]
        ∧ t.diag.dtcs = s.diag.dtcs)
  ∧ (∀ (s : State) (c : Fin 3) (group : BitVec 24),
      udsLive s c.val = true →
      (connGet s c.val).session = 3 →
      capFull s c.val .workshop = true →
      group ≠ 0xFFFFFF →
      ∃ t, exec (.clearDiagnosticInformation c group) s = .next t
        ∧ (connGet t c.val).resp = [0x7F, 0x14, 0x31]
        ∧ t.diag.dtcs = s.diag.dtcs)
  ∧ (∀ (s : State) (c : Fin 3) (mask : Byte),
      udsLive s c.val = true →
      ∃ t, exec (.reportNumberOfDtcByStatusMask c mask) s = .next t
        ∧ (connGet t c.val).resp = [0x59, 1, 0x2D, 1] ++ beBytes 2 (s.diag.dtcs.filter (fun d => (d.st &&& mask &&& 0x2D) != 0)).length
        ∧ t.diag.dtcs = s.diag.dtcs)
  ∧ (∀ (s : State) (c : Fin 3) (mask : Byte),
      udsLive s c.val = true →
      ∃ t, exec (.reportDtcByStatusMask c mask) s = .next t
        ∧ (connGet t c.val).resp = [0x59, 2, 0x2D] ++ (s.diag.dtcs.filter (fun d => (d.st &&& mask &&& 0x2D) != 0)).flatMap (fun d => beBytes 3 d.code ++ [d.st &&& 0x2D])
        ∧ t.diag.dtcs = s.diag.dtcs)
  ∧ (∀ (s : State) (c : Fin 3),
      udsLive s c.val = true →
      ∃ t, exec (.reportSupportedDtc c) s = .next t
        ∧ (connGet t c.val).resp = [0x59, 0x0A, 0x2D] ++ s.diag.dtcs.flatMap (fun d => beBytes 3 d.code ++ [d.st &&& 0x2D]))
  ∧ (∀ (s : State) (c : Fin 3),
      udsLive s c.val = true →
      ∃ t, exec (.readDataByIdentifier c [0xF187]) s = .next t
        ∧ (connGet t c.val).resp = [0x62, 0xF1, 0x87] ++ partName)
  ∧ (∀ (s : State) (c : Fin 3) (l : List (BitVec 16)) (bs : List Bytes),
      udsLive s c.val = true →
      l ≠ [] →
      l.length ≤ 8 →
      l.map (fun d => (didRead (udsHeard c.val s) c.val d.toNat).toOption) = bs.map some →
      ∃ t, exec (.readDataByIdentifier c l) s = .next t
        ∧ (connGet t c.val).resp = 0x62 :: (l.zip bs).flatMap (fun x => beBytes 2 x.1.toNat ++ x.2))
  ∧ (∀ (s : State) (c : Fin 3) (a b : List (BitVec 16)) (d : BitVec 16) (n : Nat),
      udsLive s c.val = true →
      a.length + b.length < 8 →
      a.all (fun x => (didRead (udsHeard c.val s) c.val x.toNat).toOption.isSome) = true →
      (match didRead (udsHeard c.val s) c.val d.toNat with | .error k => decide (k = n) | .ok _ => false) = true →
      ∃ t, exec (.readDataByIdentifier c (a ++ d :: b)) s = .next t
        ∧ (connGet t c.val).resp = [0x7F, 0x22, BitVec.ofNat 8 n])
  ∧ (∀ (s : State) (c : Fin 3) (l : List (BitVec 16)),
      udsLive s c.val = true →
      l = [] ∨ 8 < l.length →
      ∃ t, exec (.readDataByIdentifier c l) s = .next t
        ∧ (connGet t c.val).resp = [0x7F, 0x22, 0x13])
  ∧ (∀ (s : State) (c : Fin 3) (d : BitVec 16) (b : Bytes),
      udsLive s c.val = true →
      d.toNat ≠ 0xF187 →
      d.toNat = 0xF1A1 →
      b = s.boot.digest →
      ∃ t, exec (.readDataByIdentifier c [d]) s = .next t
        ∧ (connGet t c.val).resp = [0x62, 0xF1, 0xA1] ++ b)
  ∧ (∀ (s : State) (c : Fin 3) (d : BitVec 16),
      udsLive s c.val = true →
      0xF200 ≤ d.toNat →
      d.toNat ≤ 0xF2FF →
      capFull s c.val .keys = true →
      ∃ t, exec (.readDataByIdentifier c [d]) s = .next t
        ∧ (connGet t c.val).resp = [0x62, 0xF2, BitVec.ofNat 8 (d.toNat % 256)] ++ credBytes (d.toNat - 0xF200) (credGet s (d.toNat - 0xF200)))
  ∧ (∀ (s : State) (c : Fin 3) (d : BitVec 16),
      udsLive s c.val = true →
      0xF200 ≤ d.toNat →
      d.toNat ≤ 0xF2FF →
      capFull s c.val .keys = false →
      ∃ t, exec (.readDataByIdentifier c [d]) s = .next t
        ∧ (connGet t c.val).resp = [0x7F, 0x22, 0x33])

/-- Each of the four requests: in the default session NRC 0x7F, in BLANK 0x22, the first after the third failure 0x36, then
until the delay ends 0x37. VERIFY_CERTIFICATE_UNIDIRECTIONAL: a bad form NRC 0x13, a configuration other than 0 NRC
0x31, a chain that fails its NRC with the failure counted, the third starting 10 s; a verified chain a 32-byte challenge
from the queue, or without two words 0x78 and the challenge owed, or with the generator failed 0x22. PROOF_OF_OWNERSHIP
with the signature over the challenge: page and roles bound, no failures, event bit 2; a wrong one NRC 0x58, counted,
the third starting 10 s; with no challenge 0x24, with the page taken 0x22. DE_AUTHENTICATE: no page, no roles.
AUTHENTICATION_CONFIGURATION: its answer. AUTH_LOCKOUT_EXPIRY at its instant ends the delay; earlier nothing changes. -/
def Obligations.UdsAuthentication : Prop :=
  (∀ (s : State) (c : Fin 3) (chain : List TesterCert) (m e : Nat) (r : BitVec 5) (a b : BitVec 128) (q : List (BitVec 128)),
      udsLive s c.val = true →
      (connGet s c.val).session ≠ 1 →
      s.ks.lc ≠ .blank →
      s.diag.exceeded = false →
      s.diag.lockUntil = none →
      chain ≠ [] →
      chain.length ≤ 2 →
      chain.all certForm = true →
      (chainCheck s chain).toOption = some (m, e, r) →
      s.rng.queue = a :: b :: q →
      ∃ t, exec (.verifyCertificateUnidirectional c 0 chain) s = .next t
        ∧ (connGet t c.val).resp = [0x69, 1, 0x11, 0, 32] ++ blockBytes a ++ blockBytes b ++ [0, 0]
        ∧ (connGet t c.val).auth = some (blockBytes a ++ blockBytes b, m, e, r, !datesChecked s)
        ∧ t.rng.queue = q
        ∧ (connGet t c.val).roles = (connGet s c.val).roles)
  ∧ (∀ (s : State) (c : Fin 3) (chain : List TesterCert) (n : Nat),
      udsLive s c.val = true →
      (connGet s c.val).session ≠ 1 →
      s.ks.lc ≠ .blank →
      s.diag.exceeded = false →
      s.diag.lockUntil = none →
      chain ≠ [] →
      chain.length ≤ 2 →
      chain.all certForm = true →
      (match chainCheck s chain with | .error k => decide (k = n) | .ok _ => false) = true →
      s.diag.authFails = 2 →
      ∃ t, exec (.verifyCertificateUnidirectional c 0 chain) s = .next t
        ∧ (connGet t c.val).resp = [0x7F, 0x29, BitVec.ofNat 8 n]
        ∧ t.diag.lockUntil = some (s.elapsed + tS 10)
        ∧ t.diag.exceeded = true
        ∧ t.diag.authFails = 0
        ∧ t.diag.evt.getLsbD 3 = true)
  ∧ (∀ (s : State) (c : Fin 3) (config : Byte) (chain : List TesterCert),
      udsLive s c.val = true →
      (connGet s c.val).session = 1 →
      ∃ t, exec (.verifyCertificateUnidirectional c config chain) s = .next t
        ∧ (connGet t c.val).resp = [0x7F, 0x29, 0x7F])
  ∧ (∀ (s : State) (c : Fin 3) (sig : Bytes),
      udsLive s c.val = true →
      (connGet s c.val).session = 1 →
      ∃ t, exec (.proofOfOwnership c sig) s = .next t
        ∧ (connGet t c.val).resp = [0x7F, 0x29, 0x7F])
  ∧ (∀ (s : State) (c : Fin 3),
      udsLive s c.val = true →
      (connGet s c.val).session = 1 →
      ∃ t, exec (.deAuthenticate c) s = .next t
        ∧ (connGet t c.val).resp = [0x7F, 0x29, 0x7F])
  ∧ (∀ (s : State) (c : Fin 3),
      udsLive s c.val = true →
      (connGet s c.val).session = 1 →
      ∃ t, exec (.authenticationConfiguration c) s = .next t
        ∧ (connGet t c.val).resp = [0x7F, 0x29, 0x7F])
  ∧ (∀ (s : State) (c : Fin 3) (sig : Bytes),
      udsLive s c.val = true →
      (connGet s c.val).session ≠ 1 →
      s.ks.lc = .blank →
      ∃ t, exec (.proofOfOwnership c sig) s = .next t
        ∧ (connGet t c.val).resp = [0x7F, 0x29, 0x22])
  ∧ (∀ (s : State) (c : Fin 3) (sig : Bytes),
      udsLive s c.val = true →
      (connGet s c.val).session ≠ 1 →
      s.ks.lc ≠ .blank →
      s.diag.exceeded = true →
      ∃ t, exec (.proofOfOwnership c sig) s = .next t
        ∧ (connGet t c.val).resp = [0x7F, 0x29, 0x36]
        ∧ t.diag.exceeded = false)
  ∧ (∀ (s : State) (c : Fin 3) (sig : Bytes),
      udsLive s c.val = true →
      (connGet s c.val).session ≠ 1 →
      s.ks.lc ≠ .blank →
      s.diag.exceeded = false →
      s.diag.lockUntil.isSome = true →
      ∃ t, exec (.proofOfOwnership c sig) s = .next t
        ∧ (connGet t c.val).resp = [0x7F, 0x29, 0x37])
  ∧ (∀ (s : State) (c : Fin 3),
      udsLive s c.val = true →
      (connGet s c.val).session ≠ 1 →
      s.ks.lc = .blank →
      ∃ t, exec (.deAuthenticate c) s = .next t
        ∧ (connGet t c.val).resp = [0x7F, 0x29, 0x22])
  ∧ (∀ (s : State) (c : Fin 3),
      udsLive s c.val = true →
      (connGet s c.val).session ≠ 1 →
      s.ks.lc ≠ .blank →
      s.diag.exceeded = true →
      ∃ t, exec (.deAuthenticate c) s = .next t
        ∧ (connGet t c.val).resp = [0x7F, 0x29, 0x36]
        ∧ t.diag.exceeded = false)
  ∧ (∀ (s : State) (c : Fin 3),
      udsLive s c.val = true →
      (connGet s c.val).session ≠ 1 →
      s.ks.lc ≠ .blank →
      s.diag.exceeded = false →
      s.diag.lockUntil.isSome = true →
      ∃ t, exec (.deAuthenticate c) s = .next t
        ∧ (connGet t c.val).resp = [0x7F, 0x29, 0x37])
  ∧ (∀ (s : State) (c : Fin 3),
      udsLive s c.val = true →
      (connGet s c.val).session ≠ 1 →
      s.ks.lc = .blank →
      ∃ t, exec (.authenticationConfiguration c) s = .next t
        ∧ (connGet t c.val).resp = [0x7F, 0x29, 0x22])
  ∧ (∀ (s : State) (c : Fin 3),
      udsLive s c.val = true →
      (connGet s c.val).session ≠ 1 →
      s.ks.lc ≠ .blank →
      s.diag.exceeded = true →
      ∃ t, exec (.authenticationConfiguration c) s = .next t
        ∧ (connGet t c.val).resp = [0x7F, 0x29, 0x36]
        ∧ t.diag.exceeded = false)
  ∧ (∀ (s : State) (c : Fin 3),
      udsLive s c.val = true →
      (connGet s c.val).session ≠ 1 →
      s.ks.lc ≠ .blank →
      s.diag.exceeded = false →
      s.diag.lockUntil.isSome = true →
      ∃ t, exec (.authenticationConfiguration c) s = .next t
        ∧ (connGet t c.val).resp = [0x7F, 0x29, 0x37])
  ∧ (∀ (s : State) (c : Fin 3) (config : Byte) (chain : List TesterCert),
      udsLive s c.val = true →
      (connGet s c.val).session ≠ 1 →
      s.ks.lc ≠ .blank →
      s.diag.exceeded = false →
      s.diag.lockUntil = none →
      chain ≠ [] →
      chain.length ≤ 2 →
      chain.all certForm = true →
      config ≠ 0 →
      ∃ t, exec (.verifyCertificateUnidirectional c config chain) s = .next t
        ∧ (connGet t c.val).resp = [0x7F, 0x29, 0x31]
        ∧ t.diag.authFails = s.diag.authFails)
  ∧ (∀ (s : State) (c : Fin 3) (chain : List TesterCert) (m e : Nat) (r : BitVec 5),
      udsLive s c.val = true →
      (connGet s c.val).session ≠ 1 →
      s.ks.lc ≠ .blank →
      s.diag.exceeded = false →
      s.diag.lockUntil = none →
      chain ≠ [] →
      chain.length ≤ 2 →
      chain.all certForm = true →
      (chainCheck s chain).toOption = some (m, e, r) →
      s.rng.queue.length < 2 →
      rngFails s = true →
      ∃ t, exec (.verifyCertificateUnidirectional c 0 chain) s = .next t
        ∧ (connGet t c.val).resp = [0x7F, 0x29, 0x22]
        ∧ (connGet t c.val).auth = (connGet s c.val).auth)
  ∧ (∀ (s : State) (c : Fin 3) (chain : List TesterCert) (m e : Nat) (r : BitVec 5),
      udsLive s c.val = true →
      (connGet s c.val).session ≠ 1 →
      s.ks.lc ≠ .blank →
      s.diag.exceeded = false →
      s.diag.lockUntil = none →
      chain ≠ [] →
      chain.length ≤ 2 →
      chain.all certForm = true →
      (chainCheck s chain).toOption = some (m, e, r) →
      s.rng.queue.length < 2 →
      rngFails s = false →
      ∃ t, exec (.verifyCertificateUnidirectional c 0 chain) s = .next t
        ∧ (connGet t c.val).resp = [0x7F, 0x29, 0x78]
        ∧ (connGet t c.val).auth = some ([], m, e, r, !datesChecked s)
        ∧ t.rng = s.rng)
  ∧ (∀ (s : State) (c : Fin 3) (chain : List TesterCert) (n : Nat),
      udsLive s c.val = true →
      (connGet s c.val).session ≠ 1 →
      s.ks.lc ≠ .blank →
      s.diag.exceeded = false →
      s.diag.lockUntil = none →
      chain ≠ [] →
      chain.length ≤ 2 →
      chain.all certForm = true →
      (match chainCheck s chain with | .error k => decide (k = n) | .ok _ => false) = true →
      s.diag.authFails < 2 →
      ∃ t, exec (.verifyCertificateUnidirectional c 0 chain) s = .next t
        ∧ (connGet t c.val).resp = [0x7F, 0x29, BitVec.ofNat 8 n]
        ∧ t.diag.authFails = s.diag.authFails + 1
        ∧ t.diag.lockUntil = none
        ∧ t.diag.evt.getLsbD 3 = true)
  ∧ (∀ (s : State) (c : Fin 3) (config : Byte) (chain : List TesterCert),
      udsLive s c.val = true →
      (connGet s c.val).session ≠ 1 →
      s.ks.lc ≠ .blank →
      s.diag.exceeded = false →
      s.diag.lockUntil = none →
      chain = [] ∨ 2 < chain.length ∨ chain.all certForm = false →
      ∃ t, exec (.verifyCertificateUnidirectional c config chain) s = .next t
        ∧ (connGet t c.val).resp = [0x7F, 0x29, 0x13]
        ∧ t.diag.authFails = s.diag.authFails)
  ∧ (∀ (s : State) (c : Fin 3) (config : Byte) (chain : List TesterCert),
      udsLive s c.val = true →
      (connGet s c.val).session ≠ 1 →
      s.ks.lc ≠ .blank →
      s.diag.exceeded = true →
      ∃ t, exec (.verifyCertificateUnidirectional c config chain) s = .next t
        ∧ (connGet t c.val).resp = [0x7F, 0x29, 0x36]
        ∧ t.diag.exceeded = false)
  ∧ (∀ (s : State) (c : Fin 3) (config : Byte) (chain : List TesterCert),
      udsLive s c.val = true →
      (connGet s c.val).session ≠ 1 →
      s.ks.lc ≠ .blank →
      s.diag.exceeded = false →
      s.diag.lockUntil.isSome = true →
      ∃ t, exec (.verifyCertificateUnidirectional c config chain) s = .next t
        ∧ (connGet t c.val).resp = [0x7F, 0x29, 0x37])
  ∧ (∀ (s : State) (c : Fin 3) (config : Byte) (chain : List TesterCert),
      udsLive s c.val = true →
      (connGet s c.val).session ≠ 1 →
      s.ks.lc = .blank →
      ∃ t, exec (.verifyCertificateUnidirectional c config chain) s = .next t
        ∧ (connGet t c.val).resp = [0x7F, 0x29, 0x22])
  ∧ (∀ (s : State) (c : Fin 3) (sig : Bytes) (ch : Bytes) (m e : Nat) (r : BitVec 5) (u : Bool),
      udsLive s c.val = true →
      (connGet s c.val).session ≠ 1 →
      s.ks.lc ≠ .blank →
      s.diag.exceeded = false →
      s.diag.lockUntil = none →
      (connGet s c.val).auth = some (ch, m, e, r, u) →
      ch ≠ [] →
      (authBind s r).1 = 0 ∨ pageTaken s c.val (authBind s r).1 = false →
      pssVerify m e 64 ch sig = true →
      ∃ t, exec (.proofOfOwnership c sig) s = .next t
        ∧ (connGet t c.val).resp = [0x69, 3, 0x12, 0, 0]
        ∧ (connGet t c.val).page = (authBind s r).1
        ∧ (connGet t c.val).roles = (authBind s r).2
        ∧ (connGet t c.val).auth = none
        ∧ t.diag.authFails = 0
        ∧ t.diag.evt.getLsbD 2 = true)
  ∧ (∀ (s : State) (c : Fin 3) (sig : Bytes) (ch : Bytes) (m e : Nat) (r : BitVec 5) (u : Bool),
      udsLive s c.val = true →
      (connGet s c.val).session ≠ 1 →
      s.ks.lc ≠ .blank →
      s.diag.exceeded = false →
      s.diag.lockUntil = none →
      (connGet s c.val).auth = some (ch, m, e, r, u) →
      ch ≠ [] →
      (authBind s r).1 = 0 ∨ pageTaken s c.val (authBind s r).1 = false →
      pssVerify m e 64 ch sig = false →
      s.diag.authFails < 2 →
      ∃ t, exec (.proofOfOwnership c sig) s = .next t
        ∧ (connGet t c.val).resp = [0x7F, 0x29, 0x58]
        ∧ (connGet t c.val).auth = none
        ∧ t.diag.authFails = s.diag.authFails + 1
        ∧ (connGet t c.val).page = (connGet s c.val).page
        ∧ t.diag.lockUntil = none)
  ∧ (∀ (s : State) (c : Fin 3) (sig : Bytes) (ch : Bytes) (m e : Nat) (r : BitVec 5) (u : Bool),
      udsLive s c.val = true →
      (connGet s c.val).session ≠ 1 →
      s.ks.lc ≠ .blank →
      s.diag.exceeded = false →
      s.diag.lockUntil = none →
      (connGet s c.val).auth = some (ch, m, e, r, u) →
      ch ≠ [] →
      (authBind s r).1 = 0 ∨ pageTaken s c.val (authBind s r).1 = false →
      pssVerify m e 64 ch sig = false →
      2 ≤ s.diag.authFails →
      ∃ t, exec (.proofOfOwnership c sig) s = .next t
        ∧ (connGet t c.val).resp = [0x7F, 0x29, 0x58]
        ∧ (connGet t c.val).auth = none
        ∧ t.diag.authFails = 0
        ∧ t.diag.exceeded = true
        ∧ t.diag.lockUntil = some (s.elapsed + tS 10))
  ∧ (∀ (s : State) (c : Fin 3) (sig : Bytes) (ch : Bytes) (m e : Nat) (r : BitVec 5) (u : Bool),
      udsLive s c.val = true →
      (connGet s c.val).session ≠ 1 →
      s.ks.lc ≠ .blank →
      s.diag.exceeded = false →
      s.diag.lockUntil = none →
      (connGet s c.val).auth = some (ch, m, e, r, u) →
      ch = [] ∨ ((authBind s r).1 ≠ 0 ∧ pageTaken s c.val (authBind s r).1 = true) →
      ∃ t, exec (.proofOfOwnership c sig) s = .next t
        ∧ (connGet t c.val).resp = [0x7F, 0x29, (if ch = [] then 0x24 else 0x22)]
        ∧ (connGet t c.val).auth = (connGet s c.val).auth
        ∧ (connGet t c.val).page = (connGet s c.val).page)
  ∧ (∀ (s : State) (c : Fin 3) (sig : Bytes),
      udsLive s c.val = true →
      (connGet s c.val).session ≠ 1 →
      s.ks.lc ≠ .blank →
      s.diag.exceeded = false →
      s.diag.lockUntil = none →
      (connGet s c.val).auth = none →
      ∃ t, exec (.proofOfOwnership c sig) s = .next t
        ∧ (connGet t c.val).resp = [0x7F, 0x29, 0x24])
  ∧ (∀ (s : State) (c : Fin 3),
      udsLive s c.val = true →
      (connGet s c.val).session ≠ 1 →
      s.ks.lc ≠ .blank →
      s.diag.exceeded = false →
      s.diag.lockUntil = none →
      ∃ t, exec (.deAuthenticate c) s = .next t
        ∧ (connGet t c.val).resp = [0x69, 0, 0x10]
        ∧ (connGet t c.val).page = 0
        ∧ (connGet t c.val).roles = 0
        ∧ (connGet t c.val).auth = none)
  ∧ (∀ (s : State) (c : Fin 3),
      udsLive s c.val = true →
      (connGet s c.val).session ≠ 1 →
      s.ks.lc ≠ .blank →
      s.diag.exceeded = false →
      s.diag.lockUntil = none →
      ∃ t, exec (.authenticationConfiguration c) s = .next t
        ∧ (connGet t c.val).resp = [0x69, 8, 2])
  ∧ (∀ (s : State),
      s.diag.lockUntil.all (fun x => decide (s.elapsed < x)) = true →
      exec (.authLockoutExpiry) s = .next (settle s (s)))
  ∧ (∀ (s : State) (x : Nat),
      s.diag.lockUntil = some x →
      x ≤ s.elapsed →
      ∃ t, exec (.authLockoutExpiry) s = .next t
        ∧ t.diag.lockUntil = none
        ∧ t.diag.exceeded = false
        ∧ t.diag.authFails = s.diag.authFails)

/-- Each outside the programming session is NRC 0x7F, without the image right 0x33, flash and transfer unchanged.
REQUEST_DOWNLOAD of a sector-aligned span of flash opens the transfer; with another format or span NRC 0x31, with one
open 0x22. TRANSFER_DATA: the expected block that verifies is programmed at its place, the transfer moves on, and no
byte below it or more than a sector beyond it changes; one that does not verify NRC 0x72 and the transfer ends; a
repeated block is answered without programming; a wrong counter 0x73, a wrong length 0x13, past the end 0x71, with none
open 0x24. REQUEST_TRANSFER_EXIT after the whole size closes the transfer; early or with none open NRC 0x24. -/
def Obligations.UdsDownload : Prop :=
  (∀ (s : State) (c : Fin 3) (addr size : BitVec 32),
      udsLive s c.val = true →
      (connGet s c.val).session = 2 →
      capFull s c.val .image = true →
      addr.toNat % 4096 = 0 →
      addr.toNat + size.toNat ≤ 67108864 →
      size.toNat ≠ 0 →
      s.diag.download = none →
      ∃ t, exec (.requestDownload c 0 0x44 addr size) s = .next t
        ∧ (connGet t c.val).resp = [0x74, 0x20, 0x04, 0x02]
        ∧ t.diag.download = some (addr.toNat, size.toNat, 0, 1)
        ∧ t.flash = s.flash)
  ∧ (∀ (s : State) (c : Fin 3) (fmt al : Byte) (addr size : BitVec 32),
      udsLive s c.val = true →
      (connGet s c.val).session ≠ 2 →
      ∃ t, exec (.requestDownload c fmt al addr size) s = .next t
        ∧ (connGet t c.val).resp = [0x7F, 0x34, 0x7F]
        ∧ t.flash = s.flash
        ∧ t.diag.download = s.diag.download)
  ∧ (∀ (s : State) (c : Fin 3) (fmt al : Byte) (addr size : BitVec 32),
      udsLive s c.val = true →
      (connGet s c.val).session = 2 →
      capFull s c.val .image = false →
      ∃ t, exec (.requestDownload c fmt al addr size) s = .next t
        ∧ (connGet t c.val).resp = [0x7F, 0x34, 0x33]
        ∧ t.flash = s.flash
        ∧ t.diag.download = s.diag.download)
  ∧ (∀ (s : State) (c : Fin 3) (block : Byte) (data : Bytes) (ok : Bool),
      udsLive s c.val = true →
      (connGet s c.val).session ≠ 2 →
      ∃ t, exec (.transferData c block data ok) s = .next t
        ∧ (connGet t c.val).resp = [0x7F, 0x36, 0x7F]
        ∧ t.flash = s.flash
        ∧ t.diag.download = s.diag.download)
  ∧ (∀ (s : State) (c : Fin 3) (block : Byte) (data : Bytes) (ok : Bool),
      udsLive s c.val = true →
      (connGet s c.val).session = 2 →
      capFull s c.val .image = false →
      ∃ t, exec (.transferData c block data ok) s = .next t
        ∧ (connGet t c.val).resp = [0x7F, 0x36, 0x33]
        ∧ t.flash = s.flash
        ∧ t.diag.download = s.diag.download)
  ∧ (∀ (s : State) (c : Fin 3),
      udsLive s c.val = true →
      (connGet s c.val).session ≠ 2 →
      ∃ t, exec (.requestTransferExit c) s = .next t
        ∧ (connGet t c.val).resp = [0x7F, 0x37, 0x7F]
        ∧ t.flash = s.flash
        ∧ t.diag.download = s.diag.download)
  ∧ (∀ (s : State) (c : Fin 3),
      udsLive s c.val = true →
      (connGet s c.val).session = 2 →
      capFull s c.val .image = false →
      ∃ t, exec (.requestTransferExit c) s = .next t
        ∧ (connGet t c.val).resp = [0x7F, 0x37, 0x33]
        ∧ t.flash = s.flash
        ∧ t.diag.download = s.diag.download)
  ∧ (∀ (s : State) (c : Fin 3) (addr size : BitVec 32),
      udsLive s c.val = true →
      (connGet s c.val).session = 2 →
      capFull s c.val .image = true →
      addr.toNat % 4096 = 0 →
      addr.toNat + size.toNat ≤ 67108864 →
      size.toNat ≠ 0 →
      s.diag.download.isSome = true →
      ∃ t, exec (.requestDownload c 0 0x44 addr size) s = .next t
        ∧ (connGet t c.val).resp = [0x7F, 0x34, 0x22]
        ∧ t.diag.download = s.diag.download)
  ∧ (∀ (s : State) (c : Fin 3) (block : Byte) (data : Bytes) (v : Bool),
      udsLive s c.val = true →
      (connGet s c.val).session = 2 →
      capFull s c.val .image = true →
      s.diag.download = none →
      ∃ t, exec (.transferData c block data v) s = .next t
        ∧ (connGet t c.val).resp = [0x7F, 0x36, 0x24]
        ∧ t.flash = s.flash)
  ∧ (∀ (s : State) (c : Fin 3) (block : Byte) (data : Bytes) (v : Bool) (off size n next : Nat),
      udsLive s c.val = true →
      (connGet s c.val).session = 2 →
      capFull s c.val .image = true →
      s.diag.download = some (off, size, n, next) →
      data = [] ∨ 0x400 < data.length →
      ∃ t, exec (.transferData c block data v) s = .next t
        ∧ (connGet t c.val).resp = [0x7F, 0x36, 0x13]
        ∧ t.flash = s.flash
        ∧ t.diag.download = s.diag.download)
  ∧ (∀ (s : State) (c : Fin 3) (block : Byte) (data : Bytes) (v : Bool) (off size n next : Nat),
      udsLive s c.val = true →
      (connGet s c.val).session = 2 →
      capFull s c.val .image = true →
      s.diag.download = some (off, size, n, next) →
      data ≠ [] →
      data.length ≤ 0x400 →
      block.toNat = next →
      n = 0 ∨ next ≠ (next + 255) % 256 →
      size < n + data.length →
      ∃ t, exec (.transferData c block data v) s = .next t
        ∧ (connGet t c.val).resp = [0x7F, 0x36, 0x71]
        ∧ t.flash = s.flash)
  ∧ (∀ (s : State) (c : Fin 3),
      udsLive s c.val = true →
      (connGet s c.val).session = 2 →
      capFull s c.val .image = true →
      s.diag.download = none →
      ∃ t, exec (.requestTransferExit c) s = .next t
        ∧ (connGet t c.val).resp = [0x7F, 0x37, 0x24])
  ∧ (∀ (s : State) (c : Fin 3) (fmt al : Byte) (addr size : BitVec 32),
      udsLive s c.val = true →
      (connGet s c.val).session = 2 →
      capFull s c.val .image = true →
      fmt ≠ 0 ∨ al ≠ 0x44 ∨ addr.toNat % 4096 ≠ 0 ∨ 67108864 < addr.toNat + size.toNat ∨ size.toNat = 0 →
      ∃ t, exec (.requestDownload c fmt al addr size) s = .next t
        ∧ (connGet t c.val).resp = [0x7F, 0x34, 0x31]
        ∧ t.diag.download = s.diag.download)
  ∧ (∀ (s : State) (c : Fin 3) (block : Byte) (data : Bytes) (off size n next : Nat),
      udsLive s c.val = true →
      (connGet s c.val).session = 2 →
      capFull s c.val .image = true →
      s.diag.download = some (off, size, n, next) →
      data ≠ [] →
      data.length ≤ 0x400 →
      block.toNat = next →
      n + data.length ≤ size →
      n = 0 ∨ next ≠ (next + 255) % 256 →
      ∃ t, exec (.transferData c block data true) s = .next t
        ∧ (connGet t c.val).resp = [0x76, block]
        ∧ t.diag.download = some (off, size, n + data.length, (next + 1) % 256)
        ∧ flashRead t (off + n) data.length = data
        ∧ (∀ a, a < off + n ∨ off + n + data.length + 4096 ≤ a → memGet 0xFF t.flash a = memGet 0xFF s.flash a))
  ∧ (∀ (s : State) (c : Fin 3) (block : Byte) (data : Bytes) (off size n next : Nat),
      udsLive s c.val = true →
      (connGet s c.val).session = 2 →
      capFull s c.val .image = true →
      s.diag.download = some (off, size, n, next) →
      data ≠ [] →
      data.length ≤ 0x400 →
      block.toNat = next →
      n + data.length ≤ size →
      n = 0 ∨ next ≠ (next + 255) % 256 →
      ∃ t, exec (.transferData c block data false) s = .next t
        ∧ (connGet t c.val).resp = [0x7F, 0x36, 0x72]
        ∧ t.diag.download = none)
  ∧ (∀ (s : State) (c : Fin 3) (block : Byte) (data : Bytes) (v : Bool) (off size n next : Nat),
      udsLive s c.val = true →
      (connGet s c.val).session = 2 →
      capFull s c.val .image = true →
      s.diag.download = some (off, size, n, next) →
      data ≠ [] →
      data.length ≤ 0x400 →
      0 < n →
      block.toNat = (next + 255) % 256 →
      ∃ t, exec (.transferData c block data v) s = .next t
        ∧ (connGet t c.val).resp = [0x76, block]
        ∧ t.diag.download = s.diag.download
        ∧ t.flash = s.flash)
  ∧ (∀ (s : State) (c : Fin 3) (block : Byte) (data : Bytes) (v : Bool) (off size n next : Nat),
      udsLive s c.val = true →
      (connGet s c.val).session = 2 →
      capFull s c.val .image = true →
      s.diag.download = some (off, size, n, next) →
      data ≠ [] →
      data.length ≤ 0x400 →
      n = 0 ∨ block.toNat ≠ (next + 255) % 256 →
      block.toNat ≠ next →
      ∃ t, exec (.transferData c block data v) s = .next t
        ∧ (connGet t c.val).resp = [0x7F, 0x36, 0x73]
        ∧ t.flash = s.flash)
  ∧ (∀ (s : State) (c : Fin 3) (off size n next : Nat),
      udsLive s c.val = true →
      (connGet s c.val).session = 2 →
      capFull s c.val .image = true →
      s.diag.download = some (off, size, n, next) →
      size ≤ n →
      ∃ t, exec (.requestTransferExit c) s = .next t
        ∧ (connGet t c.val).resp = [0x77]
        ∧ t.diag.download = none
        ∧ t.flash = s.flash)
  ∧ (∀ (s : State) (c : Fin 3) (off size n next : Nat),
      udsLive s c.val = true →
      (connGet s c.val).session = 2 →
      capFull s c.val .image = true →
      s.diag.download = some (off, size, n, next) →
      n < size →
      ∃ t, exec (.requestTransferExit c) s = .next t
        ∧ (connGet t c.val).resp = [0x7F, 0x37, 0x24]
        ∧ t.diag.download = s.diag.download)

/-- A start that R588 to R593 refuse, of a wrong length (NRC 0x13) or beside a running routine (0x22) starts nothing; one
whose capability no role has ends LOCKED. Otherwise it is answered as started. VERIFY_IMAGE ends OK with verdict,
IMAGE_ID and SEC_VERSION, nothing applied. LEARN_KEY before the measurement, or while a sequence or round is open,
waits; then it ends LOCKED, NOT_READY or BAD_ENTRY by R404 and the record's ranges, or opens its round with QUERY and no
session. CRED_STATE and WRITE_PROFILE before the measurement wait; then LOCKED, BAD_ENTRY, or OK with the record in
effect (a deleted or suspended credential's session withdrawn), or LOW_ENERGY or ECC_ERROR with nothing changed. Tag
routines wait while a sequence or round is open, end NOT_READY without a coil or at T_OFF, LOCKED (write, lock) by R404,
for page 1 OK with TC_ACCESS, for a page out of range BAD_ENTRY, or open their round. ROUTINE_RESULTS: status and result
of an ended routine, "running" of a running one, NRC 0x24 of none, the refusal of R593. -/
def Obligations.WorkshopRoutines : Prop :=
  (∀ (s : State) (c : Fin 3) (a : Bool),
      udsLive s c.val = true →
      rtRefused s c.val 61696 = none →
      rtRunning s = false →
      ∃ t, exec (.verifyImage c a) s = .next t
        ∧ (connGet t c.val).resp = [0x71, 1, 0xF1, 0x00, 1]
        ∧ t.diag.routine.map (fun r => (r.rid, r.running, r.status, r.result)) = some (0xF100, false, .ok, leBytes 1 (verdict a [] (headGood s) s) ++ imId (imHead s) ++ leBytes 2 (imSec (imHead s)))
        ∧ t.boot = s.boot
        ∧ t.set = s.set)
  ∧ (∀ (s : State) (c : Fin 3) (rc key : Bytes) (lock : Byte),
      udsLive s c.val = true →
      rtRefused s c.val 61712 = none →
      rtRunning s = false →
      rc.length = 32 →
      key.length = 16 →
      capDash s .keys = false →
      roundFree s = true →
      s.sup.measured = true →
      learnLocked s = true →
      ∃ t, exec (.learnKey c rc key lock) s = .next t
        ∧ (connGet t c.val).resp = [0x71, 1, 0xF1, 0x10, 1]
        ∧ t.diag.routine.map (fun r => (r.rid, r.running, r.status, r.result)) = some (0xF110, false, .locked, [])
        ∧ t.acc.creds = s.acc.creds
        ∧ t.tt = s.tt)
  ∧ (∀ (s : State) (c : Fin 3) (rc key : Bytes) (lock : Byte),
      udsLive s c.val = true →
      rtRefused s c.val 61712 = none →
      rtRunning s = false →
      rc.length = 32 →
      key.length = 16 →
      capDash s .keys = false →
      roundFree s = false →
      ∃ t, exec (.learnKey c rc key lock) s = .next t
        ∧ (connGet t c.val).resp = [0x71, 1, 0xF1, 0x10, 1]
        ∧ t.diag.routine.map (fun r => (r.rid, r.conn, r.running, r.step)) = some (0xF110, c.val, true, 0)
        ∧ t.acc = s.acc)
  ∧ (∀ (s : State) (c : Fin 3) (rc key : Bytes) (lock : Byte) (i : Nat),
      udsLive s c.val = true →
      rtRefused s c.val 61712 = none →
      rtRunning s = false →
      rc.length = 32 →
      key.length = 16 →
      capDash s .keys = false →
      credRecordOk rc = true →
      s.sup.measured = true →
      freeIndex s 0 = some i →
      learnLocked s = false →
      roundFree s = true →
      s.sup.thermOff = false →
      coilOk s = true →
      ∃ t, exec (.learnKey c rc key lock) s = .next t
        ∧ (connGet t c.val).resp = [0x71, 1, 0xF1, 0x10, 1]
        ∧ t.diag.routine.map (fun r => (r.rid, r.conn, r.running, r.step)) = some (0xF110, c.val, true, 1)
        ∧ t.acc.sessOpen = false
        ∧ (ttGet t i).map (fun e => (e.kind, e.block)) = some (1, frQuery s.acc.profile 1)
        ∧ t.acc.round.map (fun r => (r.use, r.at_)) = some (.learn, .slot))
  ∧ (∀ (s : State) (c : Fin 3) (rc key : Bytes) (lock : Byte),
      udsLive s c.val = true →
      rtRefused s c.val 61712 = none →
      rtRunning s = false →
      rc.length = 32 →
      key.length = 16 →
      capDash s .keys = false →
      s.sup.measured = false →
      ∃ t, exec (.learnKey c rc key lock) s = .next t
        ∧ (connGet t c.val).resp = [0x71, 1, 0xF1, 0x10, 1]
        ∧ t.diag.routine.map (fun r => (r.rid, r.conn, r.running, r.step)) = some (0xF110, c.val, true, 0)
        ∧ t.acc = s.acc
        ∧ t.tt = s.tt)
  ∧ (∀ (s : State) (c : Fin 3) (rc key : Bytes) (lock : Byte),
      udsLive s c.val = true →
      rtRefused s c.val 61712 = none →
      rtRunning s = false →
      rc.length = 32 →
      key.length = 16 →
      capDash s .keys = false →
      roundFree s = true →
      s.sup.measured = true →
      learnLocked s = false →
      s.sup.thermOff = true ∨ coilOk s = false →
      ∃ t, exec (.learnKey c rc key lock) s = .next t
        ∧ (connGet t c.val).resp = [0x71, 1, 0xF1, 0x10, 1]
        ∧ t.diag.routine.map (fun r => (r.rid, r.running, r.status, r.result)) = some (0xF110, false, .notReady, [])
        ∧ t.acc.creds = s.acc.creds
        ∧ t.tt = s.tt)
  ∧ (∀ (s : State) (c : Fin 3) (rc key : Bytes) (lock : Byte),
      udsLive s c.val = true →
      rtRefused s c.val 61712 = none →
      rtRunning s = false →
      rc.length = 32 →
      key.length = 16 →
      capDash s .keys = false →
      credRecordOk rc = false →
      s.sup.measured = true →
      learnLocked s = false →
      roundFree s = true →
      s.sup.thermOff = false →
      coilOk s = true →
      ∃ t, exec (.learnKey c rc key lock) s = .next t
        ∧ (connGet t c.val).resp = [0x71, 1, 0xF1, 0x10, 1]
        ∧ t.diag.routine.map (fun r => (r.rid, r.running, r.status, r.result)) = some (0xF110, false, .badEntry, [])
        ∧ t.acc.creds = s.acc.creds
        ∧ t.tt = s.tt)
  ∧ (∀ (s : State) (c : Fin 3) (i : Fin 256) (st : Byte),
      udsLive s c.val = true →
      rtRefused s c.val 61713 = none →
      rtRunning s = false →
      capDash s .keys = false →
      s.sup.measured = false →
      ∃ t, exec (.credState c i st) s = .next t
        ∧ (connGet t c.val).resp = [0x71, 1, 0xF1, 0x11, 1]
        ∧ t.diag.routine.map (fun r => (r.rid, r.conn, r.running, r.step)) = some (0xF111, c.val, true, 0)
        ∧ t.acc = s.acc
        ∧ t.nvm = s.nvm)
  ∧ (∀ (s : State) (c : Fin 3) (i : Fin 256) (st : Byte),
      udsLive s c.val = true →
      rtRefused s c.val 61713 = none →
      rtRunning s = false →
      capDash s .keys = false →
      s.sup.measured = true →
      learnLocked s = true →
      ∃ t, exec (.credState c i st) s = .next t
        ∧ (connGet t c.val).resp = [0x71, 1, 0xF1, 0x11, 1]
        ∧ t.diag.routine.map (fun r => (r.rid, r.running, r.status, r.result)) = some (0xF111, false, .locked, [])
        ∧ t.acc.creds = s.acc.creds)
  ∧ (∀ (s : State) (c : Fin 3) (i : Fin 256) (st : Byte),
      udsLive s c.val = true →
      rtRefused s c.val 61713 = none →
      rtRunning s = false →
      capDash s .keys = false →
      s.sup.measured = true →
      learnLocked s = false →
      2 < st.toNat →
      ∃ t, exec (.credState c i st) s = .next t
        ∧ (connGet t c.val).resp = [0x71, 1, 0xF1, 0x11, 1]
        ∧ t.diag.routine.map (fun r => (r.rid, r.running, r.status, r.result)) = some (0xF111, false, .badEntry, [])
        ∧ t.acc = s.acc)
  ∧ (∀ (s : State) (c : Fin 3) (i : Fin 256) (st : Byte),
      udsLive s c.val = true →
      rtRefused s c.val 61713 = none →
      rtRunning s = false →
      capDash s .keys = false →
      s.sup.measured = true →
      learnLocked s = false →
      st.toNat ≤ 2 →
      ∃ t, exec (.credState c i st) s = .next t
        ∧ (connGet t c.val).resp = [0x71, 1, 0xF1, 0x11, 1]
        ∧ ((t.diag.routine.map (·.status) = some .ok ∧ credGet t i.val = { credGet s i.val with st := st.toNat } ∧ (st.toNat ≠ 1 → s.acc.sessOpen = true → s.acc.grantCred = i.val → t.acc.sessOpen = false) ∧ (∀ j < 256, j ≠ i.val → credGet t j = credGet s j)) ∨ ((t.diag.routine.map (·.status) = some .lowEnergy ∨ t.diag.routine.map (·.status) = some .eccError) ∧ t.acc = s.acc)))
  ∧ (∀ (s : State) (c : Fin 3) (p : Bytes),
      udsLive s c.val = true →
      rtRefused s c.val 61714 = none →
      rtRunning s = false →
      p.length = 104 →
      capDash s .keys = false →
      s.sup.measured = false →
      ∃ t, exec (.writeProfile c p) s = .next t
        ∧ (connGet t c.val).resp = [0x71, 1, 0xF1, 0x12, 1]
        ∧ t.diag.routine.map (fun r => (r.rid, r.conn, r.running, r.step)) = some (0xF112, c.val, true, 0)
        ∧ t.acc = s.acc
        ∧ t.nvm = s.nvm)
  ∧ (∀ (s : State) (c : Fin 3) (p : Bytes),
      udsLive s c.val = true →
      rtRefused s c.val 61714 = none →
      rtRunning s = false →
      p.length = 104 →
      capDash s .keys = false →
      s.sup.measured = true →
      learnLocked s = true →
      ∃ t, exec (.writeProfile c p) s = .next t
        ∧ (connGet t c.val).resp = [0x71, 1, 0xF1, 0x12, 1]
        ∧ t.diag.routine.map (fun r => (r.rid, r.running, r.status, r.result)) = some (0xF112, false, .locked, [])
        ∧ t.acc = s.acc
        ∧ t.nvm = s.nvm)
  ∧ (∀ (s : State) (c : Fin 3) (p : Bytes),
      udsLive s c.val = true →
      rtRefused s c.val 61714 = none →
      rtRunning s = false →
      p.length = 104 →
      capDash s .keys = false →
      s.sup.measured = true →
      learnLocked s = false →
      profileRecordOk s p = false →
      ∃ t, exec (.writeProfile c p) s = .next t
        ∧ (connGet t c.val).resp = [0x71, 1, 0xF1, 0x12, 1]
        ∧ t.diag.routine.map (fun r => (r.rid, r.running, r.status, r.result)) = some (0xF112, false, .badEntry, [])
        ∧ t.acc = s.acc
        ∧ t.nvm = s.nvm)
  ∧ (∀ (s : State) (c : Fin 3) (p : Bytes),
      udsLive s c.val = true →
      rtRefused s c.val 61714 = none →
      rtRunning s = false →
      capDash s .keys = false →
      s.sup.measured = true →
      learnLocked s = false →
      profileRecordOk s p = true →
      ∃ t, exec (.writeProfile c p) s = .next t
        ∧ (connGet t c.val).resp = [0x71, 1, 0xF1, 0x12, 1]
        ∧ ((t.diag.routine.map (·.status) = some .ok ∧ t.acc = { s.acc with profile := p }) ∨ ((t.diag.routine.map (·.status) = some .lowEnergy ∨ t.diag.routine.map (·.status) = some .eccError) ∧ t.acc = s.acc)))
  ∧ (∀ (s : State) (c : Fin 3) (i : Nat),
      udsLive s c.val = true →
      rtRefused s c.val 61792 = none →
      rtRunning s = false →
      capDash s .keys = false →
      roundFree s = true →
      s.sup.thermOff = false →
      coilOk s = true →
      freeIndex s 0 = some i →
      ∃ t, exec (.tagInventory c) s = .next t
        ∧ (connGet t c.val).resp = [0x71, 1, 0xF1, 0x60, 1]
        ∧ t.diag.routine.map (fun r => (r.rid, r.conn, r.running, r.step)) = some (0xF160, c.val, true, 1)
        ∧ (ttGet t i).map (fun e => (e.kind, e.block)) = some (1, frQuery s.acc.profile 1)
        ∧ t.acc.round.map (fun r => (r.use, r.at_)) = some (.inventory, .slot))
  ∧ (∀ (s : State) (c : Fin 3),
      udsLive s c.val = true →
      rtRefused s c.val 61792 = none →
      rtRunning s = false →
      capDash s .keys = false →
      roundFree s = true →
      coilOk s = false ∨ s.sup.thermOff = true →
      ∃ t, exec (.tagInventory c) s = .next t
        ∧ (connGet t c.val).resp = [0x71, 1, 0xF1, 0x60, 1]
        ∧ t.diag.routine.map (fun r => (r.rid, r.running, r.status, r.result)) = some (0xF160, false, .notReady, [])
        ∧ t.acc = s.acc)
  ∧ (∀ (s : State) (c : Fin 3),
      udsLive s c.val = true →
      rtRefused s c.val 61792 = none →
      rtRunning s = false →
      capDash s .keys = false →
      roundFree s = false →
      ∃ t, exec (.tagInventory c) s = .next t
        ∧ (connGet t c.val).resp = [0x71, 1, 0xF1, 0x60, 1]
        ∧ t.diag.routine.map (fun r => (r.rid, r.conn, r.running, r.step)) = some (0xF160, c.val, true, 0)
        ∧ t.acc = s.acc)
  ∧ (∀ (s : State) (c : Fin 3) (id : BitVec 64) (page : Byte),
      udsLive s c.val = true →
      rtRefused s c.val 61793 = none →
      rtRunning s = false →
      capDash s .keys = false →
      page ≠ 1 →
      roundFree s = false →
      ∃ t, exec (.tagRead c id page) s = .next t
        ∧ (connGet t c.val).resp = [0x71, 1, 0xF1, 0x61, 1]
        ∧ t.diag.routine.map (fun r => (r.rid, r.conn, r.running, r.step)) = some (0xF161, c.val, true, 0)
        ∧ t.acc = s.acc)
  ∧ (∀ (s : State) (c : Fin 3) (id : BitVec 64) (page : Byte) (d : Bytes),
      udsLive s c.val = true →
      rtRefused s c.val 61794 = none →
      rtRunning s = false →
      capDash s .keys = false →
      d.length = 16 →
      learnLocked s = false →
      2 ≤ page.toNat →
      page.toNat ≤ 31 →
      roundFree s = false →
      ∃ t, exec (.tagWrite c id page d) s = .next t
        ∧ (connGet t c.val).resp = [0x71, 1, 0xF1, 0x62, 1]
        ∧ t.diag.routine.map (fun r => (r.rid, r.conn, r.running, r.step)) = some (0xF162, c.val, true, 0)
        ∧ t.acc = s.acc)
  ∧ (∀ (s : State) (c : Fin 3) (id : BitVec 64) (page : Byte),
      udsLive s c.val = true →
      rtRefused s c.val 61793 = none →
      rtRunning s = false →
      capDash s .keys = false →
      page ≠ 1 →
      roundFree s = true →
      coilOk s = false ∨ s.sup.thermOff = true →
      ∃ t, exec (.tagRead c id page) s = .next t
        ∧ (connGet t c.val).resp = [0x71, 1, 0xF1, 0x61, 1]
        ∧ t.diag.routine.map (fun r => (r.rid, r.running, r.status, r.result)) = some (0xF161, false, .notReady, [])
        ∧ t.acc = s.acc)
  ∧ (∀ (s : State) (c : Fin 3) (id : BitVec 64) (page : Byte) (d : Bytes),
      udsLive s c.val = true →
      rtRefused s c.val 61794 = none →
      rtRunning s = false →
      capDash s .keys = false →
      d.length = 16 →
      learnLocked s = false →
      2 ≤ page.toNat →
      page.toNat ≤ 31 →
      roundFree s = true →
      coilOk s = false ∨ s.sup.thermOff = true →
      ∃ t, exec (.tagWrite c id page d) s = .next t
        ∧ (connGet t c.val).resp = [0x71, 1, 0xF1, 0x62, 1]
        ∧ t.diag.routine.map (fun r => (r.rid, r.running, r.status, r.result)) = some (0xF162, false, .notReady, [])
        ∧ t.acc = s.acc)
  ∧ (∀ (s : State) (c : Fin 3) (id : BitVec 64) (page : Byte),
      udsLive s c.val = true →
      rtRefused s c.val 61795 = none →
      rtRunning s = false →
      capDash s .keys = false →
      learnLocked s = false →
      roundFree s = true →
      coilOk s = false ∨ s.sup.thermOff = true →
      ∃ t, exec (.tagLock c id page) s = .next t
        ∧ (connGet t c.val).resp = [0x71, 1, 0xF1, 0x63, 1]
        ∧ t.diag.routine.map (fun r => (r.rid, r.running, r.status, r.result)) = some (0xF163, false, .notReady, [])
        ∧ t.acc = s.acc)
  ∧ (∀ (s : State) (c : Fin 3) (id : BitVec 64) (page : Byte) (i : Nat),
      udsLive s c.val = true →
      rtRefused s c.val 61793 = none →
      rtRunning s = false →
      capDash s .keys = false →
      page ≠ 1 →
      roundFree s = true →
      s.sup.thermOff = false →
      coilOk s = true →
      freeIndex s 0 = some i →
      ∃ t, exec (.tagRead c id page) s = .next t
        ∧ (connGet t c.val).resp = [0x71, 1, 0xF1, 0x61, 1]
        ∧ t.diag.routine.map (fun r => (r.rid, r.conn, r.running, r.step)) = some (0xF161, c.val, true, 1)
        ∧ (ttGet t i).map (fun e => (e.kind, e.block)) = some (1, frQuery s.acc.profile 1)
        ∧ t.acc.round.map (fun r => (r.use, r.at_)) = some (.tagRead, .slot))
  ∧ (∀ (s : State) (c : Fin 3) (id : BitVec 64),
      udsLive s c.val = true →
      rtRefused s c.val 61793 = none →
      rtRunning s = false →
      capDash s .keys = false →
      ∃ t, exec (.tagRead c id 1) s = .next t
        ∧ (connGet t c.val).resp = [0x71, 1, 0xF1, 0x61, 1]
        ∧ t.diag.routine.map (fun r => (r.rid, r.running, r.status, r.result)) = some (0xF161, false, .ok, [1])
        ∧ t.acc = s.acc)
  ∧ (∀ (s : State) (c : Fin 3) (id : BitVec 64) (page : Byte) (d : Bytes) (i : Nat),
      udsLive s c.val = true →
      rtRefused s c.val 61794 = none →
      rtRunning s = false →
      capDash s .keys = false →
      d.length = 16 →
      2 ≤ page.toNat →
      page.toNat ≤ 31 →
      freeIndex s 0 = some i →
      learnLocked s = false →
      roundFree s = true →
      s.sup.thermOff = false →
      coilOk s = true →
      ∃ t, exec (.tagWrite c id page d) s = .next t
        ∧ (connGet t c.val).resp = [0x71, 1, 0xF1, 0x62, 1]
        ∧ t.diag.routine.map (fun r => (r.rid, r.conn, r.running, r.step)) = some (0xF162, c.val, true, 1)
        ∧ (ttGet t i).map (fun e => (e.kind, e.block)) = some (1, frQuery s.acc.profile 1)
        ∧ t.acc.round.map (fun r => (r.use, r.at_)) = some (.tagWrite, .slot))
  ∧ (∀ (s : State) (c : Fin 3) (id : BitVec 64) (page : Byte) (d : Bytes),
      udsLive s c.val = true →
      rtRefused s c.val 61794 = none →
      rtRunning s = false →
      capDash s .keys = false →
      d.length = 16 →
      learnLocked s = true →
      ∃ t, exec (.tagWrite c id page d) s = .next t
        ∧ (connGet t c.val).resp = [0x71, 1, 0xF1, 0x62, 1]
        ∧ t.diag.routine.map (fun r => (r.rid, r.running, r.status, r.result)) = some (0xF162, false, .locked, [])
        ∧ t.acc = s.acc)
  ∧ (∀ (s : State) (c : Fin 3) (id : BitVec 64) (page : Byte) (d : Bytes),
      udsLive s c.val = true →
      rtRefused s c.val 61794 = none →
      rtRunning s = false →
      capDash s .keys = false →
      d.length = 16 →
      learnLocked s = false →
      page = 1 →
      ∃ t, exec (.tagWrite c id page d) s = .next t
        ∧ (connGet t c.val).resp = [0x71, 1, 0xF1, 0x62, 1]
        ∧ t.diag.routine.map (fun r => (r.rid, r.running, r.status, r.result)) = some (0xF162, false, .ok, [1])
        ∧ t.acc = s.acc)
  ∧ (∀ (s : State) (c : Fin 3) (id : BitVec 64) (page : Byte) (d : Bytes),
      udsLive s c.val = true →
      rtRefused s c.val 61794 = none →
      rtRunning s = false →
      capDash s .keys = false →
      d.length = 16 →
      learnLocked s = false →
      page = 0 ∨ 31 < page.toNat →
      ∃ t, exec (.tagWrite c id page d) s = .next t
        ∧ (connGet t c.val).resp = [0x71, 1, 0xF1, 0x62, 1]
        ∧ t.diag.routine.map (fun r => (r.rid, r.running, r.status, r.result)) = some (0xF162, false, .badEntry, [])
        ∧ t.acc = s.acc)
  ∧ (∀ (s : State) (c : Fin 3) (id : BitVec 64) (page : Byte),
      udsLive s c.val = true →
      rtRefused s c.val 61795 = none →
      rtRunning s = false →
      capDash s .keys = false →
      learnLocked s = true →
      ∃ t, exec (.tagLock c id page) s = .next t
        ∧ (connGet t c.val).resp = [0x71, 1, 0xF1, 0x63, 1]
        ∧ t.diag.routine.map (fun r => (r.rid, r.running, r.status, r.result)) = some (0xF163, false, .locked, [])
        ∧ t.acc = s.acc)
  ∧ (∀ (s : State) (c : Fin 3) (id : BitVec 64) (page : Byte) (i : Nat),
      udsLive s c.val = true →
      rtRefused s c.val 61795 = none →
      rtRunning s = false →
      capDash s .keys = false →
      freeIndex s 0 = some i →
      learnLocked s = false →
      roundFree s = true →
      s.sup.thermOff = false →
      coilOk s = true →
      ∃ t, exec (.tagLock c id page) s = .next t
        ∧ (connGet t c.val).resp = [0x71, 1, 0xF1, 0x63, 1]
        ∧ t.diag.routine.map (fun r => (r.rid, r.conn, r.running, r.step)) = some (0xF163, c.val, true, 1)
        ∧ (ttGet t i).map (fun e => (e.kind, e.block)) = some (1, frQuery s.acc.profile 1)
        ∧ t.acc.round.map (fun r => (r.use, r.at_)) = some (.tagLock, .slot))
  ∧ (∀ (s : State) (c : Fin 3) (id : BitVec 64) (page : Byte),
      udsLive s c.val = true →
      rtRefused s c.val 61795 = none →
      rtRunning s = false →
      capDash s .keys = false →
      roundFree s = false →
      learnLocked s = false →
      ∃ t, exec (.tagLock c id page) s = .next t
        ∧ (connGet t c.val).resp = [0x71, 1, 0xF1, 0x63, 1]
        ∧ t.diag.routine.map (fun r => (r.rid, r.conn, r.running, r.step)) = some (0xF163, c.val, true, 0)
        ∧ t.acc = s.acc)
  ∧ (∀ (s : State) (c : Fin 3) (rid : BitVec 16) (r : Routine),
      udsLive s c.val = true →
      rtRefused s c.val rid.toNat = none →
      s.diag.routine = some r →
      r.rid = rid.toNat →
      r.running = false →
      ∃ t, exec (.routineResults c rid) s = .next t
        ∧ (connGet t c.val).resp = [0x71, 3] ++ beBytes 2 rid.toNat ++ [1, BitVec.ofNat 8 r.status.code] ++ r.result
        ∧ t.diag.routine = s.diag.routine)
  ∧ (∀ (s : State) (c : Fin 3) (rid : BitVec 16),
      udsLive s c.val = true →
      rtRefused s c.val rid.toNat = none →
      (∀ r, s.diag.routine = some r → r.rid ≠ rid.toNat) →
      ∃ t, exec (.routineResults c rid) s = .next t
        ∧ (connGet t c.val).resp = [0x7F, 0x31, 0x24])
  ∧ (∀ (s : State) (c : Fin 3) (rid : BitVec 16) (r : Routine),
      udsLive s c.val = true →
      rtRefused s c.val rid.toNat = none →
      s.diag.routine = some r →
      r.rid = rid.toNat →
      r.running = true →
      ∃ t, exec (.routineResults c rid) s = .next t
        ∧ (connGet t c.val).resp = [0x71, 3] ++ beBytes 2 rid.toNat ++ [0]
        ∧ t.diag.routine = s.diag.routine)
  ∧ (∀ (s : State) (c : Fin 3) (rid : BitVec 16) (n : Nat),
      udsLive s c.val = true →
      rtRefused s c.val rid.toNat = some n →
      ∃ t, exec (.routineResults c rid) s = .next t
        ∧ (connGet t c.val).resp = [0x7F, 0x31, BitVec.ofNat 8 n]
        ∧ t.diag.routine = s.diag.routine)
  ∧ (∀ (s : State) (c : Fin 3) (a : Bool) (nrc : Nat),
      udsLive s c.val = true →
      rtRefused s c.val 61696 = some nrc ∨ (rtRefused s c.val 61696 = none ∧ rtRunning s = true ∧ nrc = 0x22) →
      ∃ t, exec (.verifyImage c a) s = .next t
        ∧ (connGet t c.val).resp = [0x7F, 0x31, BitVec.ofNat 8 nrc]
        ∧ t.diag.routine = s.diag.routine
        ∧ t.tt = s.tt
        ∧ t.acc = s.acc
        ∧ t.ks = s.ks)
  ∧ (∀ (s : State) (c : Fin 3) (rc key : Bytes) (lock : Byte) (nrc : Nat),
      udsLive s c.val = true →
      rtRefused s c.val 61712 = some nrc ∨ (rtRefused s c.val 61712 = none ∧ ¬(rc.length = 32 ∧ key.length = 16) ∧ nrc = 0x13) ∨ (rtRefused s c.val 61712 = none ∧ (rc.length = 32 ∧ key.length = 16) ∧ rtRunning s = true ∧ nrc = 0x22) →
      ∃ t, exec (.learnKey c rc key lock) s = .next t
        ∧ (connGet t c.val).resp = [0x7F, 0x31, BitVec.ofNat 8 nrc]
        ∧ t.diag.routine = s.diag.routine
        ∧ t.tt = s.tt
        ∧ t.acc = s.acc
        ∧ t.ks = s.ks)
  ∧ (∀ (s : State) (c : Fin 3) (rc key : Bytes) (lock : Byte),
      udsLive s c.val = true →
      rtRefused s c.val 61712 = none →
      rtRunning s = false →
      rc.length = 32 →
      key.length = 16 →
      capDash s .keys = true →
      ∃ t, exec (.learnKey c rc key lock) s = .next t
        ∧ (connGet t c.val).resp = [0x71, 1, 0xF1, 0x10, 1]
        ∧ t.diag.routine.map (fun r => (r.rid, r.running, r.status, r.result)) = some (0xF110, false, .locked, [])
        ∧ t.acc = s.acc
        ∧ t.ks = s.ks
        ∧ t.tmp = s.tmp)
  ∧ (∀ (s : State) (c : Fin 3) (i : Fin 256) (st : Byte) (nrc : Nat),
      udsLive s c.val = true →
      rtRefused s c.val 61713 = some nrc ∨ (rtRefused s c.val 61713 = none ∧ rtRunning s = true ∧ nrc = 0x22) →
      ∃ t, exec (.credState c i st) s = .next t
        ∧ (connGet t c.val).resp = [0x7F, 0x31, BitVec.ofNat 8 nrc]
        ∧ t.diag.routine = s.diag.routine
        ∧ t.tt = s.tt
        ∧ t.acc = s.acc
        ∧ t.ks = s.ks)
  ∧ (∀ (s : State) (c : Fin 3) (i : Fin 256) (st : Byte),
      udsLive s c.val = true →
      rtRefused s c.val 61713 = none →
      rtRunning s = false →
      capDash s .keys = true →
      ∃ t, exec (.credState c i st) s = .next t
        ∧ (connGet t c.val).resp = [0x71, 1, 0xF1, 0x11, 1]
        ∧ t.diag.routine.map (fun r => (r.rid, r.running, r.status, r.result)) = some (0xF111, false, .locked, [])
        ∧ t.acc = s.acc
        ∧ t.ks = s.ks
        ∧ t.tmp = s.tmp)
  ∧ (∀ (s : State) (c : Fin 3) (p : Bytes) (nrc : Nat),
      udsLive s c.val = true →
      rtRefused s c.val 61714 = some nrc ∨ (rtRefused s c.val 61714 = none ∧ ¬(p.length = 104) ∧ nrc = 0x13) ∨ (rtRefused s c.val 61714 = none ∧ (p.length = 104) ∧ rtRunning s = true ∧ nrc = 0x22) →
      ∃ t, exec (.writeProfile c p) s = .next t
        ∧ (connGet t c.val).resp = [0x7F, 0x31, BitVec.ofNat 8 nrc]
        ∧ t.diag.routine = s.diag.routine
        ∧ t.tt = s.tt
        ∧ t.acc = s.acc
        ∧ t.ks = s.ks)
  ∧ (∀ (s : State) (c : Fin 3) (p : Bytes),
      udsLive s c.val = true →
      rtRefused s c.val 61714 = none →
      rtRunning s = false →
      p.length = 104 →
      capDash s .keys = true →
      ∃ t, exec (.writeProfile c p) s = .next t
        ∧ (connGet t c.val).resp = [0x71, 1, 0xF1, 0x12, 1]
        ∧ t.diag.routine.map (fun r => (r.rid, r.running, r.status, r.result)) = some (0xF112, false, .locked, [])
        ∧ t.acc = s.acc
        ∧ t.ks = s.ks
        ∧ t.tmp = s.tmp)
  ∧ (∀ (s : State) (c : Fin 3) (nrc : Nat),
      udsLive s c.val = true →
      rtRefused s c.val 61792 = some nrc ∨ (rtRefused s c.val 61792 = none ∧ rtRunning s = true ∧ nrc = 0x22) →
      ∃ t, exec (.tagInventory c) s = .next t
        ∧ (connGet t c.val).resp = [0x7F, 0x31, BitVec.ofNat 8 nrc]
        ∧ t.diag.routine = s.diag.routine
        ∧ t.tt = s.tt
        ∧ t.acc = s.acc
        ∧ t.ks = s.ks)
  ∧ (∀ (s : State) (c : Fin 3),
      udsLive s c.val = true →
      rtRefused s c.val 61792 = none →
      rtRunning s = false →
      capDash s .keys = true →
      ∃ t, exec (.tagInventory c) s = .next t
        ∧ (connGet t c.val).resp = [0x71, 1, 0xF1, 0x60, 1]
        ∧ t.diag.routine.map (fun r => (r.rid, r.running, r.status, r.result)) = some (0xF160, false, .locked, [])
        ∧ t.acc = s.acc
        ∧ t.ks = s.ks
        ∧ t.tmp = s.tmp)
  ∧ (∀ (s : State) (c : Fin 3) (id : BitVec 64) (page : Byte) (nrc : Nat),
      udsLive s c.val = true →
      rtRefused s c.val 61793 = some nrc ∨ (rtRefused s c.val 61793 = none ∧ rtRunning s = true ∧ nrc = 0x22) →
      ∃ t, exec (.tagRead c id page) s = .next t
        ∧ (connGet t c.val).resp = [0x7F, 0x31, BitVec.ofNat 8 nrc]
        ∧ t.diag.routine = s.diag.routine
        ∧ t.tt = s.tt
        ∧ t.acc = s.acc
        ∧ t.ks = s.ks)
  ∧ (∀ (s : State) (c : Fin 3) (id : BitVec 64) (page : Byte),
      udsLive s c.val = true →
      rtRefused s c.val 61793 = none →
      rtRunning s = false →
      capDash s .keys = true →
      ∃ t, exec (.tagRead c id page) s = .next t
        ∧ (connGet t c.val).resp = [0x71, 1, 0xF1, 0x61, 1]
        ∧ t.diag.routine.map (fun r => (r.rid, r.running, r.status, r.result)) = some (0xF161, false, .locked, [])
        ∧ t.acc = s.acc
        ∧ t.ks = s.ks
        ∧ t.tmp = s.tmp)
  ∧ (∀ (s : State) (c : Fin 3) (id : BitVec 64) (page : Byte) (d : Bytes) (nrc : Nat),
      udsLive s c.val = true →
      rtRefused s c.val 61794 = some nrc ∨ (rtRefused s c.val 61794 = none ∧ ¬(d.length = 16) ∧ nrc = 0x13) ∨ (rtRefused s c.val 61794 = none ∧ (d.length = 16) ∧ rtRunning s = true ∧ nrc = 0x22) →
      ∃ t, exec (.tagWrite c id page d) s = .next t
        ∧ (connGet t c.val).resp = [0x7F, 0x31, BitVec.ofNat 8 nrc]
        ∧ t.diag.routine = s.diag.routine
        ∧ t.tt = s.tt
        ∧ t.acc = s.acc
        ∧ t.ks = s.ks)
  ∧ (∀ (s : State) (c : Fin 3) (id : BitVec 64) (page : Byte) (d : Bytes),
      udsLive s c.val = true →
      rtRefused s c.val 61794 = none →
      rtRunning s = false →
      d.length = 16 →
      capDash s .keys = true →
      ∃ t, exec (.tagWrite c id page d) s = .next t
        ∧ (connGet t c.val).resp = [0x71, 1, 0xF1, 0x62, 1]
        ∧ t.diag.routine.map (fun r => (r.rid, r.running, r.status, r.result)) = some (0xF162, false, .locked, [])
        ∧ t.acc = s.acc
        ∧ t.ks = s.ks
        ∧ t.tmp = s.tmp)
  ∧ (∀ (s : State) (c : Fin 3) (id : BitVec 64) (page : Byte) (nrc : Nat),
      udsLive s c.val = true →
      rtRefused s c.val 61795 = some nrc ∨ (rtRefused s c.val 61795 = none ∧ rtRunning s = true ∧ nrc = 0x22) →
      ∃ t, exec (.tagLock c id page) s = .next t
        ∧ (connGet t c.val).resp = [0x7F, 0x31, BitVec.ofNat 8 nrc]
        ∧ t.diag.routine = s.diag.routine
        ∧ t.tt = s.tt
        ∧ t.acc = s.acc
        ∧ t.ks = s.ks)
  ∧ (∀ (s : State) (c : Fin 3) (id : BitVec 64) (page : Byte),
      udsLive s c.val = true →
      rtRefused s c.val 61795 = none →
      rtRunning s = false →
      capDash s .keys = true →
      ∃ t, exec (.tagLock c id page) s = .next t
        ∧ (connGet t c.val).resp = [0x71, 1, 0xF1, 0x63, 1]
        ∧ t.diag.routine.map (fun r => (r.rid, r.running, r.status, r.result)) = some (0xF163, false, .locked, [])
        ∧ t.acc = s.acc
        ∧ t.ks = s.ks
        ∧ t.tmp = s.tmp)

/-- A start that is refused starts nothing; one whose capability no role has ends LOCKED. SLOT_WRITE, SLOT_GENERATE and
SLOT_ERASE that R493 refuses end with that status and no slot changed; of slots 60 to 63 they end OK with the key, the
drawn key or none, the next generation, and no other slot changed by a write; of slots below 56 they wait for the
measurement and end OK likewise or LOW_ENERGY with the slot unchanged; SLOT_GENERATE waits while the generator does not
serve. IDENTITY_WRITE in FACTORY waits for the measurement; with the tamper latch or an identity present LOCKED, out of
range BAD_ENTRY, without a root KEY_GONE, otherwise OK with the identity or LOW_ENERGY without. LC_TRANSITION: TAMPER,
DENIED for a wrong target, LOCKED, ENTROPY_FAIL, LOW_ENERGY or NOT_READY by R485; otherwise the next state with an LCR,
or a journal that waits, or LOW_ENERGY with nothing changed. DEBUG_SEAL seals once, then LOCKED. TAMPER_CLEAR: latch and
counts clear with event bit 8; with a step 4 source present LOCKED. -/
def Obligations.KeyStoreRoutines : Prop :=
  (∀ (s : State) (c : Fin 3) (n : Fin 64) (a : Word) (g : BitVec 16) (key : Bytes) (st : Status),
      udsLive s c.val = true →
      rtRefused s c.val 61728 = none →
      rtRunning s = false →
      key.length = 32 →
      (56 ≤ n.val ∨ s.sup.measured = true) →
      slotCheck (keyPage s) n.val true (some a) g.toNat false s = some st →
      ∃ t, exec (.slotWrite c n a g key) s = .next t
        ∧ (connGet t c.val).resp = [0x71, 1, 0xF1, 0x20, 1]
        ∧ t.diag.routine.map (fun r => (r.rid, r.running, r.status, r.result)) = some (0xF120, false, st, [])
        ∧ t.ks = s.ks)
  ∧ (∀ (s : State) (c : Fin 3) (n : Fin 64) (a : Word) (g : BitVec 16) (key : Bytes),
      udsLive s c.val = true →
      rtRefused s c.val 61728 = none →
      rtRunning s = false →
      key.length = 32 →
      60 ≤ n.val →
      slotCheck (keyPage s) n.val true (some a) g.toNat false s = none →
      ∃ t, exec (.slotWrite c n a g key) s = .next t
        ∧ (connGet t c.val).resp = [0x71, 1, 0xF1, 0x20, 1]
        ∧ t.diag.routine.map (fun r => (r.rid, r.running, r.status, r.result)) = some (0xF120, false, .ok, [])
        ∧ (slotGet t n.val).key = some (BitVec.ofNat 256 (beNat key))
        ∧ (slotGet t n.val).gen = ((slotGet s n.val).gen + 1) % 256
        ∧ (slotGet t n.val).attr = a ||| 0x100000
        ∧ t.ks.evt.getLsbD 0 = true
        ∧ (∀ m < 64, m ≠ n.val → slotGet t m = slotGet s m))
  ∧ (∀ (s : State) (c : Fin 3) (n : Fin 64) (a : Word) (g : BitVec 16) (key : Bytes),
      udsLive s c.val = true →
      rtRefused s c.val 61728 = none →
      rtRunning s = false →
      key.length = 32 →
      n.val < 56 →
      s.sup.measured = true →
      slotCheck (keyPage s) n.val true (some a) g.toNat false s = none →
      ∃ t, exec (.slotWrite c n a g key) s = .next t
        ∧ (connGet t c.val).resp = [0x71, 1, 0xF1, 0x20, 1]
        ∧ ((t.diag.routine.map (·.status) = some .ok ∧ (slotGet t n.val).key = some (BitVec.ofNat 256 (beNat key)) ∧ (slotGet t n.val).gen = ((slotGet s n.val).gen + 1) % 256) ∨ (t.diag.routine.map (·.status) = some .lowEnergy ∧ slotGet t n.val = slotGet s n.val)))
  ∧ (∀ (s : State) (c : Fin 3) (n : Fin 64) (a : Word) (g : BitVec 16) (key : Bytes),
      udsLive s c.val = true →
      rtRefused s c.val 61728 = none →
      rtRunning s = false →
      key.length = 32 →
      n.val < 56 →
      s.sup.measured = false →
      ∃ t, exec (.slotWrite c n a g key) s = .next t
        ∧ (connGet t c.val).resp = [0x71, 1, 0xF1, 0x20, 1]
        ∧ t.diag.routine.map (fun r => (r.rid, r.conn, r.running, r.step)) = some (0xF120, c.val, true, 0)
        ∧ t.ks = s.ks)
  ∧ (∀ (s : State) (c : Fin 3) (n : Fin 64) (a : Word) (g : BitVec 16) (st : Status),
      udsLive s c.val = true →
      rtRefused s c.val 61729 = none →
      rtRunning s = false →
      slotCheck (keyPage s) n.val true (some a) g.toNat true s = some st →
      ∃ t, exec (.slotGenerate c n a g) s = .next t
        ∧ (connGet t c.val).resp = [0x71, 1, 0xF1, 0x21, 1]
        ∧ t.diag.routine.map (fun r => (r.rid, r.running, r.status, r.result)) = some (0xF121, false, st, [])
        ∧ t.ks = s.ks
        ∧ t.rng = s.rng)
  ∧ (∀ (s : State) (c : Fin 3) (n : Fin 64) (a : Word) (g : BitVec 16),
      udsLive s c.val = true →
      rtRefused s c.val 61729 = none →
      rtRunning s = false →
      n.val < 56 →
      s.sup.measured = true →
      slotCheck (keyPage s) n.val true (some a) g.toNat true s = none →
      rngServes s = true →
      ∃ t, exec (.slotGenerate c n a g) s = .next t
        ∧ (connGet t c.val).resp = [0x71, 1, 0xF1, 0x21, 1]
        ∧ ((t.diag.routine.map (·.status) = some .ok ∧ (slotGet t n.val).key = some (Config.rngWord s.rng.drawn ++ Config.rngWord (s.rng.drawn + 1)) ∧ (slotGet t n.val).gen = ((slotGet s n.val).gen + 1) % 256) ∨ (t.diag.routine.map (·.status) = some .lowEnergy ∧ slotGet t n.val = slotGet s n.val)))
  ∧ (∀ (s : State) (c : Fin 3) (n : Fin 64) (a : Word) (g : BitVec 16),
      udsLive s c.val = true →
      rtRefused s c.val 61729 = none →
      rtRunning s = false →
      60 ≤ n.val →
      slotCheck (keyPage s) n.val true (some a) g.toNat true s = none →
      rngServes s = true →
      ∃ t, exec (.slotGenerate c n a g) s = .next t
        ∧ (connGet t c.val).resp = [0x71, 1, 0xF1, 0x21, 1]
        ∧ t.diag.routine.map (fun r => (r.rid, r.running, r.status, r.result)) = some (0xF121, false, .ok, [])
        ∧ (slotGet t n.val).key = some (Config.rngWord s.rng.drawn ++ Config.rngWord (s.rng.drawn + 1))
        ∧ (slotGet t n.val).gen = ((slotGet s n.val).gen + 1) % 256
        ∧ t.rng.drawn = s.rng.drawn + 2)
  ∧ (∀ (s : State) (c : Fin 3) (n : Fin 64) (a : Word) (g : BitVec 16),
      udsLive s c.val = true →
      rtRefused s c.val 61729 = none →
      rtRunning s = false →
      slotCheck (keyPage s) n.val true (some a) g.toNat true s = none →
      rngServes s = false ∨ (n.val < 56 ∧ s.sup.measured = false) →
      ∃ t, exec (.slotGenerate c n a g) s = .next t
        ∧ (connGet t c.val).resp = [0x71, 1, 0xF1, 0x21, 1]
        ∧ t.diag.routine.map (fun r => (r.rid, r.conn, r.running, r.step)) = some (0xF121, c.val, true, 0)
        ∧ t.ks = s.ks)
  ∧ (∀ (s : State) (c : Fin 3) (n : Fin 64) (g : BitVec 16),
      udsLive s c.val = true →
      rtRefused s c.val 61730 = none →
      rtRunning s = false →
      60 ≤ n.val →
      slotCheck (keyPage s) n.val true none g.toNat false s = none →
      ∃ t, exec (.slotErase c n g) s = .next t
        ∧ (connGet t c.val).resp = [0x71, 1, 0xF1, 0x22, 1]
        ∧ t.diag.routine.map (fun r => (r.rid, r.running, r.status, r.result)) = some (0xF122, false, .ok, [])
        ∧ (slotGet t n.val).key = none
        ∧ (slotGet t n.val).attr = (slotGet s n.val).attr
        ∧ (slotGet t n.val).gen = ((slotGet s n.val).gen + 1) % 256
        ∧ t.ks.evt.getLsbD 1 = true)
  ∧ (∀ (s : State) (c : Fin 3) (n : Fin 64) (g : BitVec 16) (st : Status),
      udsLive s c.val = true →
      rtRefused s c.val 61730 = none →
      rtRunning s = false →
      (56 ≤ n.val ∨ s.sup.measured = true) →
      slotCheck (keyPage s) n.val true none g.toNat false s = some st →
      ∃ t, exec (.slotErase c n g) s = .next t
        ∧ (connGet t c.val).resp = [0x71, 1, 0xF1, 0x22, 1]
        ∧ t.diag.routine.map (fun r => (r.rid, r.running, r.status, r.result)) = some (0xF122, false, st, [])
        ∧ t.ks = s.ks)
  ∧ (∀ (s : State) (c : Fin 3) (n : Fin 64) (g : BitVec 16),
      udsLive s c.val = true →
      rtRefused s c.val 61730 = none →
      rtRunning s = false →
      n.val < 56 →
      s.sup.measured = false →
      ∃ t, exec (.slotErase c n g) s = .next t
        ∧ (connGet t c.val).resp = [0x71, 1, 0xF1, 0x22, 1]
        ∧ t.diag.routine.map (fun r => (r.rid, r.conn, r.running, r.step)) = some (0xF122, c.val, true, 0)
        ∧ t.ks = s.ks)
  ∧ (∀ (s : State) (c : Fin 3) (n : Fin 64) (g : BitVec 16),
      udsLive s c.val = true →
      rtRefused s c.val 61730 = none →
      rtRunning s = false →
      n.val < 56 →
      s.sup.measured = true →
      slotCheck (keyPage s) n.val true none g.toNat false s = none →
      ∃ t, exec (.slotErase c n g) s = .next t
        ∧ (connGet t c.val).resp = [0x71, 1, 0xF1, 0x22, 1]
        ∧ ((t.diag.routine.map (·.status) = some .ok ∧ (slotGet t n.val).key = none ∧ (slotGet t n.val).gen = ((slotGet s n.val).gen + 1) % 256) ∨ (t.diag.routine.map (·.status) = some .lowEnergy ∧ slotGet t n.val = slotGet s n.val)))
  ∧ (∀ (s : State) (c : Fin 3) (k : CrtKey) (cert : Bytes) (w : BitVec 256),
      udsLive s c.val = true →
      rtRefused s c.val 61744 = none →
      rtRunning s = false →
      s.ks.lc = .factory →
      s.tmp.latch = false →
      cert.length ≤ 2048 →
      [k.p, k.q, k.dP, k.dQ, k.qInv].all (fun x => decide (x < 2 ^ 2048)) = true →
      s.sup.measured = true →
      s.ks.identity = none →
      s.ks.root = some w →
      ∃ t, exec (.identityWrite c k cert) s = .next t
        ∧ (connGet t c.val).resp = [0x71, 1, 0xF1, 0x30, 1]
        ∧ ((t.diag.routine.map (·.status) = some .ok ∧ t.ks.identity = some (k, cert)) ∨ (t.diag.routine.map (·.status) = some .lowEnergy ∧ t.ks.identity = none)))
  ∧ (∀ (s : State) (c : Fin 3) (k : CrtKey) (cert : Bytes),
      udsLive s c.val = true →
      rtRefused s c.val 61744 = none →
      rtRunning s = false →
      s.ks.lc = .factory →
      s.tmp.latch = false →
      cert.length ≤ 2048 →
      [k.p, k.q, k.dP, k.dQ, k.qInv].all (fun x => decide (x < 2 ^ 2048)) = true →
      s.sup.measured = true →
      s.ks.identity.isSome = true →
      ∃ t, exec (.identityWrite c k cert) s = .next t
        ∧ (connGet t c.val).resp = [0x71, 1, 0xF1, 0x30, 1]
        ∧ t.diag.routine.map (fun r => (r.rid, r.running, r.status, r.result)) = some (0xF130, false, .locked, [])
        ∧ t.ks = s.ks)
  ∧ (∀ (s : State) (c : Fin 3) (k : CrtKey) (cert : Bytes),
      udsLive s c.val = true →
      rtRefused s c.val 61744 = none →
      rtRunning s = false →
      s.ks.lc = .factory →
      s.sup.measured = false →
      ∃ t, exec (.identityWrite c k cert) s = .next t
        ∧ (connGet t c.val).resp = [0x71, 1, 0xF1, 0x30, 1]
        ∧ t.diag.routine.map (fun r => (r.rid, r.conn, r.running, r.step)) = some (0xF130, c.val, true, 0)
        ∧ t.ks = s.ks)
  ∧ (∀ (s : State) (c : Fin 3) (k : CrtKey) (cert : Bytes),
      udsLive s c.val = true →
      rtRefused s c.val 61744 = none →
      rtRunning s = false →
      s.ks.lc = .factory →
      s.sup.measured = true →
      s.tmp.latch = true →
      ∃ t, exec (.identityWrite c k cert) s = .next t
        ∧ (connGet t c.val).resp = [0x71, 1, 0xF1, 0x30, 1]
        ∧ t.diag.routine.map (fun r => (r.rid, r.running, r.status, r.result)) = some (0xF130, false, .locked, [])
        ∧ t.ks = s.ks)
  ∧ (∀ (s : State) (c : Fin 3) (k : CrtKey) (cert : Bytes),
      udsLive s c.val = true →
      rtRefused s c.val 61744 = none →
      rtRunning s = false →
      s.ks.lc = .factory →
      s.sup.measured = true →
      s.tmp.latch = false →
      2048 < cert.length ∨ [k.p, k.q, k.dP, k.dQ, k.qInv].any (fun x => decide (2 ^ 2048 ≤ x)) = true →
      ∃ t, exec (.identityWrite c k cert) s = .next t
        ∧ (connGet t c.val).resp = [0x71, 1, 0xF1, 0x30, 1]
        ∧ t.diag.routine.map (fun r => (r.rid, r.running, r.status, r.result)) = some (0xF130, false, .badEntry, [])
        ∧ t.ks = s.ks)
  ∧ (∀ (s : State) (c : Fin 3) (k : CrtKey) (cert : Bytes),
      udsLive s c.val = true →
      rtRefused s c.val 61744 = none →
      rtRunning s = false →
      s.ks.lc = .factory →
      s.tmp.latch = false →
      cert.length ≤ 2048 →
      [k.p, k.q, k.dP, k.dQ, k.qInv].all (fun x => decide (x < 2 ^ 2048)) = true →
      s.sup.measured = true →
      s.ks.identity = none →
      s.ks.root = none →
      ∃ t, exec (.identityWrite c k cert) s = .next t
        ∧ (connGet t c.val).resp = [0x71, 1, 0xF1, 0x30, 1]
        ∧ t.diag.routine.map (fun r => (r.rid, r.running, r.status, r.result)) = some (0xF130, false, .keyGone, [])
        ∧ t.ks = s.ks)
  ∧ (∀ (s : State) (c : Fin 3) (x : Byte) (b : LifeCycle) (st : Status),
      udsLive s c.val = true →
      rtRefused s c.val 61760 = none →
      rtRunning s = false →
      s.tmp.latch = false →
      lcNext s.ks.lc = some b →
      x.toNat = b.code →
      (st = .locked ∧ (s.boot.pufFail = true ∨ s.permit.latch = true ∨ s.acc.seqn.isSome = true ∨ s.ks.journal.isSome = true)) ∨ (s.boot.pufFail = false ∧ s.permit.latch = false ∧ s.acc.seqn = none ∧ learning s = false ∧ s.ks.journal = none ∧ ((st = .entropyFail ∧ s.boot.rngReady = false) ∨ (s.boot.rngReady = true ∧ ((st = .lowEnergy ∧ (s.sup.region ≠ .full ∨ s.boot.nvmReady = false ∨ s.sup.vholdLow = true)) ∨ (st = .notReady ∧ s.sup.region = .full ∧ s.boot.nvmReady = true ∧ s.sup.vholdLow = false ∧ s.sup.thermOff = true))))) →
      ∃ t, exec (.lcTransition c x) s = .next t
        ∧ (connGet t c.val).resp = [0x71, 1, 0xF1, 0x40, 1]
        ∧ t.diag.routine.map (fun r => (r.rid, r.running, r.status, r.result)) = some (0xF140, false, st, [])
        ∧ t.ks = s.ks
        ∧ t.nvm = s.nvm)
  ∧ (∀ (s : State) (c : Fin 3) (x : Byte) (b : LifeCycle),
      udsLive s c.val = true →
      rtRefused s c.val 61760 = none →
      rtRunning s = false →
      s.tmp.latch = false →
      lcNext s.ks.lc = some b →
      x.toNat = b.code →
      s.boot.pufFail = false →
      s.permit.latch = false →
      s.acc.seqn = none →
      learning s = false →
      s.ks.journal = none →
      s.boot.rngReady = true →
      s.sup.region = .full →
      s.boot.nvmReady = true →
      s.sup.vholdLow = false →
      s.sup.thermOff = false →
      ∃ t, exec (.lcTransition c x) s = .next t
        ∧ ((t.pwr.st = .startUp ∧ t.ks.lc = b ∧ t.boot.kinds.contains .lcr = true) ∨ (t.pwr.st = .run ∧ t.ks.journal.isSome = true ∧ t.diag.routine.map (·.running) = some true) ∨ (t.ks.lc = s.ks.lc ∧ t.ks.journal = none ∧ t.diag.routine.map (·.status) = some .lowEnergy)))
  ∧ (∀ (s : State) (c : Fin 3) (x : Byte),
      udsLive s c.val = true →
      rtRefused s c.val 61760 = none →
      rtRunning s = false →
      s.tmp.latch = true →
      capDash s .transition = false →
      ∃ t, exec (.lcTransition c x) s = .next t
        ∧ (connGet t c.val).resp = [0x71, 1, 0xF1, 0x40, 1]
        ∧ t.diag.routine.map (fun r => (r.rid, r.running, r.status, r.result)) = some (0xF140, false, .tamper, [])
        ∧ t.ks = s.ks)
  ∧ (∀ (s : State) (c : Fin 3) (x : Byte) (b : LifeCycle),
      udsLive s c.val = true →
      rtRefused s c.val 61760 = none →
      rtRunning s = false →
      s.tmp.latch = false →
      lcNext s.ks.lc = some b →
      x.toNat ≠ b.code →
      ∃ t, exec (.lcTransition c x) s = .next t
        ∧ (connGet t c.val).resp = [0x71, 1, 0xF1, 0x40, 1]
        ∧ t.diag.routine.map (fun r => (r.rid, r.running, r.status, r.result)) = some (0xF140, false, .denied, [])
        ∧ t.ks = s.ks)
  ∧ (∀ (s : State) (c : Fin 3),
      udsLive s c.val = true →
      rtRefused s c.val 61761 = none →
      rtRunning s = false →
      s.ks.sealed = false →
      ∃ t, exec (.debugSeal c) s = .next t
        ∧ (connGet t c.val).resp = [0x71, 1, 0xF1, 0x41, 1]
        ∧ t.diag.routine.map (fun r => (r.rid, r.running, r.status, r.result)) = some (0xF141, false, .ok, [])
        ∧ t.ks.sealed = true)
  ∧ (∀ (s : State) (c : Fin 3),
      udsLive s c.val = true →
      rtRefused s c.val 61761 = none →
      rtRunning s = false →
      s.ks.sealed = true →
      ∃ t, exec (.debugSeal c) s = .next t
        ∧ (connGet t c.val).resp = [0x71, 1, 0xF1, 0x41, 1]
        ∧ t.diag.routine.map (fun r => (r.rid, r.running, r.status, r.result)) = some (0xF141, false, .locked, [])
        ∧ t.ks = s.ks)
  ∧ (∀ (s : State) (c : Fin 3),
      udsLive s c.val = true →
      rtRefused s c.val 61776 = none →
      rtRunning s = false →
      s.ks.lc ≠ .blank →
      tamperPresent s = false →
      ∃ t, exec (.tamperClear c) s = .next t
        ∧ (connGet t c.val).resp = [0x71, 1, 0xF1, 0x50, 1]
        ∧ t.diag.routine.map (fun r => (r.rid, r.running, r.status, r.result)) = some (0xF150, false, .ok, [])
        ∧ t.tmp.latch = false
        ∧ t.tmp.count = Vector.replicate 8 0
        ∧ t.tmp.evt.getLsbD 8 = true)
  ∧ (∀ (s : State) (c : Fin 3),
      udsLive s c.val = true →
      rtRefused s c.val 61776 = none →
      rtRunning s = false →
      capDash s .tamperClear = false →
      tamperPresent s = true →
      ∃ t, exec (.tamperClear c) s = .next t
        ∧ (connGet t c.val).resp = [0x71, 1, 0xF1, 0x50, 1]
        ∧ t.diag.routine.map (fun r => (r.rid, r.running, r.status, r.result)) = some (0xF150, false, .locked, [])
        ∧ t.tmp = s.tmp)
  ∧ (∀ (s : State) (c : Fin 3) (n : Fin 64) (a : Word) (g : BitVec 16) (key : Bytes) (nrc : Nat),
      udsLive s c.val = true →
      rtRefused s c.val 61728 = some nrc ∨ (rtRefused s c.val 61728 = none ∧ ¬(key.length = 32) ∧ nrc = 0x13) ∨ (rtRefused s c.val 61728 = none ∧ (key.length = 32) ∧ rtRunning s = true ∧ nrc = 0x22) →
      ∃ t, exec (.slotWrite c n a g key) s = .next t
        ∧ (connGet t c.val).resp = [0x7F, 0x31, BitVec.ofNat 8 nrc]
        ∧ t.diag.routine = s.diag.routine
        ∧ t.tt = s.tt
        ∧ t.acc = s.acc
        ∧ t.ks = s.ks)
  ∧ (∀ (s : State) (c : Fin 3) (n : Fin 64) (a : Word) (g : BitVec 16) (nrc : Nat),
      udsLive s c.val = true →
      rtRefused s c.val 61729 = some nrc ∨ (rtRefused s c.val 61729 = none ∧ rtRunning s = true ∧ nrc = 0x22) →
      ∃ t, exec (.slotGenerate c n a g) s = .next t
        ∧ (connGet t c.val).resp = [0x7F, 0x31, BitVec.ofNat 8 nrc]
        ∧ t.diag.routine = s.diag.routine
        ∧ t.tt = s.tt
        ∧ t.acc = s.acc
        ∧ t.ks = s.ks)
  ∧ (∀ (s : State) (c : Fin 3) (n : Fin 64) (g : BitVec 16) (nrc : Nat),
      udsLive s c.val = true →
      rtRefused s c.val 61730 = some nrc ∨ (rtRefused s c.val 61730 = none ∧ rtRunning s = true ∧ nrc = 0x22) →
      ∃ t, exec (.slotErase c n g) s = .next t
        ∧ (connGet t c.val).resp = [0x7F, 0x31, BitVec.ofNat 8 nrc]
        ∧ t.diag.routine = s.diag.routine
        ∧ t.tt = s.tt
        ∧ t.acc = s.acc
        ∧ t.ks = s.ks)
  ∧ (∀ (s : State) (c : Fin 3) (k : CrtKey) (cert : Bytes) (nrc : Nat),
      udsLive s c.val = true →
      rtRefused s c.val 61744 = some nrc ∨ (rtRefused s c.val 61744 = none ∧ rtRunning s = true ∧ nrc = 0x22) →
      ∃ t, exec (.identityWrite c k cert) s = .next t
        ∧ (connGet t c.val).resp = [0x7F, 0x31, BitVec.ofNat 8 nrc]
        ∧ t.diag.routine = s.diag.routine
        ∧ t.tt = s.tt
        ∧ t.acc = s.acc
        ∧ t.ks = s.ks)
  ∧ (∀ (s : State) (c : Fin 3) (k : CrtKey) (cert : Bytes),
      udsLive s c.val = true →
      rtRefused s c.val 61744 = none →
      rtRunning s = false →
      capDash s .identity = true →
      ∃ t, exec (.identityWrite c k cert) s = .next t
        ∧ (connGet t c.val).resp = [0x71, 1, 0xF1, 0x30, 1]
        ∧ t.diag.routine.map (fun r => (r.rid, r.running, r.status, r.result)) = some (0xF130, false, .locked, [])
        ∧ t.acc = s.acc
        ∧ t.ks = s.ks
        ∧ t.tmp = s.tmp)
  ∧ (∀ (s : State) (c : Fin 3) (x : Byte) (nrc : Nat),
      udsLive s c.val = true →
      rtRefused s c.val 61760 = some nrc ∨ (rtRefused s c.val 61760 = none ∧ rtRunning s = true ∧ nrc = 0x22) →
      ∃ t, exec (.lcTransition c x) s = .next t
        ∧ (connGet t c.val).resp = [0x7F, 0x31, BitVec.ofNat 8 nrc]
        ∧ t.diag.routine = s.diag.routine
        ∧ t.tt = s.tt
        ∧ t.acc = s.acc
        ∧ t.ks = s.ks)
  ∧ (∀ (s : State) (c : Fin 3) (x : Byte),
      udsLive s c.val = true →
      rtRefused s c.val 61760 = none →
      rtRunning s = false →
      capDash s .transition = true →
      ∃ t, exec (.lcTransition c x) s = .next t
        ∧ (connGet t c.val).resp = [0x71, 1, 0xF1, 0x40, 1]
        ∧ t.diag.routine.map (fun r => (r.rid, r.running, r.status, r.result)) = some (0xF140, false, .locked, [])
        ∧ t.acc = s.acc
        ∧ t.ks = s.ks
        ∧ t.tmp = s.tmp)
  ∧ (∀ (s : State) (c : Fin 3) (nrc : Nat),
      udsLive s c.val = true →
      rtRefused s c.val 61761 = some nrc ∨ (rtRefused s c.val 61761 = none ∧ rtRunning s = true ∧ nrc = 0x22) →
      ∃ t, exec (.debugSeal c) s = .next t
        ∧ (connGet t c.val).resp = [0x7F, 0x31, BitVec.ofNat 8 nrc]
        ∧ t.diag.routine = s.diag.routine
        ∧ t.tt = s.tt
        ∧ t.acc = s.acc
        ∧ t.ks = s.ks)
  ∧ (∀ (s : State) (c : Fin 3) (nrc : Nat),
      udsLive s c.val = true →
      rtRefused s c.val 61776 = some nrc ∨ (rtRefused s c.val 61776 = none ∧ rtRunning s = true ∧ nrc = 0x22) →
      ∃ t, exec (.tamperClear c) s = .next t
        ∧ (connGet t c.val).resp = [0x7F, 0x31, BitVec.ofNat 8 nrc]
        ∧ t.diag.routine = s.diag.routine
        ∧ t.tt = s.tt
        ∧ t.acc = s.acc
        ∧ t.ks = s.ks)
  ∧ (∀ (s : State) (c : Fin 3),
      udsLive s c.val = true →
      rtRefused s c.val 61776 = none →
      rtRunning s = false →
      capDash s .tamperClear = true →
      ∃ t, exec (.tamperClear c) s = .next t
        ∧ (connGet t c.val).resp = [0x71, 1, 0xF1, 0x50, 1]
        ∧ t.diag.routine.map (fun r => (r.rid, r.running, r.status, r.result)) = some (0xF150, false, .locked, [])
        ∧ t.acc = s.acc
        ∧ t.ks = s.ks
        ∧ t.tmp = s.tmp)

/-- With the interface off no request changes anything, nor ALIVE_CHECK or DOIP_CONNECTION_CLOSE of a connection that is not
active. ROUTING_ACTIVATION is answered with its code; code 0x10, exactly for a tester address in range, type 0, no other
tester on this socket and this tester on no other, makes the connection active for the tester, another code does not.
ALIVE_CHECK of an active connection, VEHICLE_IDENTIFICATION_REQUEST, ENTITY_STATUS_REQUEST and
POWER_MODE_INFORMATION_REQUEST get their message. DOIP_CONNECTION_CLOSE resets the connection, ends its download with
its page, drops its ended routine and leaves a running one without a connection. The payload layouts are ISO 13400-2's
(PRESUMED, log 100). -/
def Obligations.DoipServices : Prop :=
  (∀ (s : State) (c : Fin 2) (x : BitVec 16) (k : Byte),
      aspOn s = false →
      exec (.routingActivation c x k) s = .next (settle s (s)))
  ∧ (∀ (s : State) (c : Fin 2),
      aspOn s = false →
      exec (.aliveCheck c) s = .next (settle s (s)))
  ∧ (∀ (s : State),
      aspOn s = false →
      exec (.vehicleIdentificationRequest) s = .next (settle s (s)))
  ∧ (∀ (s : State),
      aspOn s = false →
      exec (.entityStatusRequest) s = .next (settle s (s)))
  ∧ (∀ (s : State),
      aspOn s = false →
      exec (.powerModeInformationRequest) s = .next (settle s (s)))
  ∧ (∀ (s : State) (c : Fin 2),
      (connGet s c.val).active = false →
      exec (.aliveCheck c) s = .next (settle s (s)))
  ∧ (∀ (s : State) (c : Fin 2),
      (connGet s c.val).active = false →
      exec (.doipConnectionClose c) s = .next (settle s (s)))
  ∧ (∀ (s : State) (c : Fin 2) (x : BitVec 16) (k : Byte),
      aspOn s = true →
      ∃ t, exec (.routingActivation c x k) s = .next t
        ∧ (routingCode s c.val x.toNat k.toNat = 0x10 ↔ 0x0E00 ≤ x.toNat ∧ x.toNat ≤ 0x0FFF ∧ k = 0 ∧ ((connGet s c.val).active = true → (connGet s c.val).tester = x.toNat) ∧ ((connGet s (1 - c.val)).active = true → (connGet s (1 - c.val)).tester ≠ x.toNat)))
  ∧ (∀ (s : State) (c : Fin 2) (x : BitVec 16) (k : Byte),
      aspOn s = true →
      ∃ t, exec (.routingActivation c x k) s = .next t
        ∧ (connGet t c.val).resp = doipMsg 0x0006 (beBytes 2 x.toNat ++ beBytes 2 (dgLa (diagSec s)) ++ leBytes 1 (routingCode s c.val x.toNat k.toNat) ++ [0, 0, 0, 0])
        ∧ (routingCode s c.val x.toNat k.toNat = 0x10 → (connGet t c.val).active = true ∧ (connGet t c.val).tester = x.toNat)
        ∧ (routingCode s c.val x.toNat k.toNat ≠ 0x10 → (connGet t c.val).active = (connGet s c.val).active))
  ∧ (∀ (s : State) (c : Fin 2),
      aspOn s = true →
      (connGet s c.val).active = true →
      ∃ t, exec (.aliveCheck c) s = .next t
        ∧ (connGet t c.val).resp = doipMsg 0x0008 (beBytes 2 (connGet s c.val).tester)
        ∧ (connGet t c.val).seen = s.elapsed)
  ∧ (∀ (s : State),
      aspOn s = true →
      ∃ t, exec (.vehicleIdentificationRequest) s = .next t
        ∧ t.diag.out = vehicleId s
        ∧ t.sw = s.sw)
  ∧ (∀ (s : State),
      aspOn s = true →
      ∃ t, exec (.entityStatusRequest) s = .next t
        ∧ t.diag.out = doipMsg 0x4002 ([1, 2] ++ leBytes 1 (b2n (connGet s 0).active + b2n (connGet s 1).active) ++ [0, 0, 0x10, 0]))
  ∧ (∀ (s : State),
      aspOn s = true →
      ∃ t, exec (.powerModeInformationRequest) s = .next t
        ∧ t.diag.out = doipMsg 0x4004 [1])
  ∧ (∀ (s : State) (c : Fin 2),
      (connGet s c.val).active = true →
      ∃ t, exec (.doipConnectionClose c) s = .next t
        ∧ connGet t c.val = Conn.reset
        ∧ (∀ r, t.diag.routine = some r → r.conn ≠ c.val)
        ∧ (∀ r, s.diag.routine = some r → r.conn = c.val → t.diag.routine = if r.running then some { r with conn := 3 } else none)
        ∧ (∀ r, s.diag.routine = some r → r.conn ≠ c.val → t.diag.routine = some r)
        ∧ ((connGet s c.val).page ≠ 0 → t.diag.download = none))

/-- For a pair that does not run, and ECC_SCRUB outside Run, nothing changes. CHECKPOINT_WRITE: the region's newest
checkpoint holds its number, the latch, the rings with CQ_CI and SEQ_NO and the items since the last, at most two are
held, and exactly the fed rings take CQ_CI as checkpointed. LOCKSTEP_MISMATCH, PAIR_MEMORY_ERROR and PAIR_B_WATCHDOG
with a spare: a takeover with its cause and delay, event bit 0, the fed rings rewound to the checkpoint, the failed pair
under retest, the latch kept where no level denies it; without one a WFR in deny. PAIR_A_WATCHDOG and
CHECKPOINT_MEMORY_ERROR: WFR. SPARE_SELF_TEST_FAIL: no spare, event bit 1, its condition. RETEST_COMPLETE passed with
fewer than two takeovers: the spare; otherwise out. ECC_SCRUB: a correction counts, the third at one address with event
bit 6; an uncorrectable word counts with its memory and address and has the effect of R611 on what it holds: ring
stopped, job or cipher context ended, frame dropped, slot or holding buffer empty, retained field at its reset value
with event bit 5; both copies of a running pair a takeover, without a spare a WFR. -/
def Obligations.PairFaults : Prop :=
  (∀ (s : State) (role : ActiveRole),
      pairOn s (roleCode role) = false →
      exec (.checkpointWrite role) s = .next (settle s (s)))
  ∧ (∀ (s : State) (role : ActiveRole) (d : Nat),
      pairOn s (roleCode role) = false →
      exec (.lockstepMismatch role d) s = .next (settle s (s)))
  ∧ (∀ (s : State) (role : ActiveRole) (off : BitVec 24) (d : Nat),
      pairOn s (roleCode role) = false →
      exec (.pairMemoryError role off d) s = .next (settle s (s)))
  ∧ (∀ (s : State) (d : Nat),
      pairOn s 1 = false →
      exec (.pairBWatchdog d) s = .next (settle s (s)))
  ∧ (∀ (s : State),
      pairOn s 0 = false →
      exec (.pairAWatchdog) s = .next (settle s (s)))
  ∧ (∀ (s : State) (off : BitVec 24),
      pairOn s 0 = false ∧ pairOn s 1 = false →
      exec (.checkpointMemoryError off) s = .next (settle s (s)))
  ∧ (∀ (s : State),
      hasRole s 2 = false ∨ s.pwr.st ≠ .run →
      exec (.spareSelfTestFail) s = .next (settle s (s)))
  ∧ (∀ (s : State) (passed : Bool),
      s.flt.retest = none ∨ s.pwr.st ≠ .run →
      exec (.retestComplete passed) s = .next (settle s (s)))
  ∧ (∀ (s : State) (find : EccFind) (off : BitVec 24),
      s.pwr.st ≠ .run →
      exec (.eccScrub find off) s = .next (settle s (s)))
  ∧ (∀ (s : State) (role : ActiveRole) (off : BitVec 24) (d : Nat),
      pairOn s (roleCode role) = true →
      s.flt.spare = false →
      ∃ t, exec (.pairMemoryError role off d) s = .next t
        ∧ t.pwr.st = .startUp
        ∧ t.boot.kinds.contains .wfr = true
        ∧ t.permit.latch = false
        ∧ t.boot.ready = false)
  ∧ (∀ (s : State) (role : ActiveRole),
      pairOn s (roleCode role) = true →
      ∃ t, exec (.checkpointWrite role) s = .next t
        ∧ (vget t.flt.mem (roleCode role) { last := [], items := [] }).last.head? = some { number := vget s.flt.ckpts (roleCode role) 0, latch := s.permit.latch, rings := ckptRings (roleCode role) s, items := (vget s.flt.mem (roleCode role) { last := [], items := [] }).items }
        ∧ (vget t.flt.mem (roleCode role) { last := [], items := [] }).last.length ≤ 2
        ∧ (vget t.flt.mem (roleCode role) { last := [], items := [] }).items = []
        ∧ (∀ n < 32, fedBy (roleCode role) n (ringGet s n) = true → (ringGet t n).cqCiCkpt = (ringGet s n).cqCi)
        ∧ (∀ n < 32, fedBy (roleCode role) n (ringGet s n) = false → ringGet t n = ringGet s n)
        ∧ t.job.ops = s.job.ops)
  ∧ (∀ (s : State) (role : ActiveRole) (d : Nat),
      pairOn s (roleCode role) = true →
      s.flt.spare = true →
      ∃ t, exec (.lockstepMismatch role d) s = .next t
        ∧ t.flt.retest = some (physOf s (roleCode role))
        ∧ t.flt.spare = false
        ∧ t.flt.count = satInc 255 s.flt.count
        ∧ t.flt.lastRole = (roleCode role)
        ∧ t.flt.lastCause = 0
        ∧ t.flt.lastDelay = min 65535 d
        ∧ t.flt.evt.getLsbD 0 = true
        ∧ (∀ n < 32, fedBy (roleCode role) n (ringGet s n) = true → (ringGet t n).cqCi = ckptCi (vget s.flt.mem (roleCode role) { last := [], items := [] }) n (ringGet s n))
        ∧ (denyLevel s = false → t.permit.latch = s.permit.latch))
  ∧ (∀ (s : State) (role : ActiveRole) (d : Nat),
      pairOn s (roleCode role) = true →
      s.flt.spare = false →
      ∃ t, exec (.lockstepMismatch role d) s = .next t
        ∧ t.pwr.st = .startUp
        ∧ t.boot.kinds.contains .wfr = true
        ∧ t.permit.latch = false
        ∧ t.boot.ready = false)
  ∧ (∀ (s : State) (role : ActiveRole) (off : BitVec 24) (d : Nat),
      pairOn s (roleCode role) = true →
      s.flt.spare = true →
      ∃ t, exec (.pairMemoryError role off d) s = .next t
        ∧ t.flt.retest = some (physOf s (roleCode role))
        ∧ t.flt.spare = false
        ∧ t.flt.count = satInc 255 s.flt.count
        ∧ t.flt.lastRole = (roleCode role)
        ∧ t.flt.lastCause = 1
        ∧ t.flt.lastDelay = min 65535 d
        ∧ t.flt.evt.getLsbD 0 = true
        ∧ (∀ n < 32, fedBy (roleCode role) n (ringGet s n) = true → (ringGet t n).cqCi = ckptCi (vget s.flt.mem (roleCode role) { last := [], items := [] }) n (ringGet s n))
        ∧ (denyLevel s = false → t.permit.latch = s.permit.latch)
        ∧ t.flt.uncorrected = satInc 255 s.flt.uncorrected
        ∧ t.flt.lastMem = 4
        ∧ t.flt.eccAddr = off.toNat)
  ∧ (∀ (s : State) (d : Nat),
      pairOn s 1 = true →
      s.flt.spare = true →
      ∃ t, exec (.pairBWatchdog d) s = .next t
        ∧ t.flt.retest = some (physOf s 1)
        ∧ t.flt.spare = false
        ∧ t.flt.count = satInc 255 s.flt.count
        ∧ t.flt.lastRole = 1
        ∧ t.flt.lastCause = 2
        ∧ t.flt.lastDelay = min 65535 d
        ∧ t.flt.evt.getLsbD 0 = true
        ∧ (∀ n < 32, fedBy 1 n (ringGet s n) = true → (ringGet t n).cqCi = ckptCi (vget s.flt.mem 1 { last := [], items := [] }) n (ringGet s n))
        ∧ (denyLevel s = false → t.permit.latch = s.permit.latch)
        ∧ t.flt.evt.getLsbD 3 = true)
  ∧ (∀ (s : State) (d : Nat),
      pairOn s 1 = true →
      s.flt.spare = false →
      ∃ t, exec (.pairBWatchdog d) s = .next t
        ∧ t.pwr.st = .startUp
        ∧ t.boot.kinds.contains .wfr = true
        ∧ t.permit.latch = false
        ∧ t.boot.ready = false)
  ∧ (∀ (s : State),
      pairOn s 0 = true →
      ∃ t, exec (.pairAWatchdog) s = .next t
        ∧ t.pwr.st = .startUp
        ∧ t.boot.kinds.contains .wfr = true
        ∧ t.permit.latch = false
        ∧ t.boot.ready = false)
  ∧ (∀ (s : State) (off : BitVec 24),
      pairOn s 0 = true ∨ pairOn s 1 = true →
      ∃ t, exec (.checkpointMemoryError off) s = .next t
        ∧ t.pwr.st = .startUp
        ∧ t.boot.kinds.contains .wfr = true
        ∧ t.permit.latch = false
        ∧ t.boot.ready = false)
  ∧ (∀ (s : State),
      hasRole s 2 = true →
      s.pwr.st = .run →
      ∃ t, exec (.spareSelfTestFail) s = .next t
        ∧ t.flt.spare = false
        ∧ vget t.flt.role (physOf s 2) 9 = 3
        ∧ t.flt.evt.getLsbD 1 = true
        ∧ (0xB78000 + physOf s 2) ∈ t.diag.conditions)
  ∧ (∀ (s : State) (p : Nat),
      s.flt.retest = some p →
      s.pwr.st = .run →
      p < 3 →
      vget s.flt.hits p 0 < 2 →
      ∃ t, exec (.retestComplete true) s = .next t
        ∧ t.flt.retest = none
        ∧ t.flt.spare = true
        ∧ vget t.flt.role p 9 = 2
        ∧ t.flt.evt.getLsbD 2 = true)
  ∧ (∀ (s : State) (passed : Bool) (p : Nat),
      s.flt.retest = some p →
      s.pwr.st = .run →
      p < 3 →
      passed = false ∨ 2 ≤ vget s.flt.hits p 0 →
      ∃ t, exec (.retestComplete passed) s = .next t
        ∧ t.flt.retest = none
        ∧ t.flt.spare = s.flt.spare
        ∧ vget t.flt.role p 9 = 3
        ∧ (0xB78000 + p) ∈ t.diag.conditions)
  ∧ (∀ (s : State) (mem : EccMem) (off : BitVec 24),
      s.pwr.st = .run →
      ∃ t, exec (.eccScrub (.corrected mem) off) s = .next t
        ∧ t.flt.corrected = satInc 65535 s.flt.corrected
        ∧ t.flt.uncorrected = s.flt.uncorrected
        ∧ t.flt.evt.getLsbD 4 = true
        ∧ stuckCount (memCode mem) off.toNat t.flt.stuck = stuckCount (memCode mem) off.toNat s.flt.stuck + 1
        ∧ (stuckCount (memCode mem) off.toNat s.flt.stuck = 2 → t.flt.evt.getLsbD 6 = true ∧ 0xB78040 ∈ t.diag.conditions))
  ∧ (∀ (s : State) (n : Fin 32) (off : BitVec 24),
      s.pwr.st = .run →
      ∃ t, exec (.eccScrub (.ringArray n) off) s = .next t
        ∧ (ringGet t n.val).stopped = true
        ∧ t.flt.uncorrected = satInc 255 s.flt.uncorrected
        ∧ t.flt.lastMem = 0 ∧ t.flt.eccAddr = off.toNat
        ∧ t.flt.corrected = s.flt.corrected)
  ∧ (∀ (s : State) (off : BitVec 24),
      s.pwr.st = .run →
      ∃ t, exec (.eccScrub .copy off) s = .next t
        ∧ t.flt.uncorrected = satInc 255 s.flt.uncorrected
        ∧ t.flt.lastMem = 1 ∧ t.flt.eccAddr = off.toNat
        ∧ t.flt.role = s.flt.role
        ∧ t.set = s.set)
  ∧ (∀ (s : State) (g : Fin 512) (off : BitVec 24),
      s.pwr.st = .run →
      ∃ t, exec (.eccScrub (.buffer (some g)) off) s = .next t
        ∧ t.flt.uncorrected = satInc 255 s.flt.uncorrected
        ∧ t.flt.lastMem = 2 ∧ t.flt.eccAddr = off.toNat
        ∧ (∀ o ∈ t.job.ops, o.tag = g.val → o.result.isSome = true))
  ∧ (∀ (s : State) (p : Fin 9) (c : Fin 8) (off : BitVec 24) (f : Frame) (r : List Frame),
      s.pwr.st = .run →
      vget (portGet s p.val).queues c.val [] = f :: r →
      ∃ t, exec (.eccScrub (.frame p c) off) s = .next t
        ∧ (vget (portGet t p.val).queues c.val []).length = r.length
        ∧ t.flt.uncorrected = satInc 255 s.flt.uncorrected
        ∧ t.flt.lastMem = 3 ∧ t.flt.eccAddr = off.toNat)
  ∧ (∀ (s : State) (n : Fin 8) (off : BitVec 24),
      s.pwr.st = .run →
      ∃ t, exec (.eccScrub (.slot n) off) s = .next t
        ∧ (slotGet t (56 + n.val)).key = none
        ∧ t.flt.uncorrected = satInc 255 s.flt.uncorrected
        ∧ t.flt.lastMem = 6 ∧ t.flt.eccAddr = off.toNat)
  ∧ (∀ (s : State) (p : Fin 8) (off : BitVec 24),
      s.pwr.st = .run →
      ∃ t, exec (.eccScrub (.holding p) off) s = .next t
        ∧ (pageGet t p.val).hb = []
        ∧ (pageGet t p.val).th = 0
        ∧ (pageGet t p.val).written = 0
        ∧ (pageGet t p.val).covered = 0
        ∧ t.flt.uncorrected = satInc 255 s.flt.uncorrected
        ∧ t.flt.lastMem = 6 ∧ t.flt.eccAddr = off.toNat)
  ∧ (∀ (s : State) (g : Fin 512) (off : BitVec 24),
      s.pwr.st = .run →
      ∃ t, exec (.eccScrub (.context g) off) s = .next t
        ∧ t.flt.uncorrected = satInc 255 s.flt.uncorrected
        ∧ t.flt.lastMem = 6 ∧ t.flt.eccAddr = off.toNat
        ∧ (∀ o ∈ t.job.ops, o.tag = g.val → dsKind o.desc = 2 → o.result.isSome = true))
  ∧ (∀ (s : State) (off : BitVec 24),
      s.pwr.st = .run →
      ∃ t, exec (.eccScrub (.kept .lfEvents) off) s = .next t
        ∧ t.lf.evt = 0
        ∧ t.flt.evt.getLsbD 5 = true
        ∧ t.flt.uncorrected = satInc 255 s.flt.uncorrected
        ∧ t.flt.lastMem = 7 ∧ t.flt.eccAddr = off.toNat)
  ∧ (∀ (s : State) (role : ActiveRole) (off : BitVec 24),
      s.pwr.st = .run →
      pairOn s (roleCode role) = true →
      s.flt.spare = false →
      ∃ t, exec (.eccScrub (.bothCopies role) off) s = .next t
        ∧ t.pwr.st = .startUp
        ∧ t.boot.kinds.contains .wfr = true
        ∧ t.permit.latch = false
        ∧ t.boot.ready = false)
  ∧ (∀ (s : State) (role : ActiveRole) (off : BitVec 24),
      s.pwr.st = .run →
      pairOn s (roleCode role) = false →
      ∃ t, exec (.eccScrub (.bothCopies role) off) s = .next t
        ∧ t.flt.uncorrected = satInc 255 s.flt.uncorrected
        ∧ t.flt.lastMem = 1 ∧ t.flt.eccAddr = off.toNat
        ∧ t.flt.role = s.flt.role)
  ∧ (∀ (s : State) (p : Fin 9) (c : Fin 8) (off : BitVec 24),
      s.pwr.st = .run →
      vget (portGet s p.val).queues c.val [] = [] →
      ∃ t, exec (.eccScrub (.frame p c) off) s = .next t
        ∧ t.sw.ports = s.sw.ports
        ∧ t.flt.uncorrected = satInc 255 s.flt.uncorrected
        ∧ t.flt.lastMem = 3 ∧ t.flt.eccAddr = off.toNat)
  ∧ (∀ (s : State) (off : BitVec 24),
      s.pwr.st = .run →
      ∃ t, exec (.eccScrub (.buffer none) off) s = .next t
        ∧ t.flt.uncorrected = satInc 255 s.flt.uncorrected
        ∧ t.flt.lastMem = 2 ∧ t.flt.eccAddr = off.toNat
        ∧ t.job.ops = s.job.ops)
  ∧ (∀ (s : State) (off : BitVec 24),
      s.pwr.st = .run →
      ∃ t, exec (.eccScrub (.kept .supplyEvents) off) s = .next t
        ∧ t.sup.evt = 0
        ∧ t.flt.evt.getLsbD 5 = true
        ∧ t.flt.uncorrected = satInc 255 s.flt.uncorrected
        ∧ t.flt.lastMem = 7 ∧ t.flt.eccAddr = off.toNat)
  ∧ (∀ (s : State) (off : BitVec 24),
      s.pwr.st = .run →
      ∃ t, exec (.eccScrub (.kept .wakeSources) off) s = .next t
        ∧ t.pwr.wakeSrc = 0
        ∧ t.flt.evt.getLsbD 5 = true
        ∧ t.flt.uncorrected = satInc 255 s.flt.uncorrected
        ∧ t.flt.lastMem = 7 ∧ t.flt.eccAddr = off.toNat)
  ∧ (∀ (s : State) (off : BitVec 24),
      s.pwr.st = .run →
      ∃ t, exec (.eccScrub (.kept .timeEvents) off) s = .next t
        ∧ t.clk.evt = 0
        ∧ t.flt.evt.getLsbD 5 = true
        ∧ t.flt.uncorrected = satInc 255 s.flt.uncorrected
        ∧ t.flt.lastMem = 7 ∧ t.flt.eccAddr = off.toNat)
  ∧ (∀ (s : State) (off : BitVec 24),
      s.pwr.st = .run →
      ∃ t, exec (.eccScrub (.kept .lastStep) off) s = .next t
        ∧ t.clk.lastStep = 0
        ∧ t.flt.evt.getLsbD 5 = true
        ∧ t.flt.uncorrected = satInc 255 s.flt.uncorrected
        ∧ t.flt.lastMem = 7 ∧ t.flt.eccAddr = off.toNat)
  ∧ (∀ (s : State) (off : BitVec 24),
      s.pwr.st = .run →
      ∃ t, exec (.eccScrub (.kept .timetableEvents) off) s = .next t
        ∧ t.tt.evt = 0
        ∧ t.flt.evt.getLsbD 5 = true
        ∧ t.flt.uncorrected = satInc 255 s.flt.uncorrected
        ∧ t.flt.lastMem = 7 ∧ t.flt.eccAddr = off.toNat)
  ∧ (∀ (s : State) (off : BitVec 24),
      s.pwr.st = .run →
      ∃ t, exec (.eccScrub (.kept .keyLinkEvents) off) s = .next t
        ∧ t.kl.evt = 0
        ∧ t.flt.evt.getLsbD 5 = true
        ∧ t.flt.uncorrected = satInc 255 s.flt.uncorrected
        ∧ t.flt.lastMem = 7 ∧ t.flt.eccAddr = off.toNat)
  ∧ (∀ (s : State) (off : BitVec 24),
      s.pwr.st = .run →
      ∃ t, exec (.eccScrub (.kept .uhfEvents) off) s = .next t
        ∧ t.uhf.evt = 0
        ∧ t.flt.evt.getLsbD 5 = true
        ∧ t.flt.uncorrected = satInc 255 s.flt.uncorrected
        ∧ t.flt.lastMem = 7 ∧ t.flt.eccAddr = off.toNat)
  ∧ (∀ (s : State) (off : BitVec 24),
      s.pwr.st = .run →
      ∃ t, exec (.eccScrub (.kept .locationEvents) off) s = .next t
        ∧ t.loc.evt = 0
        ∧ t.flt.evt.getLsbD 5 = true
        ∧ t.flt.uncorrected = satInc 255 s.flt.uncorrected
        ∧ t.flt.lastMem = 7 ∧ t.flt.eccAddr = off.toNat)
  ∧ (∀ (s : State) (off : BitVec 24),
      s.pwr.st = .run →
      ∃ t, exec (.eccScrub (.kept .accessEvents) off) s = .next t
        ∧ t.acc.evt = 0
        ∧ t.flt.evt.getLsbD 5 = true
        ∧ t.flt.uncorrected = satInc 255 s.flt.uncorrected
        ∧ t.flt.lastMem = 7 ∧ t.flt.eccAddr = off.toNat)
  ∧ (∀ (s : State) (off : BitVec 24),
      s.pwr.st = .run →
      ∃ t, exec (.eccScrub (.kept .accessLast) off) s = .next t
        ∧ t.acc.lastKind = 0
        ∧ t.acc.lastCred = 255
        ∧ t.acc.lastStatus = .ok
        ∧ t.flt.evt.getLsbD 5 = true
        ∧ t.flt.uncorrected = satInc 255 s.flt.uncorrected
        ∧ t.flt.lastMem = 7 ∧ t.flt.eccAddr = off.toNat)
  ∧ (∀ (s : State) (off : BitVec 24),
      s.pwr.st = .run →
      ∃ t, exec (.eccScrub (.kept .accessSession) off) s = .next t
        ∧ t.acc.session = 0
        ∧ t.flt.evt.getLsbD 5 = true
        ∧ t.flt.uncorrected = satInc 255 s.flt.uncorrected
        ∧ t.flt.lastMem = 7 ∧ t.flt.eccAddr = off.toNat)
  ∧ (∀ (s : State) (off : BitVec 24),
      s.pwr.st = .run →
      ∃ t, exec (.eccScrub (.kept .accessToken) off) s = .next t
        ∧ t.acc.tokenSeq = 0
        ∧ t.flt.evt.getLsbD 5 = true
        ∧ t.flt.uncorrected = satInc 255 s.flt.uncorrected
        ∧ t.flt.lastMem = 7 ∧ t.flt.eccAddr = off.toNat)
  ∧ (∀ (s : State) (off : BitVec 24),
      s.pwr.st = .run →
      ∃ t, exec (.eccScrub (.kept .cipherEvents) off) s = .next t
        ∧ t.cip.aesEvt = 0
        ∧ t.flt.evt.getLsbD 5 = true
        ∧ t.flt.uncorrected = satInc 255 s.flt.uncorrected
        ∧ t.flt.lastMem = 7 ∧ t.flt.eccAddr = off.toNat)
  ∧ (∀ (s : State) (off : BitVec 24),
      s.pwr.st = .run →
      ∃ t, exec (.eccScrub (.kept .cipherFaults) off) s = .next t
        ∧ t.cip.faults = 0
        ∧ t.flt.evt.getLsbD 5 = true
        ∧ t.flt.uncorrected = satInc 255 s.flt.uncorrected
        ∧ t.flt.lastMem = 7 ∧ t.flt.eccAddr = off.toNat)
  ∧ (∀ (s : State) (off : BitVec 24),
      s.pwr.st = .run →
      ∃ t, exec (.eccScrub (.kept .hashEvents) off) s = .next t
        ∧ t.cip.hpkEvt = 0
        ∧ t.flt.evt.getLsbD 5 = true
        ∧ t.flt.uncorrected = satInc 255 s.flt.uncorrected
        ∧ t.flt.lastMem = 7 ∧ t.flt.eccAddr = off.toNat)
  ∧ (∀ (s : State) (off : BitVec 24),
      s.pwr.st = .run →
      ∃ t, exec (.eccScrub (.kept .randomEvents) off) s = .next t
        ∧ t.rng.evt = 0
        ∧ t.flt.evt.getLsbD 5 = true
        ∧ t.flt.uncorrected = satInc 255 s.flt.uncorrected
        ∧ t.flt.lastMem = 7 ∧ t.flt.eccAddr = off.toNat)
  ∧ (∀ (s : State) (off : BitVec 24),
      s.pwr.st = .run →
      ∃ t, exec (.eccScrub (.kept .randomCounts) off) s = .next t
        ∧ t.rng.reseeds = 0
        ∧ t.rng.failures = 0
        ∧ t.flt.evt.getLsbD 5 = true
        ∧ t.flt.uncorrected = satInc 255 s.flt.uncorrected
        ∧ t.flt.lastMem = 7 ∧ t.flt.eccAddr = off.toNat)
  ∧ (∀ (s : State) (off : BitVec 24),
      s.pwr.st = .run →
      ∃ t, exec (.eccScrub (.kept .keyStoreEvents) off) s = .next t
        ∧ t.ks.evt = 0
        ∧ t.flt.evt.getLsbD 5 = true
        ∧ t.flt.uncorrected = satInc 255 s.flt.uncorrected
        ∧ t.flt.lastMem = 7 ∧ t.flt.eccAddr = off.toNat)
  ∧ (∀ (s : State) (off : BitVec 24),
      s.pwr.st = .run →
      ∃ t, exec (.eccScrub (.kept .memoryEvents) off) s = .next t
        ∧ t.nvm.evt = 0
        ∧ t.flt.evt.getLsbD 5 = true
        ∧ t.flt.uncorrected = satInc 255 s.flt.uncorrected
        ∧ t.flt.lastMem = 7 ∧ t.flt.eccAddr = off.toNat)
  ∧ (∀ (s : State) (off : BitVec 24),
      s.pwr.st = .run →
      ∃ t, exec (.eccScrub (.kept .memoryHealth) off) s = .next t
        ∧ t.nvm.maxWear = 0
        ∧ t.nvm.corrections = 0
        ∧ t.flt.evt.getLsbD 5 = true
        ∧ t.flt.uncorrected = satInc 255 s.flt.uncorrected
        ∧ t.flt.lastMem = 7 ∧ t.flt.eccAddr = off.toNat)
  ∧ (∀ (s : State) (off : BitVec 24),
      s.pwr.st = .run →
      ∃ t, exec (.eccScrub (.kept .tamperEvents) off) s = .next t
        ∧ t.tmp.evt = 0
        ∧ t.flt.evt.getLsbD 5 = true
        ∧ t.flt.uncorrected = satInc 255 s.flt.uncorrected
        ∧ t.flt.lastMem = 7 ∧ t.flt.eccAddr = off.toNat)
  ∧ (∀ (s : State) (off : BitVec 24),
      s.pwr.st = .run →
      ∃ t, exec (.eccScrub (.kept .switchEvents) off) s = .next t
        ∧ t.sw.evt = 0
        ∧ t.flt.evt.getLsbD 5 = true
        ∧ t.flt.uncorrected = satInc 255 s.flt.uncorrected
        ∧ t.flt.lastMem = 7 ∧ t.flt.eccAddr = off.toNat)
  ∧ (∀ (s : State) (off : BitVec 24),
      s.pwr.st = .run →
      ∃ t, exec (.eccScrub (.kept .diagEvents) off) s = .next t
        ∧ t.diag.evt = 0
        ∧ t.flt.evt.getLsbD 5 = true
        ∧ t.flt.uncorrected = satInc 255 s.flt.uncorrected
        ∧ t.flt.lastMem = 7 ∧ t.flt.eccAddr = off.toNat)
  ∧ (∀ (s : State) (n : Fin 6) (off : BitVec 24),
      s.pwr.st = .run →
      ∃ t, exec (.eccScrub (.kept (.wrxCounts n)) off) s = .next t
        ∧ (vget t.uhf.wrx n.val Wrx.reset).hits = 0
        ∧ (vget t.uhf.wrx n.val Wrx.reset).followLost = 0
        ∧ t.flt.uncorrected = satInc 255 s.flt.uncorrected
        ∧ t.flt.lastMem = 7 ∧ t.flt.eccAddr = off.toNat)
  ∧ (∀ (s : State) (n : Fin 2) (off : BitVec 24),
      s.pwr.st = .run →
      ∃ t, exec (.eccScrub (.kept (.canEvents n)) off) s = .next t
        ∧ (canGet t n.val).evt = 0
        ∧ t.flt.uncorrected = satInc 255 s.flt.uncorrected
        ∧ t.flt.lastMem = 7 ∧ t.flt.eccAddr = off.toNat)
  ∧ (∀ (s : State) (n : Fin 8) (off : BitVec 24),
      s.pwr.st = .run →
      ∃ t, exec (.eccScrub (.kept (.scratch n)) off) s = .next t
        ∧ vget t.spi.scratch n.val 0 = 0
        ∧ t.flt.uncorrected = satInc 255 s.flt.uncorrected
        ∧ t.flt.lastMem = 7 ∧ t.flt.eccAddr = off.toNat)
  ∧ (∀ (s : State) (off : BitVec 24),
      s.pwr.st = .run →
      s.sup.region ≠ .ride →
      s.flt.role = #v[0, 1, 2] →
      s.flt.spare = true →
      ∃ t, exec (.eccScrub (.bothCopies .b) off) s = .next t
        ∧ t.flt.count = satInc 255 s.flt.count
        ∧ t.flt.lastRole = 1
        ∧ t.flt.lastCause = 3
        ∧ t.flt.uncorrected = satInc 255 s.flt.uncorrected
        ∧ t.flt.lastMem = 1 ∧ t.flt.eccAddr = off.toNat)

/-- With c at the front, step is exec of c on the state with the queue's rest. With no command waiting the step is a tick of
the clock source (the model's choice, log 1): it answers a next state, keeps the queue empty and advances elapsed time. -/
def Obligations.StepRunsFront : Prop :=
  (∀ (c : Instr) (rest : List Instr) (s : State), s.pending = c :: rest →
      step s = exec c { s with pending := rest })
  ∧ (∀ s : State, s.pending = [] → ∃ t, step s = .next t ∧ t.pending = [] ∧ s.elapsed < t.elapsed)

/-- A command that carries VBAT above 45,000 mV, the limit of R65, faults with overstress (the fault is the model's); every
other command on every state answers a next state whose queue is the state's; none is refused. -/
def Obligations.QueueAndFaults : Prop :=
  (∀ (c : Instr) (s : State), (∃ mv, vbatOf c = some mv ∧ 45000 < mv) → exec c s = .fault .overstress)
  ∧ (∀ (c : Instr) (s : State), (∀ mv, vbatOf c = some mv → mv ≤ 45000) → ∃ t, exec c s = .next t ∧ t.pending = s.pending)

/-- After every step, from every state, SP_A and SP_B read as the latch says, the latch is in permit only where no level
denies it, and no event waits to reach its subscribers. -/
def Obligations.PermitPinsFollowLatch : Prop :=
  (∀ s t : State, step s = .next t → t.permit.spA = t.permit.latch ∧ t.permit.spB = t.permit.latch)
  ∧ (∀ s t : State, step s = .next t → Settled t)

/-- If the addressed memories of a state are in canonical form (addresses rising, no entry equal to what an unlisted address
reads as), so are those of the state after any step. -/
def Obligations.StepKeepsMemoryWf : Prop :=
  (∀ s t : State, Memory.wf s = true → step s = .next t → Memory.wf t = true)

/-- The reset state has the permit in deny with its pins, no session, no command waiting, no event undelivered, start-up to
run from its first step, no interrupt pending or enabled, LOCK_SYS clear, every page without a session, an empty
timetable, and both memories reading as the model chose for bytes nothing has written (0 and 0xFF, log 9) in canonical
form. -/
def Obligations.ResetState : Prop :=
  (Settled State.reset ∧ Memory.wf State.reset = true ∧ FreshReset State.reset ∧ State.reset.pending = [])
  ∧ (State.reset.permit.latch = false ∧ State.reset.permit.spA = false ∧ State.reset.permit.spB = false ∧ State.reset.acc.sessOpen = false)
  ∧ (irqStat State.reset = 0 ∧ State.reset.spi.irqEn = 0 ∧ State.reset.spi.lock = false ∧ (∀ p < 8, (pageGet State.reset p).aspKey = none))
  ∧ ((∀ a, memGet 0 State.reset.win a = 0) ∧ (∀ a, memGet 0xFF State.reset.flash a = 0xFF) ∧ (∀ i < 256, ttGet State.reset i = none))

/-- Whenever a step moves the permit latch from deny to permit, a permit session is open, the grant event stands, no level
denies it, a pair holds role A, and no momentary deny reached the latch in the same cycle of the reference (R35; the
cycle as the span of "the same" is the model's, log 111). -/
def Obligations.PermitOnlyByGrant : Prop :=
  (∀ s t : State, step s = .next t → s.permit.latch = false → t.permit.latch = true →
      t.acc.sessOpen = true ∧ t.acc.evt.getLsbD 0 = true ∧ denyLevel t = false ∧ hasRole t 0 = true ∧
      s.permit.denyAt ≠ some (cycle s))

/-- SYS_LOCK_SET by a page that reaches the registers sets LOCK_SYS where CPG1 writes bit 0 as 1, and otherwise leaves it;
once set, it stays set past every command and every tick, Heath and Fallow among them, until a reset. -/
def Obligations.LockBitStays : Prop :=
  (∀ (s t : State) (c : Instr), exec c s = .next t → s.spi.lock = true → t.spi.lock = true ∨ FreshReset t)
  ∧ (∀ s t : State, s.pending = [] → step s = .next t → s.spi.lock = true → t.spi.lock = true ∨ FreshReset t)
  ∧ (∀ (s t : State) (page : Fin 8) (w : Word), pageLive s page.val = true → exec (.sysLockSet page w) s = .next t →
      t.spi.lock = (s.spi.lock || (page = 1 && w.getLsbD 0)))

/-- When the command answers a next state, every field of the state keeps its value but those the clause names, the queue
and event delivery aside; the latch is moved to permit only where the clause names it or the state had it so, and the
bytes of the window and the flash keep their values outside the bytes stored. A clause with a reset says so for the
paths without one. One clause for each command from VBAT_CRANK_HOLD_ENTRY to RESYNC_CANDIDATE_EXPIRY. -/
def Obligations.FramesOfSupplyTimeAndEngines : Prop :=
  (∀ (s t : State) mv, exec (.vbatCrankHoldEntry mv) s = .next t →
      Framed t { s with
          sup := t.sup, permit.pdDenied := t.permit.pdDenied, permit.pdBelow := t.permit.pdBelow, clk := t.clk,
          tt.entries := t.tt.entries, tt.evt := t.tt.evt, acc.eligible := t.acc.eligible, job.ops := t.job.ops,
          sw.ports := t.sw.ports, sw.evt := t.sw.evt, flt.mem := t.flt.mem })
  ∧ (∀ (s t : State) mv, exec (.vbatCrankHoldExit mv) s = .next t →
      Framed t { s with
          sup.region := t.sup.region, sup.vbat := t.sup.vbat, sup.evt := t.sup.evt, sup.shedCrank := t.sup.shedCrank,
          sup.shedVio := t.sup.shedVio, sup.vdrvSet := t.sup.vdrvSet, sup.vdrvReadyAt := t.sup.vdrvReadyAt,
          permit.pdDenied := t.permit.pdDenied, permit.pdBelow := t.permit.pdBelow, acc.eligible := t.acc.eligible })
  ∧ (∀ (s t : State) mv, exec (.vioLowShed mv) s = .next t →
      Framed t { s with
          sup.vbat := t.sup.vbat, sup.evt := t.sup.evt, sup.shedVio := t.sup.shedVio, permit.pdDenied := t.permit.pdDenied,
          permit.pdBelow := t.permit.pdBelow, clk := t.clk, tt.entries := t.tt.entries, tt.evt := t.tt.evt,
          acc.eligible := t.acc.eligible, job.ops := t.job.ops, sw.ports := t.sw.ports, sw.evt := t.sw.evt,
          flt.mem := t.flt.mem })
  ∧ (∀ (s t : State) mv vholdMv, exec (.rideThroughEntry mv vholdMv) s = .next t →
      FreshReset t ∨ (Framed t { s with
          sup := t.sup, permit.latch := t.permit.latch, permit.pdDenied := t.permit.pdDenied,
          permit.pdBelow := t.permit.pdBelow, permit.tokenAt := t.permit.tokenAt, pwr := t.pwr, ov := t.ov, clk := t.clk,
          tt.entries := t.tt.entries, tt.evt := t.tt.evt, lf.ch := t.lf.ch, lf.retestUntil := t.lf.retestUntil,
          lf.round := t.lf.round, kl.evt := t.kl.evt, uhf.trx := t.uhf.trx, uhf.wrx := t.uhf.wrx, loc := t.loc,
          acc := t.acc, job := t.job, pages := t.pages, rng.requests := t.rng.requests, rng.drawn := t.rng.drawn,
          ks.slots := t.ks.slots, nvm := t.nvm, tmp.meshDue := t.tmp.meshDue, sw := t.sw, can := t.can, diag := t.diag,
          flt.mem := t.flt.mem, win := t.win }
        ∧ ∀ a, (∀ o ∈ s.job.ops, o.result.isNone = true → a < dsDst o.desc ∨ dsDst o.desc + o.written ≤ a) → memGet 0 t.win a = memGet 0 s.win a))
  ∧ (∀ (s t : State) mv, exec (.rideThroughExit mv) s = .next t →
      Framed t { s with
          sup := t.sup, permit.latch := t.permit.latch, permit.pdDenied := t.permit.pdDenied,
          permit.pdBelow := t.permit.pdBelow, permit.tokenAt := t.permit.tokenAt, acc := t.acc, flt.mem := t.flt.mem })
  ∧ (∀ (s t : State), exec (.tHoldExpiry) s = .next t →
      FreshReset t ∨ (Framed t s))
  ∧ (∀ (s t : State) vholdMv, exec (.vholdBelowVHmin vholdMv) s = .next t →
      FreshReset t ∨ (Framed t { s with sup.vhold := t.sup.vhold }))
  ∧ (∀ (s t : State) mv, exec (.vbatPermitDeny mv) s = .next t →
      Framed t { s with
          sup.vbat := t.sup.vbat, sup.evt := t.sup.evt, permit.pdDenied := t.permit.pdDenied,
          permit.pdBelow := t.permit.pdBelow, acc.eligible := t.acc.eligible })
  ∧ (∀ (s t : State) mv, exec (.overvoltageEntry mv) s = .next t →
      Framed t { s with
          sup := t.sup, permit.latch := t.permit.latch, permit.pdDenied := t.permit.pdDenied,
          permit.pdBelow := t.permit.pdBelow, permit.tokenAt := t.permit.tokenAt, tt.entries := t.tt.entries, acc := t.acc,
          flt.mem := t.flt.mem })
  ∧ (∀ (s t : State) mv, exec (.overvoltageExit mv) s = .next t →
      Framed t { s with
          sup.region := t.sup.region, sup.vbat := t.sup.vbat, sup.evt := t.sup.evt, permit.pdDenied := t.permit.pdDenied,
          permit.pdBelow := t.permit.pdBelow, acc.eligible := t.acc.eligible })
  ∧ (∀ (s t : State) tj, exec (.thermWarn tj) s = .next t →
      Framed t { s with
          sup.evt := t.sup.evt, sup.tj := t.sup.tj, sup.thermWarn := t.sup.thermWarn, nvm.ledger := t.nvm.ledger,
          nvm.evt := t.nvm.evt, diag.evt := t.diag.evt, diag.dtcs := t.diag.dtcs, diag.waiting := t.diag.waiting,
          diag.conditions := t.diag.conditions })
  ∧ (∀ (s t : State) tj, exec (.thermDerate tj) s = .next t →
      Framed t { s with
          sup := t.sup, clk := t.clk, tt.entries := t.tt.entries, tt.evt := t.tt.evt, job.ops := t.job.ops,
          sw.ports := t.sw.ports, sw.evt := t.sw.evt, flt.mem := t.flt.mem })
  ∧ (∀ (s t : State) tj, exec (.thermOff tj) s = .next t →
      Framed t { s with
          sup := t.sup, permit.latch := t.permit.latch, permit.tokenAt := t.permit.tokenAt, pwr := t.pwr, ov := t.ov,
          clk := t.clk, tt.entries := t.tt.entries, tt.evt := t.tt.evt, lf.ch := t.lf.ch,
          lf.retestUntil := t.lf.retestUntil, lf.round := t.lf.round, kl.evt := t.kl.evt, uhf.trx := t.uhf.trx,
          uhf.wrx := t.uhf.wrx, loc := t.loc, acc := t.acc, job := t.job, pages := t.pages, rng.requests := t.rng.requests,
          rng.drawn := t.rng.drawn, ks.slots := t.ks.slots, nvm := t.nvm, tmp.meshDue := t.tmp.meshDue,
          sw.ports := t.sw.ports, sw.evt := t.sw.evt, diag := t.diag, flt.mem := t.flt.mem, win := t.win }
        ∧ ∀ a, (∀ o ∈ s.job.ops, o.result.isNone = true → a < dsDst o.desc ∨ dsDst o.desc + o.written ≤ a) → memGet 0 t.win a = memGet 0 s.win a)
  ∧ (∀ (s t : State) tj, exec (.thermReset tj) s = .next t →
      FreshReset t ∨ (Framed t { s with sup.tj := t.sup.tj }))
  ∧ (∀ (s t : State) tj, exec (.thermResponseWithdraw tj) s = .next t →
      Framed t { s with
          sup.tj := t.sup.tj, sup.thermWarn := t.sup.thermWarn, sup.thermDer := t.sup.thermDer,
          sup.thermOff := t.sup.thermOff, sup.shedTherm := t.sup.shedTherm, diag.dtcs := t.diag.dtcs,
          diag.waiting := t.diag.waiting, diag.conditions := t.diag.conditions })
  ∧ (∀ (s t : State) spaHigh spbLow spaLimit spbLimit, exec (.spOutputReadback spaHigh spbLow spaLimit spbLimit) s = .next t →
      Framed t { s with
          sup.spaFault := t.sup.spaFault, sup.spbFault := t.sup.spbFault, nvm.ledger := t.nvm.ledger, nvm.evt := t.nvm.evt,
          diag.evt := t.diag.evt, diag.dtcs := t.diag.dtcs, diag.waiting := t.diag.waiting,
          diag.conditions := t.diag.conditions, flt.evt := t.flt.evt })
  ∧ (∀ (s t : State), exec (.vdrvConverterStart) s = .next t →
      Framed t { s with
          sup.vdrvOn := t.sup.vdrvOn, sup.vdrvSet := t.sup.vdrvSet, sup.vdrvMeas := t.sup.vdrvMeas,
          sup.vdrvReadyAt := t.sup.vdrvReadyAt, sup.vdrvStopAt := t.sup.vdrvStopAt })
  ∧ (∀ (s t : State), exec (.vdrvConverterStop) s = .next t →
      Framed t { s with
          sup.vdrvOn := t.sup.vdrvOn, sup.vdrvSet := t.sup.vdrvSet, sup.vdrvLimit := t.sup.vdrvLimit,
          sup.vdrvStopAt := t.sup.vdrvStopAt })
  ∧ (∀ (s t : State) entry, exec (.vdrvWindowTimeout entry) s = .next t →
      Framed t { s with
          sup.vdrvLimit := t.sup.vdrvLimit, sup.vdrvStopAt := t.sup.vdrvStopAt, permit.latch := t.permit.latch,
          permit.tokenAt := t.permit.tokenAt, pwr := t.pwr, ov := t.ov, clk := t.clk, tt.entries := t.tt.entries,
          tt.evt := t.tt.evt, lf.ch := t.lf.ch, lf.round := t.lf.round, kl.evt := t.kl.evt, uhf.trx := t.uhf.trx,
          loc.evt := t.loc.evt, loc.fixXy := t.loc.fixXy, loc.fixZ := t.loc.fixZ, acc := t.acc, job := t.job,
          pages := t.pages, rng.requests := t.rng.requests, rng.drawn := t.rng.drawn, ks.slots := t.ks.slots, nvm := t.nvm,
          tmp.meshDue := t.tmp.meshDue, sw.ports := t.sw.ports, diag := t.diag, flt.mem := t.flt.mem, win := t.win }
        ∧ ∀ a, (∀ o ∈ s.job.ops, o.result.isNone = true → a < dsDst o.desc ∨ dsDst o.desc + o.written ≤ a) → memGet 0 t.win a = memGet 0 s.win a)
  ∧ (∀ (s t : State) vbatMv vholdMv, exec (.powerOnReset vbatMv vholdMv) s = .next t →
      FreshReset t ∨ (Framed t { s with
          sup.vbat := t.sup.vbat, sup.vhold := t.sup.vhold, sup.evt := t.sup.evt, permit.pdDenied := t.permit.pdDenied,
          permit.pdBelow := t.permit.pdBelow, acc.eligible := t.acc.eligible }))
  ∧ (∀ (s t : State) lowNs, exec (.nrstExternalLow lowNs) s = .next t →
      FreshReset t ∨ (Framed t { s with rng.drawn := t.rng.drawn }))
  ∧ (∀ (s t : State) page word, exec (.sysResetCmd page word) s = .next t →
      FreshReset t ∨ (Framed t { s with
          pwr.idleSince := t.pwr.idleSince, spi.hostErr := t.spi.hostErr, spi.status := t.spi.status }))
  ∧ (∀ (s t : State) e, exec (.startUp e) s = .next t →
      FreshReset t ∨ (Framed t { s with
          sup := t.sup, permit.latch := t.permit.latch, permit.pdDenied := t.permit.pdDenied,
          permit.pdBelow := t.permit.pdBelow, permit.tokenAt := t.permit.tokenAt, permit.denyAt := t.permit.denyAt,
          pwr := t.pwr, boot := t.boot, set := t.set, ov := t.ov, clk := t.clk, tt := t.tt, lf := t.lf, kl.evt := t.kl.evt,
          uhf.trx := t.uhf.trx, uhf.wrx := t.uhf.wrx, loc := t.loc, acc := t.acc, job := t.job, pages := t.pages,
          cip.aesEvt := t.cip.aesEvt, rng := t.rng, ks := t.ks, nvm := t.nvm, tmp := t.tmp, sw := t.sw, can := t.can,
          diag := t.diag, flt := t.flt, win := t.win }
        ∧ ∀ a, (∀ o ∈ s.job.ops, o.result.isNone = true → a < dsDst o.desc ∨ dsDst o.desc + o.written ≤ a) → memGet 0 t.win a = memGet 0 s.win a))
  ∧ (∀ (s t : State), exec (.rngFirstSeed) s = .next t →
      FreshReset t ∨ (Framed t { s with
          sup := t.sup, permit.latch := t.permit.latch, permit.tokenAt := t.permit.tokenAt, pwr := t.pwr,
          boot.rngReady := t.boot.rngReady, ov := t.ov, clk := t.clk, tt.entries := t.tt.entries, tt.evt := t.tt.evt,
          lf.ch := t.lf.ch, lf.retestUntil := t.lf.retestUntil, lf.round := t.lf.round, kl.evt := t.kl.evt,
          uhf.trx := t.uhf.trx, uhf.wrx := t.uhf.wrx, loc := t.loc, acc := t.acc, job := t.job, pages := t.pages,
          rng := t.rng, ks.slots := t.ks.slots, nvm := t.nvm, tmp.meshDue := t.tmp.meshDue, sw := t.sw, can := t.can,
          diag := t.diag, flt.mem := t.flt.mem, win := t.win }
        ∧ ∀ a, (∀ o ∈ s.job.ops, o.result.isNone = true → a < dsDst o.desc ∨ dsDst o.desc + o.written ≤ a) → memGet 0 t.win a = memGet 0 s.win a))
  ∧ (∀ (s t : State) chargeNs, exec (.vholdMeasurementComplete chargeNs) s = .next t →
      Framed t { s with
          sup := t.sup, boot.step := t.boot.step, boot.nvmReady := t.boot.nvmReady, ks.slots := t.ks.slots,
          ks.evt := t.ks.evt, nvm.ctrs := t.nvm.ctrs, nvm.ledger := t.nvm.ledger, nvm.evt := t.nvm.evt, diag := t.diag })
  ∧ (∀ (s t : State), exec (.vholdMeasurementTimeout) s = .next t →
      Framed t { s with
          sup.vholdLow := t.sup.vholdLow, sup.vholdCap := t.sup.vholdCap, sup.measured := t.sup.measured,
          sup.tHoldNs := t.sup.tHoldNs, sup.measureUntil := t.sup.measureUntil, boot.step := t.boot.step,
          boot.nvmReady := t.boot.nvmReady, ks.slots := t.ks.slots, ks.evt := t.ks.evt, nvm.ctrs := t.nvm.ctrs,
          nvm.ledger := t.nvm.ledger, nvm.evt := t.nvm.evt, diag.evt := t.diag.evt, diag.dtcs := t.diag.dtcs,
          diag.waiting := t.diag.waiting, diag.conditions := t.diag.conditions })
  ∧ (∀ (s t : State) vholdMv, exec (.retainedSettingsWrite vholdMv) s = .next t →
      Framed t { s with
          sup.vhold := t.sup.vhold, boot.swp := t.boot.swp, boot.staged := t.boot.staged, boot.swNext := t.boot.swNext,
          nvm.lower := t.nvm.lower, nvm.upper := t.nvm.upper, nvm.ledger := t.nvm.ledger, nvm.evt := t.nvm.evt,
          nvm.freeing := t.nvm.freeing, diag.evt := t.diag.evt, diag.dtcs := t.diag.dtcs, diag.waiting := t.diag.waiting,
          diag.conditions := t.diag.conditions })
  ∧ (∀ (s t : State), exec (.noPairRetry) s = .next t →
      FreshReset t ∨ (Framed t s))
  ∧ (∀ (s t : State) page key, exec (.pwrRequestHeath page key) s = .next t →
      Framed t { s with
          pwr.req := t.pwr.req, pwr.idleSince := t.pwr.idleSince, spi.hostErr := t.spi.hostErr, spi.status := t.spi.status })
  ∧ (∀ (s t : State) page key, exec (.pwrRequestFallow page key) s = .next t →
      Framed t { s with
          pwr.req := t.pwr.req, pwr.idleSince := t.pwr.idleSince, spi.hostErr := t.spi.hostErr, spi.status := t.spi.status })
  ∧ (∀ (s t : State) page key, exec (.pwrRequestCancel page key) s = .next t →
      Framed t { s with
          pwr.req := t.pwr.req, pwr.idleSince := t.pwr.idleSince, spi.hostErr := t.spi.hostErr, spi.status := t.spi.status })
  ∧ (∀ (s t : State), exec (.idleToHeathExpiry) s = .next t →
      Framed t { s with pwr.req := t.pwr.req })
  ∧ (∀ (s t : State), exec (.enterHeath) s = .next t →
      Framed t { s with
          sup := t.sup, pwr.st := t.pwr.st, pwr.req := t.pwr.req, pwr.heathSince := t.pwr.heathSince, ov := t.ov,
          clk := t.clk, tt.entries := t.tt.entries, tt.evt := t.tt.evt, lf.ch := t.lf.ch,
          lf.retestUntil := t.lf.retestUntil, lf.round := t.lf.round, kl.frames := t.kl.frames, kl.replies := t.kl.replies,
          uhf.trx := t.uhf.trx, uhf.wrx := t.uhf.wrx, loc.fixXy := t.loc.fixXy, loc.fixZ := t.loc.fixZ,
          loc.range := t.loc.range, acc := t.acc, job := t.job, pages := t.pages, cip.running := t.cip.running,
          cip.hpkRunning := t.cip.hpkRunning, rng.queue := t.rng.queue, rng.data := t.rng.data, rng.valid := t.rng.valid,
          tmp.diff := t.tmp.diff, sw := t.sw, can := t.can, diag := t.diag, spi := t.spi, flt := t.flt, win := t.win }
        ∧ (t.win = s.win ∨ t.win = []))
  ∧ (∀ (s t : State), exec (.enterFallow) s = .next t →
      Framed t { s with
          sup := t.sup, pwr := t.pwr, ov := t.ov, clk := t.clk, tt.entries := t.tt.entries, tt.evt := t.tt.evt,
          lf.ch := t.lf.ch, lf.retestUntil := t.lf.retestUntil, lf.round := t.lf.round, kl.frames := t.kl.frames,
          kl.replies := t.kl.replies, uhf.trx := t.uhf.trx, uhf.wrx := t.uhf.wrx, loc.fixXy := t.loc.fixXy,
          loc.fixZ := t.loc.fixZ, loc.range := t.loc.range, acc := t.acc, job := t.job, pages := t.pages,
          cip.running := t.cip.running, cip.hpkRunning := t.cip.hpkRunning, rng := t.rng, ks.root := t.ks.root,
          ks.slots := t.ks.slots, ks.evt := t.ks.evt, tmp.diff := t.tmp.diff, sw := t.sw, can := t.can, diag := t.diag,
          spi := t.spi, flt := t.flt, win := t.win }
        ∧ (t.win = s.win ∨ t.win = []))
  ∧ (∀ (s t : State), exec (.heathToFallowExpiry) s = .next t →
      Framed t { s with
          sup := t.sup, pwr := t.pwr, ov := t.ov, clk := t.clk, tt.entries := t.tt.entries, tt.evt := t.tt.evt,
          lf.ch := t.lf.ch, lf.retestUntil := t.lf.retestUntil, lf.round := t.lf.round, kl.frames := t.kl.frames,
          kl.replies := t.kl.replies, uhf.trx := t.uhf.trx, uhf.wrx := t.uhf.wrx, loc.fixXy := t.loc.fixXy,
          loc.fixZ := t.loc.fixZ, loc.range := t.loc.range, acc := t.acc, job := t.job, pages := t.pages,
          cip.running := t.cip.running, cip.hpkRunning := t.cip.hpkRunning, rng := t.rng, ks.root := t.ks.root,
          ks.slots := t.ks.slots, ks.evt := t.ks.evt, tmp.diff := t.tmp.diff, sw := t.sw, can := t.can, diag := t.diag,
          spi := t.spi, flt := t.flt, win := t.win }
        ∧ (t.win = s.win ∨ t.win = []))
  ∧ (∀ (s t : State) pin rising e, exec (.wakePinEdge pin rising e) s = .next t →
      Framed t { s with
          sup.vbat := t.sup.vbat, sup.evt := t.sup.evt, sup.tj := t.sup.tj, permit.pdDenied := t.permit.pdDenied,
          permit.pdBelow := t.permit.pdBelow, pwr.wakePins := t.pwr.wakePins, pwr.debounce := t.pwr.debounce,
          pwr.edgeAt := t.pwr.edgeAt, acc.eligible := t.acc.eligible })
  ∧ (∀ (s t : State) pin held, exec (.wakeDebounceEnd pin held) s = .next t →
      FreshReset t ∨ (Framed t { s with
          sup := t.sup, permit.latch := t.permit.latch, permit.tokenAt := t.permit.tokenAt, pwr := t.pwr,
          boot.pufFail := t.boot.pufFail, set := t.set, ov := t.ov, clk := t.clk, tt.entries := t.tt.entries,
          tt.evt := t.tt.evt, lf := t.lf, kl.evt := t.kl.evt, uhf.trx := t.uhf.trx, uhf.wrx := t.uhf.wrx, loc := t.loc,
          acc := t.acc, job := t.job, pages := t.pages, rng.sourceOn := t.rng.sourceOn, rng.requests := t.rng.requests,
          rng.drawn := t.rng.drawn, ks.root := t.ks.root, ks.slots := t.ks.slots, nvm := t.nvm, tmp.mode := t.tmp.mode,
          tmp.meshDue := t.tmp.meshDue, sw := t.sw, can := t.can, diag := t.diag, flt.mem := t.flt.mem, win := t.win }
        ∧ ∀ a, (∀ o ∈ s.job.ops, o.result.isNone = true → a < dsDst o.desc ∨ dsDst o.desc + o.written ≤ a) → memGet 0 t.win a = memGet 0 s.win a))
  ∧ (∀ (s t : State) e, exec (.fallowVbatWake e) s = .next t →
      FreshReset t ∨ (Framed t { s with
          sup := t.sup, permit.latch := t.permit.latch, permit.pdDenied := t.permit.pdDenied,
          permit.pdBelow := t.permit.pdBelow, permit.tokenAt := t.permit.tokenAt, pwr := t.pwr,
          boot.pufFail := t.boot.pufFail, set := t.set, ov := t.ov, clk := t.clk, tt.entries := t.tt.entries,
          tt.evt := t.tt.evt, lf := t.lf, kl.evt := t.kl.evt, uhf.trx := t.uhf.trx, uhf.wrx := t.uhf.wrx, loc := t.loc,
          acc := t.acc, job := t.job, pages := t.pages, rng.sourceOn := t.rng.sourceOn, rng.requests := t.rng.requests,
          rng.drawn := t.rng.drawn, ks.root := t.ks.root, ks.slots := t.ks.slots, nvm := t.nvm, tmp.mode := t.tmp.mode,
          tmp.meshDue := t.tmp.meshDue, sw := t.sw, can := t.can, diag := t.diag, flt.mem := t.flt.mem, win := t.win }
        ∧ ∀ a, (∀ o ∈ s.job.ops, o.result.isNone = true → a < dsDst o.desc ∨ dsDst o.desc + o.written ≤ a) → memGet 0 t.win a = memGet 0 s.win a))
  ∧ (∀ (s t : State) dom originNs correction, exec (.syncReceive dom originNs correction) s = .next t →
      Framed t { s with
          sup := t.sup, permit.latch := t.permit.latch, permit.tokenAt := t.permit.tokenAt, pwr := t.pwr, ov := t.ov,
          clk := t.clk, tt.entries := t.tt.entries, tt.evt := t.tt.evt, lf := t.lf, kl.evt := t.kl.evt, uhf := t.uhf,
          loc := t.loc, acc := t.acc, job := t.job, pages := t.pages, rng.requests := t.rng.requests,
          rng.drawn := t.rng.drawn, ks.slots := t.ks.slots, nvm := t.nvm, tmp.meshDue := t.tmp.meshDue,
          sw.ports := t.sw.ports, sw.evt := t.sw.evt, diag := t.diag, flt.mem := t.flt.mem, win := t.win }
        ∧ ∀ a, (∀ o ∈ s.job.ops, o.result.isNone = true → a < dsDst o.desc ∨ dsDst o.desc + o.written ≤ a) → memGet 0 t.win a = memGet 0 s.win a)
  ∧ (∀ (s t : State) dom gm steps path, exec (.announceReceive dom gm steps path) s = .next t →
      Framed t { s with
          clk.mode := t.clk.mode, clk.sel := t.clk.sel, clk.freqAdj := t.clk.freqAdj, clk.learning := t.clk.learning,
          clk.pri := t.clk.pri, clk.red := t.clk.red, clk.evt := t.clk.evt, flt.mem := t.flt.mem })
  ∧ (∀ (s t : State) port t2 t3 c2 c3, exec (.pdelayExchangeComplete port t2 t3 c2 c3) s = .next t →
      Framed t { s with
          clk.mode := t.clk.mode, clk.sel := t.clk.sel, clk.freqAdj := t.clk.freqAdj, clk.learning := t.clk.learning,
          clk.pri := t.clk.pri, clk.red := t.clk.red, clk.evt := t.clk.evt, clk.ports := t.clk.ports, flt.mem := t.flt.mem })
  ∧ (∀ (s t : State) port, exec (.pdelayRequestTransmit port) s = .next t →
      Framed t { s with clk.ports := t.clk.ports })
  ∧ (∀ (s t : State) dom, exec (.syncReceiptTimeout dom) s = .next t →
      Framed t { s with
          clk.mode := t.clk.mode, clk.sel := t.clk.sel, clk.freqAdj := t.clk.freqAdj, clk.learning := t.clk.learning,
          clk.pri := t.clk.pri, clk.red := t.clk.red, clk.evt := t.clk.evt, flt.mem := t.flt.mem })
  ∧ (∀ (s t : State) dom, exec (.suspectHoldExpiry dom) s = .next t →
      Framed t { s with
          clk.mode := t.clk.mode, clk.sel := t.clk.sel, clk.freqAdj := t.clk.freqAdj, clk.learning := t.clk.learning,
          clk.pri := t.clk.pri, clk.red := t.clk.red, clk.evt := t.clk.evt, clk.ports := t.clk.ports, flt.mem := t.flt.mem })
  ∧ (∀ (s t : State) dom, exec (.syncTransmit dom) s = .next t →
      Framed t { s with clk.pri := t.clk.pri, clk.red := t.clk.red })
  ∧ (∀ (s t : State) tempC, exec (.holdoverBinLearn tempC) s = .next t →
      Framed t { s with clk.table := t.clk.table, clk.learning := t.clk.learning })
  ∧ (∀ (s t : State) cycles ticks, exec (.rtcTrim cycles ticks) s = .next t →
      Framed t { s with
          clk.tickInc := t.clk.tickInc, clk.ratio := t.clk.ratio, clk.trimCycles := t.clk.trimCycles,
          clk.trimTicks := t.clk.trimTicks })
  ∧ (∀ (s t : State) page n word, exec (.tpoArm page n word) s = .next t →
      Framed t { s with
          pwr.idleSince := t.pwr.idleSince, clk.tpo := t.clk.tpo, spi.hostErr := t.spi.hostErr, spi.status := t.spi.status })
  ∧ (∀ (s t : State) n, exec (.tpoFire n) s = .next t →
      Framed t { s with clk.tpo := t.clk.tpo })
  ∧ (∀ (s t : State) page, exec (.timNowLoRead page) s = .next t →
      Framed t { s with
          pwr.idleSince := t.pwr.idleSince, clk.nowHi := t.clk.nowHi, spi.hostErr := t.spi.hostErr,
          spi.status := t.spi.status, spi.rdata := t.spi.rdata, spi.rcrc := t.spi.rcrc })
  ∧ (∀ (s t : State) entry, exec (.entryPreparation entry) s = .next t →
      Framed t { s with
          sup.vdrvOn := t.sup.vdrvOn, sup.vdrvSet := t.sup.vdrvSet, sup.vdrvMeas := t.sup.vdrvMeas,
          sup.vdrvReadyAt := t.sup.vdrvReadyAt, sup.vdrvStopAt := t.sup.vdrvStopAt, pwr.wakeSrc := t.pwr.wakeSrc,
          pwr.heathSince := t.pwr.heathSince, tt.entries := t.tt.entries, uhf.trx := t.uhf.trx, sw.ports := t.sw.ports,
          sw.evt := t.sw.evt })
  ∧ (∀ (s t : State) entry, exec (.entryDue entry) s = .next t →
      Framed t { s with
          sup := t.sup, permit.latch := t.permit.latch, permit.tokenAt := t.permit.tokenAt, pwr := t.pwr, ov := t.ov,
          clk := t.clk, tt.entries := t.tt.entries, tt.evt := t.tt.evt, lf := t.lf, kl.evt := t.kl.evt, uhf := t.uhf,
          loc := t.loc, acc := t.acc, job := t.job, pages := t.pages, rng.requests := t.rng.requests,
          rng.drawn := t.rng.drawn, ks.slots := t.ks.slots, nvm := t.nvm, tmp.meshDue := t.tmp.meshDue,
          sw.ports := t.sw.ports, sw.evt := t.sw.evt, diag := t.diag, flt.mem := t.flt.mem, win := t.win }
        ∧ ∀ a, (∀ o ∈ s.job.ops, o.result.isNone = true → a < dsDst o.desc ∨ dsDst o.desc + o.written ≤ a) → memGet 0 t.win a = memGet 0 s.win a)
  ∧ (∀ (s t : State) entry, exec (.entryWaitEnd entry) s = .next t →
      Framed t { s with
          sup := t.sup, permit.latch := t.permit.latch, permit.tokenAt := t.permit.tokenAt, pwr := t.pwr, ov := t.ov,
          clk := t.clk, tt.entries := t.tt.entries, tt.evt := t.tt.evt, lf := t.lf, kl.evt := t.kl.evt, uhf := t.uhf,
          loc := t.loc, acc := t.acc, job := t.job, pages := t.pages, rng.requests := t.rng.requests,
          rng.drawn := t.rng.drawn, ks.slots := t.ks.slots, nvm := t.nvm, tmp.meshDue := t.tmp.meshDue,
          sw.ports := t.sw.ports, sw.evt := t.sw.evt, diag := t.diag, flt.mem := t.flt.mem, win := t.win }
        ∧ ∀ a, (∀ o ∈ s.job.ops, o.result.isNone = true → a < dsDst o.desc ∨ dsDst o.desc + o.written ≤ a) → memGet 0 t.win a = memGet 0 s.win a)
  ∧ (∀ (s t : State) entry, exec (.frameLaunch entry) s = .next t →
      Framed t { s with
          tt.entries := t.tt.entries, tt.evt := t.tt.evt, job.ops := t.job.ops, sw.ports := t.sw.ports, sw.evt := t.sw.evt,
          can := t.can })
  ∧ (∀ (s t : State) entry e, exec (.lfFrameComplete entry e) s = .next t →
      Framed t { s with
          sup.vdrvLimit := t.sup.vdrvLimit, sup.vdrvStopAt := t.sup.vdrvStopAt, permit.latch := t.permit.latch,
          permit.tokenAt := t.permit.tokenAt, pwr := t.pwr, ov := t.ov, clk := t.clk, tt.entries := t.tt.entries,
          tt.evt := t.tt.evt, lf := t.lf, kl := t.kl, uhf.trx := t.uhf.trx, uhf.wrx := t.uhf.wrx, loc := t.loc,
          acc := t.acc, job := t.job, pages := t.pages, rng.requests := t.rng.requests, rng.drawn := t.rng.drawn,
          ks.slots := t.ks.slots, nvm := t.nvm, tmp.meshDue := t.tmp.meshDue, diag := t.diag, flt.mem := t.flt.mem,
          win := t.win }
        ∧ ∀ a, (∀ o ∈ s.job.ops, o.result.isNone = true → a < dsDst o.desc ∨ dsDst o.desc + o.written ≤ a) → memGet 0 t.win a = memGet 0 s.win a)
  ∧ (∀ (s t : State) entry e, exec (.scanPatternStart entry e) s = .next t →
      Framed t { s with
          sup.lfScale := t.sup.lfScale, sup.vdrvLimit := t.sup.vdrvLimit, tt.entries := t.tt.entries, lf.evt := t.lf.evt,
          lf.ch := t.lf.ch, lf.drive := t.lf.drive })
  ∧ (∀ (s t : State) entry, exec (.scanComplete entry) s = .next t →
      Framed t { s with
          sup.vdrvLimit := t.sup.vdrvLimit, sup.vdrvStopAt := t.sup.vdrvStopAt, permit.latch := t.permit.latch,
          permit.tokenAt := t.permit.tokenAt, pwr := t.pwr, ov := t.ov, clk := t.clk, tt.entries := t.tt.entries,
          tt.evt := t.tt.evt, lf.ch := t.lf.ch, lf.retestUntil := t.lf.retestUntil, lf.round := t.lf.round,
          kl.evt := t.kl.evt, uhf.trx := t.uhf.trx, uhf.wrx := t.uhf.wrx, loc := t.loc, acc := t.acc, job := t.job,
          pages := t.pages, rng.requests := t.rng.requests, rng.drawn := t.rng.drawn, ks.slots := t.ks.slots, nvm := t.nvm,
          tmp.meshDue := t.tmp.meshDue, diag := t.diag, flt.mem := t.flt.mem, win := t.win }
        ∧ ∀ a, (∀ o ∈ s.job.ops, o.result.isNone = true → a < dsDst o.desc ∨ dsDst o.desc + o.written ≤ a) → memGet 0 t.win a = memGet 0 s.win a)
  ∧ (∀ (s t : State) entry re im, exec (.pingComplete entry re im) s = .next t →
      Framed t { s with
          sup.vdrvLimit := t.sup.vdrvLimit, sup.vdrvStopAt := t.sup.vdrvStopAt, permit.latch := t.permit.latch,
          permit.tokenAt := t.permit.tokenAt, pwr := t.pwr, ov := t.ov, clk := t.clk, tt.entries := t.tt.entries,
          tt.evt := t.tt.evt, lf := t.lf, kl.evt := t.kl.evt, uhf.trx := t.uhf.trx, uhf.wrx := t.uhf.wrx, loc := t.loc,
          acc := t.acc, job := t.job, pages := t.pages, rng.requests := t.rng.requests, rng.drawn := t.rng.drawn,
          ks.slots := t.ks.slots, nvm := t.nvm, tmp.meshDue := t.tmp.meshDue, diag := t.diag, flt.mem := t.flt.mem,
          win := t.win }
        ∧ ∀ a, (∀ o ∈ s.job.ops, o.result.isNone = true → a < dsDst o.desc ∨ dsDst o.desc + o.written ≤ a) → memGet 0 t.win a = memGet 0 s.win a)
  ∧ (∀ (s t : State) ch kind, exec (.lfChannelShort ch kind) s = .next t →
      Framed t { s with
          sup.vdrvLimit := t.sup.vdrvLimit, sup.vdrvStopAt := t.sup.vdrvStopAt, permit.latch := t.permit.latch,
          permit.tokenAt := t.permit.tokenAt, pwr := t.pwr, ov := t.ov, clk := t.clk, tt.entries := t.tt.entries,
          tt.evt := t.tt.evt, lf := t.lf, kl.evt := t.kl.evt, uhf.trx := t.uhf.trx, uhf.wrx := t.uhf.wrx, loc := t.loc,
          acc := t.acc, job := t.job, pages := t.pages, rng.requests := t.rng.requests, rng.drawn := t.rng.drawn,
          ks.slots := t.ks.slots, nvm := t.nvm, tmp.meshDue := t.tmp.meshDue, diag := t.diag, flt.mem := t.flt.mem,
          win := t.win }
        ∧ ∀ a, (∀ o ∈ s.job.ops, o.result.isNone = true → a < dsDst o.desc ∨ dsDst o.desc + o.written ≤ a) → memGet 0 t.win a = memGet 0 s.win a)
  ∧ (∀ (s t : State) ch clean zMag, exec (.lfChannelRetest ch clean zMag) s = .next t →
      Framed t { s with
          lf.evt := t.lf.evt, lf.ch := t.lf.ch, lf.retestUntil := t.lf.retestUntil, diag.dtcs := t.diag.dtcs,
          diag.waiting := t.diag.waiting, diag.conditions := t.diag.conditions })
  ∧ (∀ (s t : State), exec (.roundEnd) s = .next t →
      Framed t { s with
          sup.vdrvLimit := t.sup.vdrvLimit, sup.vdrvStopAt := t.sup.vdrvStopAt, pwr.idleSince := t.pwr.idleSince,
          ov := t.ov, tt.entries := t.tt.entries, lf.ch := t.lf.ch, lf.round := t.lf.round, kl.evt := t.kl.evt,
          acc := t.acc, ks.slots := t.ks.slots, diag.conns := t.diag.conns, diag.routine := t.diag.routine })
  ∧ (∀ (s t : State) entry telegrams peakRssi, exec (.rxWindowComplete entry telegrams peakRssi) s = .next t →
      FreshReset t ∨ (Framed t { s with
          sup := t.sup, permit.latch := t.permit.latch, permit.tokenAt := t.permit.tokenAt, pwr := t.pwr, ov := t.ov,
          clk := t.clk, tt.entries := t.tt.entries, tt.evt := t.tt.evt, lf.ch := t.lf.ch,
          lf.retestUntil := t.lf.retestUntil, lf.round := t.lf.round, kl.evt := t.kl.evt, uhf.trx := t.uhf.trx,
          uhf.wrx := t.uhf.wrx, loc := t.loc, acc := t.acc, job := t.job, pages := t.pages, rng.requests := t.rng.requests,
          rng.drawn := t.rng.drawn, ks.slots := t.ks.slots, nvm := t.nvm, tmp.meshDue := t.tmp.meshDue, sw := t.sw,
          can := t.can, diag := t.diag, flt.mem := t.flt.mem, win := t.win }
        ∧ ∀ a, (∀ o ∈ s.job.ops, o.result.isNone = true → a < dsDst o.desc ∨ dsDst o.desc + o.written ≤ a) → memGet 0 t.win a = memGet 0 s.win a))
  ∧ (∀ (s t : State) entry, exec (.txWindowComplete entry) s = .next t →
      Framed t { s with
          sup.vdrvLimit := t.sup.vdrvLimit, sup.vdrvStopAt := t.sup.vdrvStopAt, permit.latch := t.permit.latch,
          permit.tokenAt := t.permit.tokenAt, pwr := t.pwr, ov := t.ov, clk := t.clk, tt.entries := t.tt.entries,
          tt.evt := t.tt.evt, lf.ch := t.lf.ch, lf.round := t.lf.round, kl.evt := t.kl.evt, uhf.trx := t.uhf.trx,
          loc := t.loc, acc := t.acc, job := t.job, pages := t.pages, rng.requests := t.rng.requests,
          rng.drawn := t.rng.drawn, ks.slots := t.ks.slots, nvm := t.nvm, tmp.meshDue := t.tmp.meshDue, diag := t.diag,
          flt.mem := t.flt.mem, win := t.win }
        ∧ ∀ a, (∀ o ∈ s.job.ops, o.result.isNone = true → a < dsDst o.desc ∨ dsDst o.desc + o.written ≤ a) → memGet 0 t.win a = memGet 0 s.win a)
  ∧ (∀ (s t : State) entry e, exec (.rangingComplete entry e) s = .next t →
      Framed t { s with
          sup.vdrvLimit := t.sup.vdrvLimit, sup.vdrvStopAt := t.sup.vdrvStopAt, permit.latch := t.permit.latch,
          permit.tokenAt := t.permit.tokenAt, pwr := t.pwr, ov := t.ov, clk := t.clk, tt.entries := t.tt.entries,
          tt.evt := t.tt.evt, lf.ch := t.lf.ch, lf.round := t.lf.round, kl.evt := t.kl.evt, uhf.trx := t.uhf.trx,
          loc := t.loc, acc := t.acc, job := t.job, pages := t.pages, rng.requests := t.rng.requests,
          rng.drawn := t.rng.drawn, ks.slots := t.ks.slots, nvm := t.nvm, tmp.meshDue := t.tmp.meshDue, diag := t.diag,
          flt.mem := t.flt.mem, win := t.win }
        ∧ ∀ a, (∀ o ∈ s.job.ops, o.result.isNone = true → a < dsDst o.desc ∨ dsDst o.desc + o.written ≤ a) → memGet 0 t.win a = memGet 0 s.win a)
  ∧ (∀ (s t : State) n chips, exec (.wrxMatch n chips) s = .next t →
      Framed t { s with
          pwr.wakeSrc := t.pwr.wakeSrc, pwr.heathSince := t.pwr.heathSince, tt.entries := t.tt.entries,
          uhf.wrx := t.uhf.wrx, uhf.evt := t.uhf.evt })
  ∧ (∀ (s t : State) n, exec (.wrxWindowEnd n) s = .next t →
      Framed t { s with
          sup.vdrvLimit := t.sup.vdrvLimit, sup.vdrvStopAt := t.sup.vdrvStopAt, permit.latch := t.permit.latch,
          permit.tokenAt := t.permit.tokenAt, pwr := t.pwr, ov := t.ov, clk := t.clk, tt.entries := t.tt.entries,
          tt.evt := t.tt.evt, lf.ch := t.lf.ch, lf.round := t.lf.round, kl.evt := t.kl.evt, uhf.trx := t.uhf.trx,
          uhf.wrx := t.uhf.wrx, loc := t.loc, acc := t.acc, job := t.job, pages := t.pages, rng.requests := t.rng.requests,
          rng.drawn := t.rng.drawn, ks.slots := t.ks.slots, nvm := t.nvm, tmp.meshDue := t.tmp.meshDue, diag := t.diag,
          flt.mem := t.flt.mem, win := t.win }
        ∧ ∀ a, (∀ o ∈ s.job.ops, o.result.isNone = true → a < dsDst o.desc ∨ dsDst o.desc + o.written ≤ a) → memGet 0 t.win a = memGet 0 s.win a)
  ∧ (∀ (s t : State) n, exec (.trxSleepTimeout n) s = .next t →
      Framed t { s with uhf.trx := t.uhf.trx })
  ∧ (∀ (s t : State) tempC, exec (.calTemperatureRead tempC) s = .next t →
      Framed t { s with
          clk.mode := t.clk.mode, clk.freqAdj := t.clk.freqAdj, uhf.trx := t.uhf.trx, uhf.temp := t.uhf.temp })
  ∧ (∀ (s t : State) n band, exec (.uhfCalStart n band) s = .next t →
      Framed t { s with uhf.trx := t.uhf.trx })
  ∧ (∀ (s t : State) n failed, exec (.uhfCalComplete n failed) s = .next t →
      Framed t { s with
          uhf.trx := t.uhf.trx, uhf.evt := t.uhf.evt, nvm.ledger := t.nvm.ledger, nvm.evt := t.nvm.evt,
          diag.evt := t.diag.evt, diag.dtcs := t.diag.dtcs, diag.waiting := t.diag.waiting,
          diag.conditions := t.diag.conditions })
  ∧ (∀ (s t : State) n relocked, exec (.trxLockTimeout n relocked) s = .next t →
      Framed t { s with
          sup.vdrvLimit := t.sup.vdrvLimit, sup.vdrvStopAt := t.sup.vdrvStopAt, permit.latch := t.permit.latch,
          permit.tokenAt := t.permit.tokenAt, pwr := t.pwr, ov := t.ov, clk := t.clk, tt.entries := t.tt.entries,
          tt.evt := t.tt.evt, lf.ch := t.lf.ch, lf.round := t.lf.round, kl.evt := t.kl.evt, uhf.trx := t.uhf.trx,
          uhf.evt := t.uhf.evt, loc := t.loc, acc := t.acc, job := t.job, pages := t.pages, rng.requests := t.rng.requests,
          rng.drawn := t.rng.drawn, ks.slots := t.ks.slots, nvm := t.nvm, tmp.meshDue := t.tmp.meshDue, diag := t.diag,
          flt.mem := t.flt.mem, win := t.win }
        ∧ ∀ a, (∀ o ∈ s.job.ops, o.result.isNone = true → a < dsDst o.desc ∨ dsDst o.desc + o.written ≤ a) → memGet 0 t.win a = memGet 0 s.win a)
  ∧ (∀ (s t : State) page word, exec (.uhfCalCmd page word) s = .next t →
      Framed t { s with
          pwr.idleSince := t.pwr.idleSince, uhf.trx := t.uhf.trx, spi.hostErr := t.spi.hostErr, spi.status := t.spi.status })
  ∧ (∀ (s t : State), exec (.queuedTriggerStart) s = .next t →
      Framed t { s with
          pwr.idleSince := t.pwr.idleSince, ov := t.ov, tt.entries := t.tt.entries, lf.ch := t.lf.ch, acc := t.acc,
          rng.requests := t.rng.requests, rng.drawn := t.rng.drawn, ks.slots := t.ks.slots, diag.conns := t.diag.conns,
          diag.routine := t.diag.routine })
  ∧ (∀ (s t : State) vholdMv, exec (.fusion vholdMv) s = .next t →
      Framed t { s with
          sup.vhold := t.sup.vhold, permit.latch := t.permit.latch, permit.tokenAt := t.permit.tokenAt,
          pwr.idleSince := t.pwr.idleSince, ov := t.ov, tt.entries := t.tt.entries, loc.evt := t.loc.evt, acc := t.acc,
          job.rings := t.job.rings, job.free := t.job.free, job.fetched := t.job.fetched, ks.slots := t.ks.slots,
          nvm.ctrs := t.nvm.ctrs, nvm.ledger := t.nvm.ledger, nvm.evt := t.nvm.evt, diag := t.diag, flt.mem := t.flt.mem })
  ∧ (∀ (s t : State), exec (.wakeFrameRepeat) s = .next t →
      Framed t { s with
          pwr := t.pwr, ov := t.ov, clk := t.clk, tt.entries := t.tt.entries, tt.evt := t.tt.evt, lf.ch := t.lf.ch,
          uhf.trx := t.uhf.trx, acc := t.acc, job := t.job, pages := t.pages, rng.requests := t.rng.requests,
          rng.drawn := t.rng.drawn, ks.slots := t.ks.slots, nvm.ctrs := t.nvm.ctrs, nvm.ledger := t.nvm.ledger,
          nvm.evt := t.nvm.evt, tmp.meshDue := t.tmp.meshDue, diag := t.diag, flt.mem := t.flt.mem, win := t.win }
        ∧ ∀ a, (∀ o ∈ s.job.ops, o.result.isNone = true → a < dsDst o.desc ∨ dsDst o.desc + o.written ≤ a) → memGet 0 t.win a = memGet 0 s.win a)
  ∧ (∀ (s t : State), exec (.tokenSlot) s = .next t →
      Framed t { s with
          permit.tokenAt := t.permit.tokenAt, tt.entries := t.tt.entries, acc := t.acc, job := t.job, pages := t.pages,
          rng.requests := t.rng.requests, flt.mem := t.flt.mem, win := t.win }
        ∧ ∀ a, (∀ o ∈ s.job.ops, o.result.isNone = true → a < dsDst o.desc ∨ dsDst o.desc + o.written ≤ a) → memGet 0 t.win a = memGet 0 s.win a)
  ∧ (∀ (s t : State), exec (.tokenLoss) s = .next t →
      Framed t { s with
          permit.denyAt := t.permit.denyAt, acc.evt := t.acc.evt, acc.sessOpen := t.acc.sessOpen,
          acc.eligible := t.acc.eligible, acc.holdUntil := t.acc.holdUntil, acc.slot := t.acc.slot,
          acc.denyLeft := t.acc.denyLeft })
  ∧ (∀ (s t : State), exec (.holdExpiry) s = .next t →
      Framed t { s with
          permit.denyAt := t.permit.denyAt, acc.evt := t.acc.evt, acc.sessOpen := t.acc.sessOpen,
          acc.eligible := t.acc.eligible, acc.holdUntil := t.acc.holdUntil, acc.denyLeft := t.acc.denyLeft,
          acc.decisions := t.acc.decisions, flt.mem := t.flt.mem })
  ∧ (∀ (s t : State) cred, exec (.resyncCandidateExpiry cred) s = .next t →
      Framed t { s with acc.resync := t.acc.resync })

/-- When the command answers a next state, every field of the state keeps its value but those the clause names, the queue
and event delivery aside; the latch is moved to permit only where the clause names it or the state had it so, and the
bytes of the window and the flash keep their values outside the bytes stored. A clause with a reset says so for the
paths without one. One clause for each command from RING_PI_WRITE to NVM_RUN_FREEING. -/
def Obligations.FramesOfJobsAndKeys : Prop :=
  (∀ (s t : State) page ring pi, exec (.ringPiWrite page ring pi) s = .next t →
      Framed t { s with
          pwr.idleSince := t.pwr.idleSince, job.rings := t.job.rings, spi.hostErr := t.spi.hostErr,
          spi.status := t.spi.status })
  ∧ (∀ (s t : State) page ring cfg, exec (.ringEnable page ring cfg) s = .next t →
      Framed t { s with
          pwr.idleSince := t.pwr.idleSince, job.rings := t.job.rings, spi.hostErr := t.spi.hostErr,
          spi.status := t.spi.status })
  ∧ (∀ (s t : State) page ring cfg, exec (.ringDisable page ring cfg) s = .next t →
      Framed t { s with
          pwr.idleSince := t.pwr.idleSince, job.rings := t.job.rings, spi.hostErr := t.spi.hostErr,
          spi.status := t.spi.status })
  ∧ (∀ (s t : State) page ring ci, exec (.ringCqCiWrite page ring ci) s = .next t →
      Framed t { s with
          pwr.idleSince := t.pwr.idleSince, job.rings := t.job.rings, spi.hostErr := t.spi.hostErr,
          spi.status := t.spi.status, flt.mem := t.flt.mem })
  ∧ (∀ (s t : State) ring eccError, exec (.descriptorFetch ring eccError) s = .next t →
      Framed t { s with
          job.rings := t.job.rings, job.ops := t.job.ops, job.free := t.job.free, job.evt := t.job.evt,
          job.fetched := t.job.fetched, job.last := t.job.last, flt.evt := t.flt.evt, flt.uncorrected := t.flt.uncorrected,
          flt.lastMem := t.flt.lastMem, flt.eccAddr := t.flt.eccAddr, flt.mem := t.flt.mem })
  ∧ (∀ (s t : State) tag eccError, exec (.operationComplete tag eccError) s = .next t →
      Framed t { s with
          job.rings := t.job.rings, job.ops := t.job.ops, job.free := t.job.free, job.evt := t.job.evt,
          cip.running := t.cip.running, cip.hpkRunning := t.cip.hpkRunning, spi.ringIrq := t.spi.ringIrq,
          flt.evt := t.flt.evt, flt.uncorrected := t.flt.uncorrected, flt.lastMem := t.flt.lastMem,
          flt.eccAddr := t.flt.eccAddr, flt.mem := t.flt.mem, win := t.win }
        ∧ ∀ a, (∀ o, opFind s tag.val = some o → (a < dsDst o.desc ∨ dsDst o.desc + dsDstLen o.desc ≤ a) ∧ (a < (ringGet s o.ring).cbase + 32 * ((ringGet s o.ring).cqPi.toNat % depthOf (ringGet s o.ring).depth) ∨ (ringGet s o.ring).cbase + 32 * ((ringGet s o.ring).cqPi.toNat % depthOf (ringGet s o.ring).depth) + 32 ≤ a)) → memGet 0 t.win a = memGet 0 s.win a)
  ∧ (∀ (s t : State) tag blocks, exec (.aesBlockJob tag blocks) s = .next t →
      Framed t { s with
          job.ops := t.job.ops, job.urgentRun := t.job.urgentRun, pages := t.pages, cip.running := t.cip.running,
          cip.aesEvt := t.cip.aesEvt, rng.requests := t.rng.requests, win := t.win }
        ∧ ∀ a, (∀ o, opLive s tag.val 1 = some o → a < dsDst o.desc ∨ dsDst o.desc + 16 * caCount (dsParams o.desc) ≤ a) → memGet 0 t.win a = memGet 0 s.win a)
  ∧ (∀ (s t : State) tag blocks, exec (.aesJobResume tag blocks) s = .next t →
      Framed t { s with
          job.ops := t.job.ops, job.urgentRun := t.job.urgentRun, pages := t.pages, cip.running := t.cip.running,
          rng.requests := t.rng.requests, win := t.win }
        ∧ ∀ a, (∀ o, opLive s tag.val 1 = some o → a < dsDst o.desc ∨ dsDst o.desc + 16 * caCount (dsParams o.desc) ≤ a) → memGet 0 t.win a = memGet 0 s.win a)
  ∧ (∀ (s t : State) tag, exec (.gateJob tag) s = .next t →
      Framed t { s with
          job.ops := t.job.ops, job.urgentRun := t.job.urgentRun, pages := t.pages, cip.running := t.cip.running,
          cip.aesEvt := t.cip.aesEvt })
  ∧ (∀ (s t : State) page word, exec (.cpgGateClear page word) s = .next t →
      Framed t { s with pages := t.pages })
  ∧ (∀ (s t : State), exec (.cipherParityError) s = .next t →
      FreshReset t ∨ (Framed t { s with
          sup := t.sup, permit.latch := t.permit.latch, permit.tokenAt := t.permit.tokenAt,
          permit.denyAt := t.permit.denyAt, pwr := t.pwr, boot.pufFail := t.boot.pufFail, set := t.set, ov := t.ov,
          clk := t.clk, tt.entries := t.tt.entries, tt.evt := t.tt.evt, lf := t.lf, kl.evt := t.kl.evt,
          uhf.trx := t.uhf.trx, uhf.wrx := t.uhf.wrx, loc := t.loc, acc := t.acc, job := t.job, pages := t.pages,
          cip.running := t.cip.running, cip.aesEvt := t.cip.aesEvt, cip.faults := t.cip.faults, rng := t.rng, ks := t.ks,
          nvm := t.nvm, tmp := t.tmp, sw := t.sw, can := t.can, diag := t.diag, flt.mem := t.flt.mem, win := t.win }
        ∧ ∀ a, (∀ o ∈ s.job.ops, o.result.isNone = true → a < dsDst o.desc ∨ dsDst o.desc + o.written ≤ a) → memGet 0 t.win a = memGet 0 s.win a))
  ∧ (∀ (s t : State) tag, exec (.hashJob tag) s = .next t →
      Framed t { s with job.ops := t.job.ops, pages := t.pages, cip.hpkRunning := t.cip.hpkRunning })
  ∧ (∀ (s t : State) tag, exec (.rsaVerify tag) s = .next t →
      Framed t { s with job.ops := t.job.ops, cip.hpkEvt := t.cip.hpkEvt, cip.hpkRunning := t.cip.hpkRunning })
  ∧ (∀ (s t : State) tag, exec (.rsaVerifyDigest tag) s = .next t →
      Framed t { s with job.ops := t.job.ops, cip.hpkEvt := t.cip.hpkEvt, cip.hpkRunning := t.cip.hpkRunning })
  ∧ (∀ (s t : State) tag, exec (.attest tag) s = .next t →
      Framed t { s with
          job.ops := t.job.ops, cip.hpkEvt := t.cip.hpkEvt, cip.hpkRunning := t.cip.hpkRunning, rng.queue := t.rng.queue })
  ∧ (∀ (s t : State) tag, exec (.certRead tag) s = .next t →
      Framed t { s with job.ops := t.job.ops, cip.hpkRunning := t.cip.hpkRunning })
  ∧ (∀ (s t : State) tag, exec (.randomFill tag) s = .next t →
      Framed t { s with
          job.ops := t.job.ops, rng.queue := t.rng.queue, rng.requests := t.rng.requests, rng.drawn := t.rng.drawn })
  ∧ (∀ (s t : State) tag, exec (.nvmRecordRead tag) s = .next t →
      Framed t { s with
          job.ops := t.job.ops, nvm.ledger := t.nvm.ledger, nvm.evt := t.nvm.evt, diag.evt := t.diag.evt,
          diag.dtcs := t.diag.dtcs, diag.waiting := t.diag.waiting, diag.conditions := t.diag.conditions })
  ∧ (∀ (s t : State) tag vholdMv verify1 verify2, exec (.nvmRecordWrite tag vholdMv verify1 verify2) s = .next t →
      Framed t { s with
          sup.vhold := t.sup.vhold, job.ops := t.job.ops, nvm.lower := t.nvm.lower, nvm.upper := t.nvm.upper,
          nvm.ledger := t.nvm.ledger, nvm.evt := t.nvm.evt, nvm.freeing := t.nvm.freeing, diag.evt := t.diag.evt,
          diag.dtcs := t.diag.dtcs, diag.waiting := t.diag.waiting, diag.conditions := t.diag.conditions })
  ∧ (∀ (s t : State) tag, exec (.ctrRead tag) s = .next t →
      Framed t { s with
          job.ops := t.job.ops, nvm.ctrs := t.nvm.ctrs, nvm.ledger := t.nvm.ledger, nvm.evt := t.nvm.evt,
          diag.evt := t.diag.evt, diag.dtcs := t.diag.dtcs, diag.waiting := t.diag.waiting,
          diag.conditions := t.diag.conditions })
  ∧ (∀ (s t : State) tag vholdMv, exec (.ctrInc tag vholdMv) s = .next t →
      Framed t { s with
          sup.vhold := t.sup.vhold, job.ops := t.job.ops, nvm.ctrs := t.nvm.ctrs, nvm.ledger := t.nvm.ledger,
          nvm.evt := t.nvm.evt, diag.evt := t.diag.evt, diag.dtcs := t.diag.dtcs, diag.waiting := t.diag.waiting,
          diag.conditions := t.diag.conditions })
  ∧ (∀ (s t : State) tag vholdMv, exec (.ctrAdvance tag vholdMv) s = .next t →
      Framed t { s with
          sup.vhold := t.sup.vhold, job.ops := t.job.ops, nvm.ctrs := t.nvm.ctrs, nvm.ledger := t.nvm.ledger,
          nvm.evt := t.nvm.evt, diag.evt := t.diag.evt, diag.dtcs := t.diag.dtcs, diag.waiting := t.diag.waiting,
          diag.conditions := t.diag.conditions })
  ∧ (∀ (s t : State) tag, exec (.lfFrameJob tag) s = .next t →
      Framed t { s with tt.entries := t.tt.entries, job.ops := t.job.ops })
  ∧ (∀ (s t : State) tag, exec (.uhfExchangeJob tag) s = .next t →
      Framed t { s with tt.entries := t.tt.entries, job.ops := t.job.ops })
  ∧ (∀ (s t : State) tag, exec (.rangingJob tag) s = .next t →
      Framed t { s with tt.entries := t.tt.entries, job.ops := t.job.ops })
  ∧ (∀ (s t : State) tag, exec (.solverJob tag) s = .next t →
      Framed t { s with
          loc.evt := t.loc.evt, loc.fixXy := t.loc.fixXy, loc.fixZ := t.loc.fixZ, job.ops := t.job.ops })
  ∧ (∀ (s t : State) tag, exec (.frameSendJob tag) s = .next t →
      Framed t { s with tt.entries := t.tt.entries, job.ops := t.job.ops })
  ∧ (∀ (s t : State) test, exec (.rngHealthFailure test) s = .next t →
      FreshReset t ∨ (Framed t { s with
          sup := t.sup, permit.latch := t.permit.latch, permit.tokenAt := t.permit.tokenAt, pwr := t.pwr,
          boot.rngReady := t.boot.rngReady, ov := t.ov, clk := t.clk, tt.entries := t.tt.entries, tt.evt := t.tt.evt,
          lf.ch := t.lf.ch, lf.retestUntil := t.lf.retestUntil, lf.round := t.lf.round, kl.evt := t.kl.evt,
          uhf.trx := t.uhf.trx, uhf.wrx := t.uhf.wrx, loc := t.loc, acc := t.acc, job := t.job, pages := t.pages,
          cip.aesEvt := t.cip.aesEvt, rng := t.rng, ks.slots := t.ks.slots, nvm := t.nvm, tmp.meshDue := t.tmp.meshDue,
          sw := t.sw, can := t.can, diag := t.diag, flt.mem := t.flt.mem, win := t.win }
        ∧ ∀ a, (∀ o ∈ s.job.ops, o.result.isNone = true → a < dsDst o.desc ∨ dsDst o.desc + o.written ≤ a) → memGet 0 t.win a = memGet 0 s.win a))
  ∧ (∀ (s t : State), exec (.rngRecoveryComplete) s = .next t →
      FreshReset t ∨ (Framed t { s with
          sup := t.sup, permit.latch := t.permit.latch, permit.tokenAt := t.permit.tokenAt, pwr := t.pwr,
          boot.rngReady := t.boot.rngReady, ov := t.ov, clk := t.clk, tt.entries := t.tt.entries, tt.evt := t.tt.evt,
          lf.ch := t.lf.ch, lf.retestUntil := t.lf.retestUntil, lf.round := t.lf.round, kl.evt := t.kl.evt,
          uhf.trx := t.uhf.trx, uhf.wrx := t.uhf.wrx, loc := t.loc, acc := t.acc, job := t.job, pages := t.pages,
          rng := t.rng, ks.slots := t.ks.slots, nvm := t.nvm, tmp.meshDue := t.tmp.meshDue, sw := t.sw, can := t.can,
          diag := t.diag, flt.mem := t.flt.mem, win := t.win }
        ∧ ∀ a, (∀ o ∈ s.job.ops, o.result.isNone = true → a < dsDst o.desc ∨ dsDst o.desc + o.written ≤ a) → memGet 0 t.win a = memGet 0 s.win a))
  ∧ (∀ (s t : State), exec (.rngReinstantiationComplete) s = .next t →
      FreshReset t ∨ (Framed t { s with
          sup := t.sup, permit.latch := t.permit.latch, permit.tokenAt := t.permit.tokenAt, pwr := t.pwr, ov := t.ov,
          clk := t.clk, tt.entries := t.tt.entries, tt.evt := t.tt.evt, lf.ch := t.lf.ch,
          lf.retestUntil := t.lf.retestUntil, lf.round := t.lf.round, kl.evt := t.kl.evt, uhf.trx := t.uhf.trx,
          uhf.wrx := t.uhf.wrx, loc := t.loc, acc := t.acc, job := t.job, pages := t.pages, rng := t.rng,
          ks.slots := t.ks.slots, nvm := t.nvm, tmp.meshDue := t.tmp.meshDue, sw := t.sw, can := t.can, diag := t.diag,
          flt.mem := t.flt.mem, win := t.win }
        ∧ ∀ a, (∀ o ∈ s.job.ops, o.result.isNone = true → a < dsDst o.desc ∨ dsDst o.desc + o.written ≤ a) → memGet 0 t.win a = memGet 0 s.win a))
  ∧ (∀ (s t : State), exec (.rngReseed) s = .next t →
      FreshReset t ∨ (Framed t { s with
          sup := t.sup, permit.latch := t.permit.latch, permit.tokenAt := t.permit.tokenAt, pwr := t.pwr, ov := t.ov,
          clk := t.clk, tt.entries := t.tt.entries, tt.evt := t.tt.evt, lf.ch := t.lf.ch,
          lf.retestUntil := t.lf.retestUntil, lf.round := t.lf.round, kl.evt := t.kl.evt, uhf.trx := t.uhf.trx,
          uhf.wrx := t.uhf.wrx, loc := t.loc, acc := t.acc, job := t.job, pages := t.pages, rng := t.rng,
          ks.slots := t.ks.slots, nvm := t.nvm, tmp.meshDue := t.tmp.meshDue, sw := t.sw, can := t.can, diag := t.diag,
          flt.mem := t.flt.mem, win := t.win }
        ∧ ∀ a, (∀ o ∈ s.job.ops, o.result.isNone = true → a < dsDst o.desc ∨ dsDst o.desc + o.written ≤ a) → memGet 0 t.win a = memGet 0 s.win a))
  ∧ (∀ (s t : State), exec (.rngQueueRefill) s = .next t →
      Framed t { s with rng.queue := t.rng.queue, rng.requests := t.rng.requests, rng.drawn := t.rng.drawn })
  ∧ (∀ (s t : State) page, exec (.rngData0Read page) s = .next t →
      Framed t { s with
          pwr.idleSince := t.pwr.idleSince, rng.queue := t.rng.queue, rng.data := t.rng.data, rng.valid := t.rng.valid,
          spi.hostErr := t.spi.hostErr, spi.status := t.spi.status, spi.rdata := t.spi.rdata, spi.rcrc := t.spi.rcrc })
  ∧ (∀ (s t : State) page n, exec (.rngDataHighRead page n) s = .next t →
      Framed t { s with
          pwr.idleSince := t.pwr.idleSince, rng.data := t.rng.data, spi.hostErr := t.spi.hostErr,
          spi.status := t.spi.status, spi.rdata := t.spi.rdata, spi.rcrc := t.spi.rcrc })
  ∧ (∀ (s t : State) pin, exec (.tamperPinOnset pin) s = .next t →
      FreshReset t ∨ (Framed t { s with
          sup := t.sup, permit.latch := t.permit.latch, permit.tokenAt := t.permit.tokenAt,
          permit.denyAt := t.permit.denyAt, pwr := t.pwr, boot.pufFail := t.boot.pufFail, set := t.set, ov := t.ov,
          clk := t.clk, tt.entries := t.tt.entries, tt.evt := t.tt.evt, lf := t.lf, kl.evt := t.kl.evt,
          uhf.trx := t.uhf.trx, uhf.wrx := t.uhf.wrx, loc := t.loc, acc := t.acc, job := t.job, pages := t.pages,
          cip.aesEvt := t.cip.aesEvt, rng := t.rng, ks := t.ks, nvm := t.nvm, tmp := t.tmp, sw := t.sw, can := t.can,
          diag := t.diag, flt.mem := t.flt.mem, win := t.win }
        ∧ ∀ a, (∀ o ∈ s.job.ops, o.result.isNone = true → a < dsDst o.desc ∨ dsDst o.desc + o.written ≤ a) → memGet 0 t.win a = memGet 0 s.win a))
  ∧ (∀ (s t : State) pair differs, exec (.meshSample pair differs) s = .next t →
      FreshReset t ∨ (Framed t { s with
          sup := t.sup, permit.latch := t.permit.latch, permit.tokenAt := t.permit.tokenAt,
          permit.denyAt := t.permit.denyAt, pwr := t.pwr, boot.pufFail := t.boot.pufFail, set := t.set, ov := t.ov,
          clk := t.clk, tt.entries := t.tt.entries, tt.evt := t.tt.evt, lf := t.lf, kl.evt := t.kl.evt,
          uhf.trx := t.uhf.trx, uhf.wrx := t.uhf.wrx, loc := t.loc, acc := t.acc, job := t.job, pages := t.pages,
          cip.aesEvt := t.cip.aesEvt, rng := t.rng, ks := t.ks, nvm := t.nvm, tmp := t.tmp, sw := t.sw, can := t.can,
          diag := t.diag, flt.mem := t.flt.mem, win := t.win }
        ∧ ∀ a, (∀ o ∈ s.job.ops, o.result.isNone = true → a < dsDst o.desc ∨ dsDst o.desc + o.written ≤ a) → memGet 0 t.win a = memGet 0 s.win a))
  ∧ (∀ (s t : State), exec (.supplyGlitch) s = .next t →
      FreshReset t ∨ (Framed t { s with
          sup := t.sup, permit.latch := t.permit.latch, permit.tokenAt := t.permit.tokenAt,
          permit.denyAt := t.permit.denyAt, pwr := t.pwr, boot.pufFail := t.boot.pufFail, set := t.set, ov := t.ov,
          clk := t.clk, tt.entries := t.tt.entries, tt.evt := t.tt.evt, lf := t.lf, kl.evt := t.kl.evt,
          uhf.trx := t.uhf.trx, uhf.wrx := t.uhf.wrx, loc := t.loc, acc := t.acc, job := t.job, pages := t.pages,
          cip.aesEvt := t.cip.aesEvt, rng := t.rng, ks := t.ks, nvm := t.nvm, tmp := t.tmp, sw := t.sw, can := t.can,
          diag := t.diag, flt.mem := t.flt.mem, win := t.win }
        ∧ ∀ a, (∀ o ∈ s.job.ops, o.result.isNone = true → a < dsDst o.desc ∨ dsDst o.desc + o.written ≤ a) → memGet 0 t.win a = memGet 0 s.win a))
  ∧ (∀ (s t : State), exec (.clockMonitorFault) s = .next t →
      FreshReset t ∨ (Framed t { s with
          sup := t.sup, permit.latch := t.permit.latch, permit.tokenAt := t.permit.tokenAt,
          permit.denyAt := t.permit.denyAt, pwr := t.pwr, boot.pufFail := t.boot.pufFail, set := t.set, ov := t.ov,
          clk := t.clk, tt.entries := t.tt.entries, tt.evt := t.tt.evt, lf := t.lf, kl.evt := t.kl.evt,
          uhf.trx := t.uhf.trx, uhf.wrx := t.uhf.wrx, loc := t.loc, acc := t.acc, job := t.job, pages := t.pages,
          cip.aesEvt := t.cip.aesEvt, rng := t.rng, ks := t.ks, nvm := t.nvm, tmp := t.tmp, sw := t.sw, can := t.can,
          diag := t.diag, flt.mem := t.flt.mem, win := t.win }
        ∧ ∀ a, (∀ o ∈ s.job.ops, o.result.isNone = true → a < dsDst o.desc ∨ dsDst o.desc + o.written ≤ a) → memGet 0 t.win a = memGet 0 s.win a))
  ∧ (∀ (s t : State) tj, exec (.temperatureMonitorSample tj) s = .next t →
      FreshReset t ∨ (Framed t { s with
          sup := t.sup, permit.latch := t.permit.latch, permit.tokenAt := t.permit.tokenAt,
          permit.denyAt := t.permit.denyAt, pwr := t.pwr, boot.pufFail := t.boot.pufFail, set := t.set, ov := t.ov,
          clk := t.clk, tt.entries := t.tt.entries, tt.evt := t.tt.evt, lf := t.lf, kl.evt := t.kl.evt,
          uhf.trx := t.uhf.trx, uhf.wrx := t.uhf.wrx, loc := t.loc, acc := t.acc, job := t.job, pages := t.pages,
          cip.aesEvt := t.cip.aesEvt, rng := t.rng, ks := t.ks, nvm := t.nvm, tmp := t.tmp, sw := t.sw, can := t.can,
          diag := t.diag, flt.mem := t.flt.mem, win := t.win }
        ∧ ∀ a, (∀ o ∈ s.job.ops, o.result.isNone = true → a < dsDst o.desc ∨ dsDst o.desc + o.written ≤ a) → memGet 0 t.win a = memGet 0 s.win a))
  ∧ (∀ (s t : State) vholdMv, exec (.erasePendingRetry vholdMv) s = .next t →
      Framed t { s with
          sup.vhold := t.sup.vhold, ks.classKey := t.ks.classKey, ks.epoch := t.ks.epoch, ks.evt := t.ks.evt, nvm := t.nvm,
          tmp := t.tmp, diag := t.diag })
  ∧ (∀ (s t : State) counter vholdMv, exec (.nvmPreclear counter vholdMv) s = .next t →
      Framed t { s with
          sup.vhold := t.sup.vhold, nvm.ctrs := t.nvm.ctrs, nvm.ledger := t.nvm.ledger, nvm.evt := t.nvm.evt })
  ∧ (∀ (s t : State) vholdMv, exec (.nvmRefresh vholdMv) s = .next t →
      Framed t { s with
          sup.vhold := t.sup.vhold, nvm.lower := t.nvm.lower, nvm.upper := t.nvm.upper, nvm.ledger := t.nvm.ledger,
          nvm.evt := t.nvm.evt, nvm.refresh := t.nvm.refresh })
  ∧ (∀ (s t : State) vholdMv, exec (.nvmRunFreeing vholdMv) s = .next t →
      Framed t { s with
          sup.vhold := t.sup.vhold, nvm.freeLower := t.nvm.freeLower, nvm.freeUpper := t.nvm.freeUpper,
          nvm.ledger := t.nvm.ledger, nvm.evt := t.nvm.evt, nvm.freeing := t.nvm.freeing })

/-- When the command answers a next state, every field of the state keeps its value but those the clause names, the queue
and event delivery aside; the latch is moved to permit only where the clause names it or the state had it so, and the
bytes of the window and the flash keep their values outside the bytes stored. A clause with a reset says so for the
paths without one. One clause for each command from FRAME_RECEIVE to ASP_REVERT. -/
def Obligations.FramesOfNetworkAndHost : Prop :=
  (∀ (s t : State) port bytes, exec (.frameReceive port bytes) s = .next t →
      Framed t { s with pwr.idleSince := t.pwr.idleSince, pages := t.pages, sw := t.sw })
  ∧ (∀ (s t : State) port cls, exec (.frameTransmit port cls) s = .next t →
      Framed t { s with sw.ports := t.sw.ports })
  ∧ (∀ (s t : State) port rate, exec (.linkUp port rate) s = .next t →
      Framed t { s with sw.ports := t.sw.ports, sw.evt := t.sw.evt })
  ∧ (∀ (s t : State) port, exec (.linkDown port) s = .next t →
      Framed t { s with
          clk.mode := t.clk.mode, clk.sel := t.clk.sel, clk.freqAdj := t.clk.freqAdj, clk.learning := t.clk.learning,
          clk.pri := t.clk.pri, clk.red := t.clk.red, clk.evt := t.clk.evt, clk.ports := t.clk.ports,
          tt.entries := t.tt.entries, tt.evt := t.tt.evt, job.ops := t.job.ops, sw.ports := t.sw.ports, sw.evt := t.sw.evt,
          flt.mem := t.flt.mem })
  ∧ (∀ (s t : State) mac vid, exec (.addressAgeOut mac vid) s = .next t →
      Framed t { s with sw.learnt := t.sw.learnt })
  ∧ (∀ (s t : State) fn, exec (.frerReset fn) s = .next t →
      Framed t { s with sw.evt := t.sw.evt, sw.frer := t.sw.frer })
  ∧ (∀ (s t : State) port, exec (.plcaStatusLost port) s = .next t →
      Framed t { s with sw.ports := t.sw.ports, sw.evt := t.sw.evt })
  ∧ (∀ (s t : State) port, exec (.plcaBeaconResume port) s = .next t →
      Framed t { s with sw.ports := t.sw.ports })
  ∧ (∀ (s t : State) page word, exec (.swFlowUnblock page word) s = .next t →
      Framed t { s with
          pwr.idleSince := t.pwr.idleSince, sw.flows := t.sw.flows, spi.hostErr := t.spi.hostErr,
          spi.status := t.spi.status })
  ∧ (∀ (s t : State) ctl id ext data, exec (.canFrameReceive ctl id ext data) s = .next t →
      Framed t { s with can := t.can, diag.conns := t.diag.conns })
  ∧ (∀ (s t : State) ctl, exec (.canTokenTransmit ctl) s = .next t →
      Framed t { s with can := t.can })
  ∧ (∀ (s t : State) ctl, exec (.canBusOff ctl) s = .next t →
      Framed t { s with can := t.can })
  ∧ (∀ (s t : State) ctl, exec (.canBusOffRecovery ctl) s = .next t →
      Framed t { s with can := t.can })
  ∧ (∀ (s t : State) port senderMac senderIp targetIp, exec (.arpRequest port senderMac senderIp targetIp) s = .next t →
      Framed t { s with pwr.idleSince := t.pwr.idleSince, sw := t.sw, diag.out := t.diag.out })
  ∧ (∀ (s t : State) srcMac srcIp dstIp ident seq data, exec (.icmpEchoRequest srcMac srcIp dstIp ident seq data) s = .next t →
      Framed t { s with pwr.idleSince := t.pwr.idleSince, sw := t.sw, diag.out := t.diag.out })
  ∧ (∀ (s t : State) addr len hcrc, exec (.spiRegRead addr len hcrc) s = .next t →
      Framed t { s with
          pwr.idleSince := t.pwr.idleSince, clk.nowHi := t.clk.nowHi, rng.queue := t.rng.queue, rng.data := t.rng.data,
          rng.valid := t.rng.valid, spi.hostErr := t.spi.hostErr, spi.status := t.spi.status, spi.rdata := t.spi.rdata,
          spi.rcrc := t.spi.rcrc, spi.answered := t.spi.answered })
  ∧ (∀ (s t : State) addr len hcrc data dcrc ended, exec (.spiRegWrite addr len hcrc data dcrc ended) s = .next t →
      FreshReset t ∨ (Framed t { s with
          sup.evt := t.sup.evt, pwr.req := t.pwr.req, pwr.wakeSrc := t.pwr.wakeSrc, pwr.idleSince := t.pwr.idleSince,
          clk.evt := t.clk.evt, clk.tpo := t.clk.tpo, tt.evt := t.tt.evt, lf.evt := t.lf.evt, kl.evt := t.kl.evt,
          uhf.trx := t.uhf.trx, uhf.evt := t.uhf.evt, loc.evt := t.loc.evt, acc.evt := t.acc.evt, job.rings := t.job.rings,
          job.evt := t.job.evt, pages := t.pages, cip.aesEvt := t.cip.aesEvt, cip.hpkEvt := t.cip.hpkEvt,
          rng.evt := t.rng.evt, ks.evt := t.ks.evt, nvm.evt := t.nvm.evt, tmp.evt := t.tmp.evt, sw.evt := t.sw.evt,
          sw.flows := t.sw.flows, can := t.can, diag.evt := t.diag.evt, spi := t.spi, flt.evt := t.flt.evt,
          flt.mem := t.flt.mem, win := t.win }
        ∧ ∀ a, (a + 0x200000 < addr.toNat ∨ addr.toNat + data.length ≤ a + 0x200000) → memGet 0 t.win a = memGet 0 s.win a))
  ∧ (∀ (s t : State) addr len hcrc data dcrc ended, exec (.spiAspPut addr len hcrc data dcrc ended) s = .next t →
      Framed t { s with
          pwr.idleSince := t.pwr.idleSince, pages := t.pages, spi.hostErr := t.spi.hostErr, spi.status := t.spi.status,
          spi.rdata := t.spi.rdata, spi.rcrc := t.spi.rcrc, spi.answered := t.spi.answered })
  ∧ (∀ (s t : State) addr len hcrc rcrcClocked, exec (.spiAspGet addr len hcrc rcrcClocked) s = .next t →
      Framed t { s with
          pwr.idleSince := t.pwr.idleSince, pages := t.pages, spi.hostErr := t.spi.hostErr, spi.status := t.spi.status,
          spi.rdata := t.spi.rdata, spi.rcrc := t.spi.rcrc, spi.answered := t.spi.answered })
  ∧ (∀ (s t : State) page addr word, exec (.registerWrite page addr word) s = .next t →
      FreshReset t ∨ (Framed t { s with
          sup.evt := t.sup.evt, pwr.req := t.pwr.req, pwr.wakeSrc := t.pwr.wakeSrc, pwr.idleSince := t.pwr.idleSince,
          clk.evt := t.clk.evt, clk.tpo := t.clk.tpo, tt.evt := t.tt.evt, lf.evt := t.lf.evt, kl.evt := t.kl.evt,
          uhf.trx := t.uhf.trx, uhf.evt := t.uhf.evt, loc.evt := t.loc.evt, acc.evt := t.acc.evt, job.rings := t.job.rings,
          job.evt := t.job.evt, pages := t.pages, cip.aesEvt := t.cip.aesEvt, cip.hpkEvt := t.cip.hpkEvt,
          rng.evt := t.rng.evt, ks.evt := t.ks.evt, nvm.evt := t.nvm.evt, tmp.evt := t.tmp.evt, sw.evt := t.sw.evt,
          sw.flows := t.sw.flows, can := t.can, diag.evt := t.diag.evt, spi := t.spi, flt.evt := t.flt.evt,
          flt.mem := t.flt.mem, win := t.win }
        ∧ ∀ a, (a + 0x200000 < addr.toNat ∨ addr.toNat + 4 ≤ a + 0x200000) → memGet 0 t.win a = memGet 0 s.win a))
  ∧ (∀ (s t : State) page word, exec (.sysLockSet page word) s = .next t →
      Framed t { s with
          pwr.idleSince := t.pwr.idleSince, spi.hostErr := t.spi.hostErr, spi.lock := t.spi.lock,
          spi.status := t.spi.status })
  ∧ (∀ (s t : State) page word, exec (.sysAspGateWrite page word) s = .next t →
      Framed t { s with
          pwr.idleSince := t.pwr.idleSince, pages := t.pages, spi.hostErr := t.spi.hostErr, spi.pageOff := t.spi.pageOff,
          spi.status := t.spi.status })
  ∧ (∀ (s t : State) page, exec (.aspOpen page) s = .next t →
      Framed t { s with
          pwr.idleSince := t.pwr.idleSince, pages := t.pages, rng.queue := t.rng.queue, sw := t.sw, diag.evt := t.diag.evt,
          diag.macFails := t.diag.macFails, diag.out := t.diag.out, flt.mem := t.flt.mem })
  ∧ (∀ (s t : State) page, exec (.aspClose page) s = .next t →
      Framed t { s with
          pwr.idleSince := t.pwr.idleSince, pages := t.pages, sw := t.sw, diag.evt := t.diag.evt,
          diag.macFails := t.diag.macFails, diag.out := t.diag.out, flt.mem := t.flt.mem })
  ∧ (∀ (s t : State) page, exec (.aspRegRead page) s = .next t →
      Framed t { s with
          pwr.idleSince := t.pwr.idleSince, clk.nowHi := t.clk.nowHi, pages := t.pages, rng.queue := t.rng.queue,
          rng.data := t.rng.data, rng.valid := t.rng.valid, sw := t.sw, diag.evt := t.diag.evt,
          diag.macFails := t.diag.macFails, diag.out := t.diag.out, flt.mem := t.flt.mem })
  ∧ (∀ (s t : State) page, exec (.aspRegWrite page) s = .next t →
      FreshReset t ∨ (Framed t { s with
          sup.evt := t.sup.evt, pwr.req := t.pwr.req, pwr.wakeSrc := t.pwr.wakeSrc, pwr.idleSince := t.pwr.idleSince,
          clk.evt := t.clk.evt, clk.tpo := t.clk.tpo, tt.evt := t.tt.evt, lf.evt := t.lf.evt, kl.evt := t.kl.evt,
          uhf.trx := t.uhf.trx, uhf.evt := t.uhf.evt, loc.evt := t.loc.evt, acc.evt := t.acc.evt, job.rings := t.job.rings,
          job.evt := t.job.evt, pages := t.pages, cip.aesEvt := t.cip.aesEvt, cip.hpkEvt := t.cip.hpkEvt,
          rng.evt := t.rng.evt, ks.evt := t.ks.evt, nvm.evt := t.nvm.evt, tmp.evt := t.tmp.evt, sw := t.sw, can := t.can,
          diag.evt := t.diag.evt, diag.macFails := t.diag.macFails, diag.out := t.diag.out, spi := t.spi,
          flt.evt := t.flt.evt, flt.mem := t.flt.mem, win := t.win }
        ∧ ∀ a, (∀ m r, (pageGet s page.val).inQ = m :: r → a + 0x200000 < beNat ((msBody m.bytes).take 3) ∨ beNat ((msBody m.bytes).take 3) + 4 * u8 (msBody m.bytes) 3 ≤ a + 0x200000) → memGet 0 t.win a = memGet 0 s.win a))
  ∧ (∀ (s t : State) page, exec (.aspWinRead page) s = .next t →
      Framed t { s with
          pwr.idleSince := t.pwr.idleSince, pages := t.pages, sw := t.sw, diag.evt := t.diag.evt,
          diag.macFails := t.diag.macFails, diag.out := t.diag.out, flt.mem := t.flt.mem })
  ∧ (∀ (s t : State) page, exec (.aspWinWrite page) s = .next t →
      Framed t { s with
          pwr.idleSince := t.pwr.idleSince, pages := t.pages, sw := t.sw, diag.evt := t.diag.evt,
          diag.macFails := t.diag.macFails, diag.out := t.diag.out, flt.mem := t.flt.mem, win := t.win }
        ∧ ∀ a, (∀ m r, (pageGet s page.val).inQ = m :: r → a < beNat ((msBody m.bytes).take 4) ∨ beNat ((msBody m.bytes).take 4) + beNat (sl (msBody m.bytes) 4 2) ≤ a) → memGet 0 t.win a = memGet 0 s.win a)
  ∧ (∀ (s t : State) page, exec (.aspRingSubmit page) s = .next t →
      Framed t { s with
          pwr.idleSince := t.pwr.idleSince, job.rings := t.job.rings, pages := t.pages, sw := t.sw, diag.evt := t.diag.evt,
          diag.macFails := t.diag.macFails, diag.out := t.diag.out, flt.mem := t.flt.mem, win := t.win }
        ∧ ∀ a, (∀ m r, (pageGet s page.val).inQ = m :: r → a < (ringGet s (u8 (msBody m.bytes) 0)).dbase ∨ (ringGet s (u8 (msBody m.bytes) 0)).dbase + 64 * depthOf (ringGet s (u8 (msBody m.bytes) 0)).depth ≤ a) → memGet 0 t.win a = memGet 0 s.win a)
  ∧ (∀ (s t : State) page, exec (.aspRingCollect page) s = .next t →
      Framed t { s with
          pwr.idleSince := t.pwr.idleSince, job.rings := t.job.rings, pages := t.pages, sw := t.sw, diag.evt := t.diag.evt,
          diag.macFails := t.diag.macFails, diag.out := t.diag.out, flt.mem := t.flt.mem })
  ∧ (∀ (s t : State) page, exec (.aspSubscribe page) s = .next t →
      Framed t { s with
          pwr.idleSince := t.pwr.idleSince, pages := t.pages, sw := t.sw, diag.evt := t.diag.evt,
          diag.macFails := t.diag.macFails, diag.out := t.diag.out, flt.mem := t.flt.mem })
  ∧ (∀ (s t : State) page cls, exec (.aspEvent page cls) s = .next t →
      Framed t { s with
          pwr.idleSince := t.pwr.idleSince, pages := t.pages, sw := t.sw, diag.evt := t.diag.evt, diag.out := t.diag.out,
          flt.mem := t.flt.mem })
  ∧ (∀ (s t : State) page, exec (.aspPower page) s = .next t →
      Framed t { s with
          pwr.req := t.pwr.req, pwr.idleSince := t.pwr.idleSince, pages := t.pages, sw := t.sw, diag.evt := t.diag.evt,
          diag.macFails := t.diag.macFails, diag.out := t.diag.out, flt.mem := t.flt.mem })
  ∧ (∀ (s t : State) page, exec (.aspReset page) s = .next t →
      FreshReset t ∨ (Framed t { s with
          pwr.idleSince := t.pwr.idleSince, boot.ready := t.boot.ready, pages := t.pages, sw := t.sw,
          diag.evt := t.diag.evt, diag.macFails := t.diag.macFails, diag.out := t.diag.out, flt.mem := t.flt.mem }))
  ∧ (∀ (s t : State) page, exec (.aspUhfCal page) s = .next t →
      Framed t { s with
          pwr.idleSince := t.pwr.idleSince, uhf.trx := t.uhf.trx, pages := t.pages, sw := t.sw, diag.evt := t.diag.evt,
          diag.macFails := t.diag.macFails, diag.out := t.diag.out, flt.mem := t.flt.mem })
  ∧ (∀ (s t : State) page, exec (.aspEngineRunning page) s = .next t →
      Framed t { s with
          pwr.idleSince := t.pwr.idleSince, acc.holdUntil := t.acc.holdUntil, pages := t.pages, sw := t.sw,
          diag.evt := t.diag.evt, diag.macFails := t.diag.macFails, diag.out := t.diag.out, flt.mem := t.flt.mem })
  ∧ (∀ (s t : State) page, exec (.aspPermitEnd page) s = .next t →
      Framed t { s with
          permit.denyAt := t.permit.denyAt, pwr.idleSince := t.pwr.idleSince, acc.evt := t.acc.evt,
          acc.sessOpen := t.acc.sessOpen, acc.eligible := t.acc.eligible, acc.holdUntil := t.acc.holdUntil,
          acc.denyLeft := t.acc.denyLeft, acc.decisions := t.acc.decisions, pages := t.pages, sw := t.sw,
          diag.evt := t.diag.evt, diag.macFails := t.diag.macFails, diag.out := t.diag.out, flt.mem := t.flt.mem })
  ∧ (∀ (s t : State) page, exec (.aspOverrideCarrier page) s = .next t →
      Framed t { s with
          pwr.idleSince := t.pwr.idleSince, ov := t.ov, pages := t.pages, sw := t.sw, diag.evt := t.diag.evt,
          diag.macFails := t.diag.macFails, diag.out := t.diag.out, flt.mem := t.flt.mem })
  ∧ (∀ (s t : State) page, exec (.aspOverrideWindowPlan page) s = .next t →
      Framed t { s with
          pwr.idleSince := t.pwr.idleSince, ov := t.ov, pages := t.pages, sw := t.sw, diag.evt := t.diag.evt,
          diag.macFails := t.diag.macFails, diag.out := t.diag.out, flt.mem := t.flt.mem })
  ∧ (∀ (s t : State) page, exec (.aspOverrideTelegram page) s = .next t →
      Framed t { s with
          pwr.idleSince := t.pwr.idleSince, ov := t.ov, pages := t.pages, sw := t.sw, diag.evt := t.diag.evt,
          diag.macFails := t.diag.macFails, diag.out := t.diag.out, flt.mem := t.flt.mem })
  ∧ (∀ (s t : State) page, exec (.aspOverrideRanging page) s = .next t →
      Framed t { s with
          pwr.idleSince := t.pwr.idleSince, ov := t.ov, pages := t.pages, sw := t.sw, diag.evt := t.diag.evt,
          diag.macFails := t.diag.macFails, diag.out := t.diag.out, flt.mem := t.flt.mem })
  ∧ (∀ (s t : State) page, exec (.aspRevert page) s = .next t →
      Framed t { s with
          pwr.idleSince := t.pwr.idleSince, ov := t.ov, pages := t.pages, sw := t.sw, diag.evt := t.diag.evt,
          diag.macFails := t.diag.macFails, diag.out := t.diag.out, flt.mem := t.flt.mem })

/-- When the command answers a next state, every field of the state keeps its value but those the clause names, the queue
and event delivery aside; the latch is moved to permit only where the clause names it or the state had it so, and the
bytes of the window and the flash keep their values outside the bytes stored. A clause with a reset says so for the
paths without one. One clause for each command from DEFAULT_SESSION to the last of the table. -/
def Obligations.FramesOfDiagnosticsAndPairs : Prop :=
  (∀ (s t : State) conn, exec (.defaultSession conn) s = .next t →
      Framed t { s with
          pwr.idleSince := t.pwr.idleSince, diag.conns := t.diag.conns, diag.download := t.diag.download,
          diag.cur := t.diag.cur })
  ∧ (∀ (s t : State) conn, exec (.programmingSession conn) s = .next t →
      Framed t { s with pwr.idleSince := t.pwr.idleSince, diag.conns := t.diag.conns, diag.cur := t.diag.cur })
  ∧ (∀ (s t : State) conn, exec (.extendedSession conn) s = .next t →
      Framed t { s with pwr.idleSince := t.pwr.idleSince, diag.conns := t.diag.conns, diag.cur := t.diag.cur })
  ∧ (∀ (s t : State) conn, exec (.ecuReset conn) s = .next t →
      FreshReset t ∨ (Framed t { s with
          pwr.idleSince := t.pwr.idleSince, diag.conns := t.diag.conns, diag.out := t.diag.out, diag.cur := t.diag.cur }))
  ∧ (∀ (s t : State) conn group, exec (.clearDiagnosticInformation conn group) s = .next t →
      Framed t { s with
          pwr.idleSince := t.pwr.idleSince, nvm.ledger := t.nvm.ledger, nvm.evt := t.nvm.evt, diag.conns := t.diag.conns,
          diag.evt := t.diag.evt, diag.dtcs := t.diag.dtcs, diag.waiting := t.diag.waiting, diag.cur := t.diag.cur })
  ∧ (∀ (s t : State) conn mask, exec (.reportNumberOfDtcByStatusMask conn mask) s = .next t →
      Framed t { s with pwr.idleSince := t.pwr.idleSince, diag.conns := t.diag.conns, diag.cur := t.diag.cur })
  ∧ (∀ (s t : State) conn mask, exec (.reportDtcByStatusMask conn mask) s = .next t →
      Framed t { s with pwr.idleSince := t.pwr.idleSince, diag.conns := t.diag.conns, diag.cur := t.diag.cur })
  ∧ (∀ (s t : State) conn, exec (.reportSupportedDtc conn) s = .next t →
      Framed t { s with pwr.idleSince := t.pwr.idleSince, diag.conns := t.diag.conns, diag.cur := t.diag.cur })
  ∧ (∀ (s t : State) conn dids, exec (.readDataByIdentifier conn dids) s = .next t →
      Framed t { s with pwr.idleSince := t.pwr.idleSince, diag.conns := t.diag.conns, diag.cur := t.diag.cur })
  ∧ (∀ (s t : State) conn, exec (.deAuthenticate conn) s = .next t →
      Framed t { s with
          pwr.idleSince := t.pwr.idleSince, diag.conns := t.diag.conns, diag.exceeded := t.diag.exceeded,
          diag.cur := t.diag.cur })
  ∧ (∀ (s t : State) conn config chain, exec (.verifyCertificateUnidirectional conn config chain) s = .next t →
      Framed t { s with
          pwr.idleSince := t.pwr.idleSince, rng.queue := t.rng.queue, diag.conns := t.diag.conns, diag.evt := t.diag.evt,
          diag.authFails := t.diag.authFails, diag.exceeded := t.diag.exceeded, diag.lockUntil := t.diag.lockUntil,
          diag.cur := t.diag.cur })
  ∧ (∀ (s t : State) conn sig, exec (.proofOfOwnership conn sig) s = .next t →
      Framed t { s with
          pwr.idleSince := t.pwr.idleSince, diag.conns := t.diag.conns, diag.evt := t.diag.evt,
          diag.authFails := t.diag.authFails, diag.exceeded := t.diag.exceeded, diag.lockUntil := t.diag.lockUntil,
          diag.cur := t.diag.cur })
  ∧ (∀ (s t : State) conn, exec (.authenticationConfiguration conn) s = .next t →
      Framed t { s with
          pwr.idleSince := t.pwr.idleSince, diag.conns := t.diag.conns, diag.exceeded := t.diag.exceeded,
          diag.cur := t.diag.cur })
  ∧ (∀ (s t : State), exec (.authLockoutExpiry) s = .next t →
      Framed t { s with diag.exceeded := t.diag.exceeded, diag.lockUntil := t.diag.lockUntil })
  ∧ (∀ (s t : State) conn, exec (.s3ServerTimeout conn) s = .next t →
      Framed t { s with diag.conns := t.diag.conns, diag.download := t.diag.download })
  ∧ (∀ (s t : State) conn suppress, exec (.testerPresent conn suppress) s = .next t →
      Framed t { s with pwr.idleSince := t.pwr.idleSince, diag.conns := t.diag.conns, diag.cur := t.diag.cur })
  ∧ (∀ (s t : State) conn sid, exec (.unsupportedService conn sid) s = .next t →
      Framed t { s with pwr.idleSince := t.pwr.idleSince, diag.conns := t.diag.conns, diag.cur := t.diag.cur })
  ∧ (∀ (s t : State) conn rid, exec (.routineResults conn rid) s = .next t →
      Framed t { s with pwr.idleSince := t.pwr.idleSince, diag.conns := t.diag.conns, diag.cur := t.diag.cur })
  ∧ (∀ (s t : State) conn flashAnswers, exec (.verifyImage conn flashAnswers) s = .next t →
      Framed t { s with
          pwr.idleSince := t.pwr.idleSince, diag.conns := t.diag.conns, diag.routine := t.diag.routine,
          diag.cur := t.diag.cur })
  ∧ (∀ (s t : State) conn record kTag lock, exec (.learnKey conn record kTag lock) s = .next t →
      Framed t { s with
          permit.denyAt := t.permit.denyAt, pwr.idleSince := t.pwr.idleSince, tt.entries := t.tt.entries, acc := t.acc,
          rng.requests := t.rng.requests, rng.drawn := t.rng.drawn, ks.classKey := t.ks.classKey, ks.slots := t.ks.slots,
          ks.evt := t.ks.evt, nvm := t.nvm, diag := t.diag, flt.mem := t.flt.mem })
  ∧ (∀ (s t : State) conn index state, exec (.credState conn index state) s = .next t →
      Framed t { s with
          permit.denyAt := t.permit.denyAt, pwr.idleSince := t.pwr.idleSince, acc := t.acc, nvm := t.nvm, diag := t.diag,
          flt.mem := t.flt.mem })
  ∧ (∀ (s t : State) conn record, exec (.writeProfile conn record) s = .next t →
      Framed t { s with
          pwr.idleSince := t.pwr.idleSince, acc.profile := t.acc.profile, nvm.lower := t.nvm.lower,
          nvm.upper := t.nvm.upper, nvm.ledger := t.nvm.ledger, nvm.evt := t.nvm.evt, nvm.freeing := t.nvm.freeing,
          diag.conns := t.diag.conns, diag.routine := t.diag.routine, diag.evt := t.diag.evt, diag.dtcs := t.diag.dtcs,
          diag.waiting := t.diag.waiting, diag.conditions := t.diag.conditions, diag.cur := t.diag.cur })
  ∧ (∀ (s t : State) conn slot attr gen key, exec (.slotWrite conn slot attr gen key) s = .next t →
      Framed t { s with
          pwr.idleSince := t.pwr.idleSince, rng.requests := t.rng.requests, rng.drawn := t.rng.drawn,
          ks.classKey := t.ks.classKey, ks.slots := t.ks.slots, ks.evt := t.ks.evt, nvm := t.nvm, diag := t.diag })
  ∧ (∀ (s t : State) conn slot attr gen, exec (.slotGenerate conn slot attr gen) s = .next t →
      Framed t { s with
          permit.denyAt := t.permit.denyAt, pwr.idleSince := t.pwr.idleSince, tt.entries := t.tt.entries, acc := t.acc,
          rng.requests := t.rng.requests, rng.drawn := t.rng.drawn, ks.classKey := t.ks.classKey, ks.slots := t.ks.slots,
          ks.evt := t.ks.evt, nvm := t.nvm, diag := t.diag, flt.mem := t.flt.mem })
  ∧ (∀ (s t : State) conn slot gen, exec (.slotErase conn slot gen) s = .next t →
      Framed t { s with
          pwr.idleSince := t.pwr.idleSince, rng.requests := t.rng.requests, rng.drawn := t.rng.drawn,
          ks.classKey := t.ks.classKey, ks.slots := t.ks.slots, ks.evt := t.ks.evt, nvm := t.nvm, diag := t.diag })
  ∧ (∀ (s t : State) conn key cert, exec (.identityWrite conn key cert) s = .next t →
      Framed t { s with
          pwr.idleSince := t.pwr.idleSince, ks.identity := t.ks.identity, nvm.lower := t.nvm.lower,
          nvm.upper := t.nvm.upper, nvm.ledger := t.nvm.ledger, nvm.evt := t.nvm.evt, nvm.freeing := t.nvm.freeing,
          diag.conns := t.diag.conns, diag.routine := t.diag.routine, diag.evt := t.diag.evt, diag.dtcs := t.diag.dtcs,
          diag.waiting := t.diag.waiting, diag.conditions := t.diag.conditions, diag.cur := t.diag.cur })
  ∧ (∀ (s t : State) conn target, exec (.lcTransition conn target) s = .next t →
      Framed t { s with
          pwr.idleSince := t.pwr.idleSince, ks.journal := t.ks.journal, nvm.lower := t.nvm.lower, nvm.upper := t.nvm.upper,
          nvm.ledger := t.nvm.ledger, nvm.evt := t.nvm.evt, nvm.freeing := t.nvm.freeing, diag.conns := t.diag.conns,
          diag.routine := t.diag.routine, diag.evt := t.diag.evt, diag.dtcs := t.diag.dtcs, diag.waiting := t.diag.waiting,
          diag.conditions := t.diag.conditions, diag.cur := t.diag.cur })
  ∧ (∀ (s t : State) conn, exec (.debugSeal conn) s = .next t →
      Framed t { s with
          pwr.idleSince := t.pwr.idleSince, ks.fuses := t.ks.fuses, diag.conns := t.diag.conns,
          diag.routine := t.diag.routine, diag.cur := t.diag.cur })
  ∧ (∀ (s t : State) conn, exec (.tamperClear conn) s = .next t →
      Framed t { s with pwr.idleSince := t.pwr.idleSince, nvm := t.nvm, tmp := t.tmp, diag := t.diag })
  ∧ (∀ (s t : State) conn, exec (.tagInventory conn) s = .next t →
      Framed t { s with
          permit.denyAt := t.permit.denyAt, pwr.idleSince := t.pwr.idleSince, tt.entries := t.tt.entries, acc := t.acc,
          rng.requests := t.rng.requests, rng.drawn := t.rng.drawn, ks.classKey := t.ks.classKey, ks.slots := t.ks.slots,
          ks.evt := t.ks.evt, nvm := t.nvm, diag := t.diag, flt.mem := t.flt.mem })
  ∧ (∀ (s t : State) conn id page, exec (.tagRead conn id page) s = .next t →
      Framed t { s with
          permit.denyAt := t.permit.denyAt, pwr.idleSince := t.pwr.idleSince, tt.entries := t.tt.entries, acc := t.acc,
          rng.requests := t.rng.requests, rng.drawn := t.rng.drawn, ks.classKey := t.ks.classKey, ks.slots := t.ks.slots,
          ks.evt := t.ks.evt, nvm := t.nvm, diag := t.diag, flt.mem := t.flt.mem })
  ∧ (∀ (s t : State) conn id page data, exec (.tagWrite conn id page data) s = .next t →
      Framed t { s with
          permit.denyAt := t.permit.denyAt, pwr.idleSince := t.pwr.idleSince, tt.entries := t.tt.entries, acc := t.acc,
          rng.requests := t.rng.requests, rng.drawn := t.rng.drawn, ks.classKey := t.ks.classKey, ks.slots := t.ks.slots,
          ks.evt := t.ks.evt, nvm := t.nvm, diag := t.diag, flt.mem := t.flt.mem })
  ∧ (∀ (s t : State) conn id page, exec (.tagLock conn id page) s = .next t →
      Framed t { s with
          permit.denyAt := t.permit.denyAt, pwr.idleSince := t.pwr.idleSince, tt.entries := t.tt.entries, acc := t.acc,
          rng.requests := t.rng.requests, rng.drawn := t.rng.drawn, ks.classKey := t.ks.classKey, ks.slots := t.ks.slots,
          ks.evt := t.ks.evt, nvm := t.nvm, diag := t.diag, flt.mem := t.flt.mem })
  ∧ (∀ (s t : State) conn format addrLen addr size, exec (.requestDownload conn format addrLen addr size) s = .next t →
      Framed t { s with
          pwr.idleSince := t.pwr.idleSince, diag.conns := t.diag.conns, diag.download := t.diag.download,
          diag.cur := t.diag.cur })
  ∧ (∀ (s t : State) conn block data verified, exec (.transferData conn block data verified) s = .next t →
      Framed t { s with
          pwr.idleSince := t.pwr.idleSince, diag.conns := t.diag.conns, diag.download := t.diag.download,
          diag.cur := t.diag.cur, flash := t.flash }
        ∧ ∀ a, (∀ off size n next, s.diag.download = some (off, size, n, next) → a < off + n ∨ off + n + data.length + 4096 ≤ a) → memGet 0xFF t.flash a = memGet 0xFF s.flash a)
  ∧ (∀ (s t : State) conn, exec (.requestTransferExit conn) s = .next t →
      Framed t { s with
          pwr.idleSince := t.pwr.idleSince, diag.conns := t.diag.conns, diag.download := t.diag.download,
          diag.cur := t.diag.cur })
  ∧ (∀ (s t : State) conn tester kind, exec (.routingActivation conn tester kind) s = .next t →
      Framed t { s with diag.conns := t.diag.conns })
  ∧ (∀ (s t : State), exec (.vehicleIdentificationRequest) s = .next t →
      Framed t { s with diag.out := t.diag.out })
  ∧ (∀ (s t : State) conn, exec (.aliveCheck conn) s = .next t →
      Framed t { s with diag.conns := t.diag.conns })
  ∧ (∀ (s t : State), exec (.entityStatusRequest) s = .next t →
      Framed t { s with diag.out := t.diag.out })
  ∧ (∀ (s t : State), exec (.powerModeInformationRequest) s = .next t →
      Framed t { s with diag.out := t.diag.out })
  ∧ (∀ (s t : State) conn, exec (.doipConnectionClose conn) s = .next t →
      Framed t { s with
          diag.conns := t.diag.conns, diag.routine := t.diag.routine, diag.download := t.diag.download,
          diag.cur := t.diag.cur })
  ∧ (∀ (s t : State), exec (.nCrTimeout) s = .next t →
      Framed t { s with diag.conns := t.diag.conns })
  ∧ (∀ (s t : State) role, exec (.checkpointWrite role) s = .next t →
      Framed t { s with job.rings := t.job.rings, flt.ckpts := t.flt.ckpts, flt.mem := t.flt.mem })
  ∧ (∀ (s t : State) role delayNs, exec (.lockstepMismatch role delayNs) s = .next t →
      FreshReset t ∨ (Framed t { s with
          job.rings := t.job.rings, nvm.ledger := t.nvm.ledger, nvm.evt := t.nvm.evt, diag.evt := t.diag.evt,
          diag.dtcs := t.diag.dtcs, diag.waiting := t.diag.waiting, diag.conditions := t.diag.conditions,
          flt.role := t.flt.role, flt.spare := t.flt.spare, flt.retest := t.flt.retest, flt.hits := t.flt.hits,
          flt.evt := t.flt.evt, flt.count := t.flt.count, flt.lastRole := t.flt.lastRole, flt.lastCause := t.flt.lastCause,
          flt.lastDelay := t.flt.lastDelay }))
  ∧ (∀ (s t : State) role offset delayNs, exec (.pairMemoryError role offset delayNs) s = .next t →
      FreshReset t ∨ (Framed t { s with
          job.rings := t.job.rings, nvm.ledger := t.nvm.ledger, nvm.evt := t.nvm.evt, diag := t.diag, flt := t.flt }))
  ∧ (∀ (s t : State) delayNs, exec (.pairBWatchdog delayNs) s = .next t →
      FreshReset t ∨ (Framed t { s with
          job.rings := t.job.rings, nvm.ledger := t.nvm.ledger, nvm.evt := t.nvm.evt, diag.evt := t.diag.evt,
          diag.dtcs := t.diag.dtcs, diag.waiting := t.diag.waiting, diag.conditions := t.diag.conditions,
          flt.role := t.flt.role, flt.spare := t.flt.spare, flt.retest := t.flt.retest, flt.hits := t.flt.hits,
          flt.evt := t.flt.evt, flt.count := t.flt.count, flt.lastRole := t.flt.lastRole, flt.lastCause := t.flt.lastCause,
          flt.lastDelay := t.flt.lastDelay }))
  ∧ (∀ (s t : State), exec (.pairAWatchdog) s = .next t →
      FreshReset t ∨ (Framed t { s with
          nvm.ledger := t.nvm.ledger, nvm.evt := t.nvm.evt, diag.evt := t.diag.evt, diag.dtcs := t.diag.dtcs,
          diag.waiting := t.diag.waiting, diag.conditions := t.diag.conditions }))
  ∧ (∀ (s t : State) offset, exec (.checkpointMemoryError offset) s = .next t →
      FreshReset t ∨ (Framed t { s with
          nvm.ledger := t.nvm.ledger, nvm.evt := t.nvm.evt, diag.evt := t.diag.evt, diag.dtcs := t.diag.dtcs,
          diag.waiting := t.diag.waiting, diag.conditions := t.diag.conditions, flt.evt := t.flt.evt,
          flt.uncorrected := t.flt.uncorrected, flt.lastMem := t.flt.lastMem, flt.eccAddr := t.flt.eccAddr }))
  ∧ (∀ (s t : State), exec (.spareSelfTestFail) s = .next t →
      Framed t { s with
          nvm.ledger := t.nvm.ledger, nvm.evt := t.nvm.evt, diag.evt := t.diag.evt, diag.dtcs := t.diag.dtcs,
          diag.waiting := t.diag.waiting, diag.conditions := t.diag.conditions, flt.role := t.flt.role,
          flt.spare := t.flt.spare, flt.evt := t.flt.evt })
  ∧ (∀ (s t : State) passed, exec (.retestComplete passed) s = .next t →
      Framed t { s with
          nvm.ledger := t.nvm.ledger, nvm.evt := t.nvm.evt, diag.evt := t.diag.evt, diag.dtcs := t.diag.dtcs,
          diag.waiting := t.diag.waiting, diag.conditions := t.diag.conditions, flt.role := t.flt.role,
          flt.spare := t.flt.spare, flt.retest := t.flt.retest, flt.evt := t.flt.evt })
  ∧ (∀ (s t : State) find offset, exec (.eccScrub find offset) s = .next t →
      FreshReset t ∨ (Framed t { s with
          sup.evt := t.sup.evt, pwr.wakeSrc := t.pwr.wakeSrc, clk.evt := t.clk.evt, clk.lastStep := t.clk.lastStep,
          tt.evt := t.tt.evt, lf.evt := t.lf.evt, kl.evt := t.kl.evt, uhf.wrx := t.uhf.wrx, uhf.evt := t.uhf.evt,
          loc.evt := t.loc.evt, acc := t.acc, job.rings := t.job.rings, job.ops := t.job.ops, job.evt := t.job.evt,
          pages := t.pages, cip.aesEvt := t.cip.aesEvt, cip.faults := t.cip.faults, cip.hpkEvt := t.cip.hpkEvt,
          rng.reseeds := t.rng.reseeds, rng.failures := t.rng.failures, rng.evt := t.rng.evt, ks.slots := t.ks.slots,
          ks.evt := t.ks.evt, nvm := t.nvm, tmp.evt := t.tmp.evt, sw.ports := t.sw.ports, sw.evt := t.sw.evt, can := t.can,
          diag := t.diag, spi.scratch := t.spi.scratch, flt := t.flt, win := t.win }
        ∧ ∀ a, (∀ o ∈ s.job.ops, o.result.isNone = true → a < dsDst o.desc ∨ dsDst o.desc + o.written ≤ a) → memGet 0 t.win a = memGet 0 s.win a))
  ∧ (∀ (s t : State) mv, exec (.vbatBelowVRteInHeath mv) s = .next t →
      FreshReset t ∨ (Framed t { s with
          sup.vbat := t.sup.vbat, sup.evt := t.sup.evt, permit.pdDenied := t.permit.pdDenied,
          permit.pdBelow := t.permit.pdBelow, acc.eligible := t.acc.eligible, nvm.ledger := t.nvm.ledger }))
  ∧ (∀ (s t : State) vbatMv vholdMv, exec (.ledgerEnd vbatMv vholdMv) s = .next t →
      Framed t { s with
          sup.vbat := t.sup.vbat, sup.vhold := t.sup.vhold, sup.evt := t.sup.evt, permit.pdDenied := t.permit.pdDenied,
          permit.pdBelow := t.permit.pdBelow, acc.eligible := t.acc.eligible, nvm.ledger := t.nvm.ledger })
  ∧ (∀ (s t : State) ch coilMa settingMa, exec (.lfChannelOpen ch coilMa settingMa) s = .next t →
      Framed t { s with
          sup.vdrvLimit := t.sup.vdrvLimit, sup.vdrvStopAt := t.sup.vdrvStopAt, permit.latch := t.permit.latch,
          permit.tokenAt := t.permit.tokenAt, pwr := t.pwr, ov := t.ov, clk := t.clk, tt.entries := t.tt.entries,
          tt.evt := t.tt.evt, lf := t.lf, kl.evt := t.kl.evt, uhf.trx := t.uhf.trx, uhf.wrx := t.uhf.wrx, loc := t.loc,
          acc := t.acc, job := t.job, pages := t.pages, rng.requests := t.rng.requests, rng.drawn := t.rng.drawn,
          ks.slots := t.ks.slots, nvm := t.nvm, tmp.meshDue := t.tmp.meshDue, diag := t.diag, flt.mem := t.flt.mem,
          win := t.win }
        ∧ ∀ a, (∀ o ∈ s.job.ops, o.result.isNone = true → a < dsDst o.desc ∨ dsDst o.desc + o.written ≤ a) → memGet 0 t.win a = memGet 0 s.win a)
  ∧ (∀ (s t : State) source absentNs, exec (.tamperConditionEnd source absentNs) s = .next t →
      Framed t { s with
          tmp.active := t.tmp.active, tmp.onset := t.tmp.onset, diag.dtcs := t.diag.dtcs, diag.waiting := t.diag.waiting,
          diag.conditions := t.diag.conditions })
  ∧ (∀ (s t : State) ctl fault, exec (.canBusError ctl fault) s = .next t →
      Framed t { s with can := t.can })
  ∧ (∀ (s t : State) dom, exec (.announceTransmit dom) s = .next t →
      Framed t { s with clk.pri := t.clk.pri, clk.red := t.clk.red })
  ∧ (∀ (s t : State) port instanceSpecific domain, exec (.pdelayRequestReceive port instanceSpecific domain) s = .next t →
      Framed t { s with clk.ports := t.clk.ports })
  ∧ (∀ (s t : State) n, exec (.tpoPulseEnd n) s = .next t →
      Framed t { s with clk.tpo := t.clk.tpo })
  ∧ (∀ (s t : State) entry, exec (.vdrvWindowReached entry) s = .next t →
      Framed t { s with
          sup := t.sup, permit.latch := t.permit.latch, permit.tokenAt := t.permit.tokenAt, pwr := t.pwr, ov := t.ov,
          clk := t.clk, tt.entries := t.tt.entries, tt.evt := t.tt.evt, lf := t.lf, kl.evt := t.kl.evt, uhf := t.uhf,
          loc := t.loc, acc := t.acc, job := t.job, pages := t.pages, rng.requests := t.rng.requests,
          rng.drawn := t.rng.drawn, ks.slots := t.ks.slots, nvm := t.nvm, tmp.meshDue := t.tmp.meshDue,
          sw.ports := t.sw.ports, sw.evt := t.sw.evt, diag := t.diag, flt.mem := t.flt.mem, win := t.win }
        ∧ ∀ a, (∀ o ∈ s.job.ops, o.result.isNone = true → a < dsDst o.desc ∨ dsDst o.desc + o.written ≤ a) → memGet 0 t.win a = memGet 0 s.win a)
  ∧ (∀ (s t : State), exec (.vehicleAnnouncement) s = .next t →
      Framed t { s with pwr.idleSince := t.pwr.idleSince, sw := t.sw, diag.out := t.diag.out })
end

