-- ==== Sys2Proof/Laws/Memory.lean ====
section
/-! SUPPORT. The laws of the addressed memories: read after write, what a write leaves alone, and that every write keeps the
canonical form. -/

namespace Sys2Proof.Machine

/-! ### The canonical form -/

theorem memWfFrom_cons (d : Byte) (lo a : Nat) (v : Byte) (r : List Host.Cell) :
    memWfFrom d lo ((a, v) :: r) = true ↔ lo ≤ a ∧ v ≠ d ∧ memWfFrom d (a + 1) r = true := by
  simp [memWfFrom, and_assoc]

theorem memWfFrom_mono {d : Byte} {lo lo' : Nat} (h : lo' ≤ lo) : ∀ {m : List Host.Cell}, memWfFrom d lo m = true →
    memWfFrom d lo' m = true
  | [], _ => rfl
  | (a, v) :: r, hm => by
    rw [memWfFrom_cons] at hm ⊢
    exact ⟨by omega, hm.2⟩

/-- An address below every listed one reads as unlisted. -/
theorem memGet_below {d : Byte} : ∀ {m : List Host.Cell} {lo a : Nat}, memWfFrom d lo m = true → a < lo → memGet d m a = d
  | [], _, _, _, _ => rfl
  | (b, w) :: r, lo, a, h, ha => by
    rw [memWfFrom_cons] at h
    have hb : a ≠ b := by omega
    simp only [memGet, if_neg hb]
    exact memGet_below h.2.2 (by omega)

/-- A write of one byte keeps the canonical form. -/
theorem memSet_wfFrom {d : Byte} : ∀ {m : List Host.Cell} {lo a : Nat} {v : Byte}, memWfFrom d lo m = true → lo ≤ a →
    memWfFrom d lo (memSet d m a v) = true
  | [], lo, a, v, _, ha => by
    unfold memSet
    split
    · rfl
    · next hv => rw [memWfFrom_cons]; exact ⟨ha, hv, rfl⟩
  | (b, w) :: r, lo, a, v, h, ha => by
    have h' := (memWfFrom_cons d lo b w r).1 h
    unfold memSet
    split
    · split
      · exact h
      · next hab hv => simp only [memWfFrom_cons]; exact ⟨ha, hv, by omega, h'.2.1, h'.2.2⟩
    · split
      · next hab =>
        subst hab
        split
        · exact memWfFrom_mono (by omega) h'.2.2
        · next hv => rw [memWfFrom_cons]; exact ⟨h'.1, hv, h'.2.2⟩
      · rw [memWfFrom_cons]
        exact ⟨h'.1, h'.2.1, memSet_wfFrom h'.2.2 (by omega)⟩

theorem memSet_wf {d : Byte} {m : List Host.Cell} {a : Nat} {v : Byte} (h : memWf d m = true) : memWf d (memSet d m a v) = true :=
  memSet_wfFrom h (Nat.zero_le a)

/-- A write of bytes keeps the canonical form. -/
theorem memSetBytes_wf {d : Byte} : ∀ {b : Bytes} {m : List Host.Cell} {a : Nat}, memWf d m = true →
    memWf d (memSetBytes d m a b) = true
  | [], _, _, h => h
  | v :: r, m, a, h => memSetBytes_wf (b := r) (m := memSet d m a v) (a := a + 1) (memSet_wf h)

/-! ### Read after write -/

/-- A write leaves every other byte alone. -/
theorem memGet_memSet_ne {d : Byte} {a c : Nat} (h : c ≠ a) (v : Byte) : ∀ m : List Host.Cell,
    memGet d (memSet d m a v) c = memGet d m c
  | [] => by
    unfold memSet
    split
    · rfl
    · simp [memGet, h]
  | (b, w) :: r => by
    unfold memSet
    split
    · split
      · rfl
      · simp [memGet, h]
    · split
      · next hab =>
        subst hab
        split
        · simp [memGet, h]
        · simp [memGet, h]
      · simp only [memGet, memGet_memSet_ne h v r]

/-- A byte reads as written. -/
theorem memGet_memSet_eq {d : Byte} (a : Nat) (v : Byte) : ∀ {m : List Host.Cell} {lo : Nat}, memWfFrom d lo m = true →
    memGet d (memSet d m a v) a = v
  | [], _, _ => by
    unfold memSet
    split
    · next hv => subst hv; rfl
    · simp [memGet]
  | (b, w) :: r, lo, h => by
    have h' := (memWfFrom_cons d lo b w r).1 h
    unfold memSet
    split
    · next hab =>
      split
      · next hv => subst hv; exact memGet_below (lo := b) ((memWfFrom_cons v b b w r).2 ⟨Nat.le_refl b, h'.2⟩) hab
      · simp [memGet]
    · split
      · next hab =>
        subst hab
        split
        · next hv => subst hv; exact memGet_below h'.2.2 (by omega)
        · simp [memGet]
      · next hab =>
        simp only [memGet, if_neg hab]
        exact memGet_memSet_eq a v h'.2.2

/-- A write of bytes leaves every byte outside its span alone. -/
theorem memGet_memSetBytes_ne {d : Byte} {c : Nat} : ∀ {b : Bytes} {m : List Host.Cell} {a : Nat}, (c < a ∨ a + b.length ≤ c) →
    memGet d (memSetBytes d m a b) c = memGet d m c
  | [], _, _, _ => rfl
  | v :: r, m, a, h => by
    simp only [List.length_cons] at h
    simp only [memSetBytes]
    rw [memGet_memSetBytes_ne (by omega), memGet_memSet_ne (by omega)]

/-- Each byte of a span reads as written. -/
theorem memGet_memSetBytes_eq {d : Byte} : ∀ {b : Bytes} {m : List Host.Cell} {a i : Nat} (_ : memWf d m = true) (hi : i < b.length),
    memGet d (memSetBytes d m a b) (a + i) = b[i]
  | [], _, _, _, _, hi => absurd hi (by simp)
  | v :: r, m, a, 0, h, _ => by
    simp only [memSetBytes, Nat.add_zero, List.getElem_cons_zero]
    rw [memGet_memSetBytes_ne (by omega)]
    exact memGet_memSet_eq a v h
  | v :: r, m, a, i + 1, h, hi => by
    simp only [memSetBytes, List.getElem_cons_succ]
    have := memGet_memSetBytes_eq (d := d) (b := r) (m := memSet d m a v) (a := a + 1) (i := i) (memSet_wf h)
      (by simpa using hi)
    rw [← this]
    congr 1
    omega

/-- A span reads as written. -/
theorem memGetBytes_memSetBytes {d : Byte} {b : Bytes} {m : List Host.Cell} {a : Nat} (h : memWf d m = true) :
    memGetBytes d (memSetBytes d m a b) a b.length = b := by
  apply List.ext_getElem
  · simp [memGetBytes]
  · intro i h1 h2
    simp only [memGetBytes, List.getElem_map, List.getElem_range]
    exact memGet_memSetBytes_eq h h2

/-! ### The machine's memories -/

theorem Memory.wf_iff (s : State) : Memory.wf s = true ↔
    memWf 0 s.win = true ∧ memWf 0xFF s.flash = true ∧ ∀ p ∈ s.pages.toList, memWf 0 p.hb = true := by
  simp only [Memory.wf, Bool.and_eq_true, List.all_eq_true, and_assoc]

/-- Only the window, the flash and the holding buffers matter. -/
theorem Memory.wf_congr {s t : State} (h1 : t.win = s.win) (h2 : t.flash = s.flash) (h3 : t.pages = s.pages) :
    Memory.wf t = Memory.wf s := by simp [Memory.wf, h1, h2, h3]

/-- Every store to the window keeps the canonical form. -/
theorem winWrite_wf {s : State} {off : Nat} {b : Bytes} (h : Memory.wf s = true) : Memory.wf (winWrite s off b) = true := by
  rw [Memory.wf_iff] at h ⊢
  exact ⟨memSetBytes_wf h.1, h.2⟩

/-- Window bytes outside a store keep their values. -/
theorem winWrite_other (s : State) (off : Nat) (b : Bytes) (a : Nat) (h : a < off ∨ off + b.length ≤ a) :
    memGet 0 (winWrite s off b).win a = memGet 0 s.win a := memGet_memSetBytes_ne h

/-- Window bytes read as stored. -/
theorem winRead_winWrite {s : State} (off : Nat) (b : Bytes) (h : memWf 0 s.win = true) :
    winRead (winWrite s off b) off b.length = b := memGetBytes_memSetBytes h

/-- A block written to a holding buffer keeps its canonical form. -/
theorem hbWrite_wf {p : Page} {off : Nat} {y : Bytes} (h : memWf 0 p.hb = true) : memWf 0 (hbWrite off y p).hb = true :=
  memSetBytes_wf h

/-- Erasing a sector keeps the canonical form. -/
theorem sectorErase_wf {s : State} {off : Nat} (h : Memory.wf s = true) : Memory.wf (sectorErase off s) = true := by
  rw [Memory.wf_iff] at h ⊢
  unfold sectorErase
  generalize List.replicate 4096 (0xFF : Byte) = b
  exact ⟨h.1, memSetBytes_wf h.2.1, h.2.2⟩

/-- Erasing sectors keeps the canonical form. -/
theorem sectorErase_foldl_wf : ∀ (l : List Nat) (s : State), Memory.wf s = true →
    Memory.wf (l.foldl (fun s k => sectorErase k s) s) = true
  | [], _, h => h
  | k :: l, s, h => by
    rw [List.foldl_cons]
    exact sectorErase_foldl_wf l (sectorErase k s) (sectorErase_wf h)

/-- Programming the flash keeps the canonical form. -/
theorem flashProgram_wf {s : State} {off : Nat} {b : Bytes} (h : Memory.wf s = true) : Memory.wf (flashProgram off b s) = true := by
  have h' := sectorErase_foldl_wf (((List.range (b.length / 4096 + 2)).map (fun i => (off / 4096 + i) * 4096)).filter
    (fun k => off ≤ k && k < off + b.length)) s h
  rw [Memory.wf_iff] at h' ⊢
  exact ⟨h'.1, memSetBytes_wf h'.2.1, h'.2.2⟩

/-- The reset state's memories are in canonical form. -/
theorem reset_memory_wf : Memory.wf State.reset = true := by decide +kernel

end Sys2Proof.Machine
end

