-- ==== Sys2Proof/Laws/State.lean ====
section
/-! SUPPORT. What each named update of the state leaves alone, one lemma per field: no later proof unfolds a record update. The
lemmas say nothing else; what an update writes is its definition. -/

namespace Sys2Proof.Machine

/-! ### settle -/

@[simp] theorem settle_elapsed (b : State) (a : State) : (settle b a).elapsed = a.elapsed := rfl
@[simp] theorem settle_xo (b : State) (a : State) : (settle b a).xo = a.xo := rfl
@[simp] theorem settle_sup (b : State) (a : State) : (settle b a).sup = a.sup := rfl
@[simp] theorem settle_pwr (b : State) (a : State) : (settle b a).pwr = a.pwr := rfl
@[simp] theorem settle_boot (b : State) (a : State) : (settle b a).boot = a.boot := rfl
@[simp] theorem settle_set (b : State) (a : State) : (settle b a).set = a.set := rfl
@[simp] theorem settle_ov (b : State) (a : State) : (settle b a).ov = a.ov := rfl
@[simp] theorem settle_clk (b : State) (a : State) : (settle b a).clk = a.clk := rfl
@[simp] theorem settle_tt (b : State) (a : State) : (settle b a).tt = a.tt := rfl
@[simp] theorem settle_lf (b : State) (a : State) : (settle b a).lf = a.lf := rfl
@[simp] theorem settle_kl (b : State) (a : State) : (settle b a).kl = a.kl := rfl
@[simp] theorem settle_uhf (b : State) (a : State) : (settle b a).uhf = a.uhf := rfl
@[simp] theorem settle_loc (b : State) (a : State) : (settle b a).loc = a.loc := rfl
@[simp] theorem settle_acc (b : State) (a : State) : (settle b a).acc = a.acc := rfl
@[simp] theorem settle_job (b : State) (a : State) : (settle b a).job = a.job := rfl
@[simp] theorem settle_cip (b : State) (a : State) : (settle b a).cip = a.cip := rfl
@[simp] theorem settle_rng (b : State) (a : State) : (settle b a).rng = a.rng := rfl
@[simp] theorem settle_ks (b : State) (a : State) : (settle b a).ks = a.ks := rfl
@[simp] theorem settle_nvm (b : State) (a : State) : (settle b a).nvm = a.nvm := rfl
@[simp] theorem settle_tmp (b : State) (a : State) : (settle b a).tmp = a.tmp := rfl
@[simp] theorem settle_sw (b : State) (a : State) : (settle b a).sw = a.sw := rfl
@[simp] theorem settle_can (b : State) (a : State) : (settle b a).can = a.can := rfl
@[simp] theorem settle_diag (b : State) (a : State) : (settle b a).diag = a.diag := rfl
@[simp] theorem settle_flt (b : State) (a : State) : (settle b a).flt = a.flt := rfl
@[simp] theorem settle_win (b : State) (a : State) : (settle b a).win = a.win := rfl
@[simp] theorem settle_flash (b : State) (a : State) : (settle b a).flash = a.flash := rfl

/-! ### latchDeny -/

@[simp] theorem latchDeny_pending (s : State) : (latchDeny s).pending = s.pending := rfl
@[simp] theorem latchDeny_elapsed (s : State) : (latchDeny s).elapsed = s.elapsed := rfl
@[simp] theorem latchDeny_xo (s : State) : (latchDeny s).xo = s.xo := rfl
@[simp] theorem latchDeny_evLog (s : State) : (latchDeny s).evLog = s.evLog := rfl
@[simp] theorem latchDeny_sup (s : State) : (latchDeny s).sup = s.sup := rfl
@[simp] theorem latchDeny_pwr (s : State) : (latchDeny s).pwr = s.pwr := rfl
@[simp] theorem latchDeny_boot (s : State) : (latchDeny s).boot = s.boot := rfl
@[simp] theorem latchDeny_set (s : State) : (latchDeny s).set = s.set := rfl
@[simp] theorem latchDeny_ov (s : State) : (latchDeny s).ov = s.ov := rfl
@[simp] theorem latchDeny_clk (s : State) : (latchDeny s).clk = s.clk := rfl
@[simp] theorem latchDeny_tt (s : State) : (latchDeny s).tt = s.tt := rfl
@[simp] theorem latchDeny_lf (s : State) : (latchDeny s).lf = s.lf := rfl
@[simp] theorem latchDeny_kl (s : State) : (latchDeny s).kl = s.kl := rfl
@[simp] theorem latchDeny_uhf (s : State) : (latchDeny s).uhf = s.uhf := rfl
@[simp] theorem latchDeny_loc (s : State) : (latchDeny s).loc = s.loc := rfl
@[simp] theorem latchDeny_acc (s : State) : (latchDeny s).acc = s.acc := rfl
@[simp] theorem latchDeny_job (s : State) : (latchDeny s).job = s.job := rfl
@[simp] theorem latchDeny_pages (s : State) : (latchDeny s).pages = s.pages := rfl
@[simp] theorem latchDeny_cip (s : State) : (latchDeny s).cip = s.cip := rfl
@[simp] theorem latchDeny_rng (s : State) : (latchDeny s).rng = s.rng := rfl
@[simp] theorem latchDeny_ks (s : State) : (latchDeny s).ks = s.ks := rfl
@[simp] theorem latchDeny_nvm (s : State) : (latchDeny s).nvm = s.nvm := rfl
@[simp] theorem latchDeny_tmp (s : State) : (latchDeny s).tmp = s.tmp := rfl
@[simp] theorem latchDeny_sw (s : State) : (latchDeny s).sw = s.sw := rfl
@[simp] theorem latchDeny_can (s : State) : (latchDeny s).can = s.can := rfl
@[simp] theorem latchDeny_diag (s : State) : (latchDeny s).diag = s.diag := rfl
@[simp] theorem latchDeny_spi (s : State) : (latchDeny s).spi = s.spi := rfl
@[simp] theorem latchDeny_flt (s : State) : (latchDeny s).flt = s.flt := rfl
@[simp] theorem latchDeny_pins (s : State) : (latchDeny s).pins = s.pins := rfl
@[simp] theorem latchDeny_win (s : State) : (latchDeny s).win = s.win := rfl
@[simp] theorem latchDeny_flash (s : State) : (latchDeny s).flash = s.flash := rfl

/-! ### seeVhold -/

@[simp] theorem seeVhold_pending (mv : Nat) (s : State) : (seeVhold mv s).pending = s.pending := rfl
@[simp] theorem seeVhold_elapsed (mv : Nat) (s : State) : (seeVhold mv s).elapsed = s.elapsed := rfl
@[simp] theorem seeVhold_xo (mv : Nat) (s : State) : (seeVhold mv s).xo = s.xo := rfl
@[simp] theorem seeVhold_evLog (mv : Nat) (s : State) : (seeVhold mv s).evLog = s.evLog := rfl
@[simp] theorem seeVhold_permit (mv : Nat) (s : State) : (seeVhold mv s).permit = s.permit := rfl
@[simp] theorem seeVhold_pwr (mv : Nat) (s : State) : (seeVhold mv s).pwr = s.pwr := rfl
@[simp] theorem seeVhold_boot (mv : Nat) (s : State) : (seeVhold mv s).boot = s.boot := rfl
@[simp] theorem seeVhold_set (mv : Nat) (s : State) : (seeVhold mv s).set = s.set := rfl
@[simp] theorem seeVhold_ov (mv : Nat) (s : State) : (seeVhold mv s).ov = s.ov := rfl
@[simp] theorem seeVhold_clk (mv : Nat) (s : State) : (seeVhold mv s).clk = s.clk := rfl
@[simp] theorem seeVhold_tt (mv : Nat) (s : State) : (seeVhold mv s).tt = s.tt := rfl
@[simp] theorem seeVhold_lf (mv : Nat) (s : State) : (seeVhold mv s).lf = s.lf := rfl
@[simp] theorem seeVhold_kl (mv : Nat) (s : State) : (seeVhold mv s).kl = s.kl := rfl
@[simp] theorem seeVhold_uhf (mv : Nat) (s : State) : (seeVhold mv s).uhf = s.uhf := rfl
@[simp] theorem seeVhold_loc (mv : Nat) (s : State) : (seeVhold mv s).loc = s.loc := rfl
@[simp] theorem seeVhold_acc (mv : Nat) (s : State) : (seeVhold mv s).acc = s.acc := rfl
@[simp] theorem seeVhold_job (mv : Nat) (s : State) : (seeVhold mv s).job = s.job := rfl
@[simp] theorem seeVhold_pages (mv : Nat) (s : State) : (seeVhold mv s).pages = s.pages := rfl
@[simp] theorem seeVhold_cip (mv : Nat) (s : State) : (seeVhold mv s).cip = s.cip := rfl
@[simp] theorem seeVhold_rng (mv : Nat) (s : State) : (seeVhold mv s).rng = s.rng := rfl
@[simp] theorem seeVhold_ks (mv : Nat) (s : State) : (seeVhold mv s).ks = s.ks := rfl
@[simp] theorem seeVhold_nvm (mv : Nat) (s : State) : (seeVhold mv s).nvm = s.nvm := rfl
@[simp] theorem seeVhold_tmp (mv : Nat) (s : State) : (seeVhold mv s).tmp = s.tmp := rfl
@[simp] theorem seeVhold_sw (mv : Nat) (s : State) : (seeVhold mv s).sw = s.sw := rfl
@[simp] theorem seeVhold_can (mv : Nat) (s : State) : (seeVhold mv s).can = s.can := rfl
@[simp] theorem seeVhold_diag (mv : Nat) (s : State) : (seeVhold mv s).diag = s.diag := rfl
@[simp] theorem seeVhold_spi (mv : Nat) (s : State) : (seeVhold mv s).spi = s.spi := rfl
@[simp] theorem seeVhold_flt (mv : Nat) (s : State) : (seeVhold mv s).flt = s.flt := rfl
@[simp] theorem seeVhold_pins (mv : Nat) (s : State) : (seeVhold mv s).pins = s.pins := rfl
@[simp] theorem seeVhold_win (mv : Nat) (s : State) : (seeVhold mv s).win = s.win := rfl
@[simp] theorem seeVhold_flash (mv : Nat) (s : State) : (seeVhold mv s).flash = s.flash := rfl

/-! ### seeTj -/

@[simp] theorem seeTj_pending (tj : Int) (s : State) : (seeTj tj s).pending = s.pending := rfl
@[simp] theorem seeTj_elapsed (tj : Int) (s : State) : (seeTj tj s).elapsed = s.elapsed := rfl
@[simp] theorem seeTj_xo (tj : Int) (s : State) : (seeTj tj s).xo = s.xo := rfl
@[simp] theorem seeTj_evLog (tj : Int) (s : State) : (seeTj tj s).evLog = s.evLog := rfl
@[simp] theorem seeTj_permit (tj : Int) (s : State) : (seeTj tj s).permit = s.permit := rfl
@[simp] theorem seeTj_pwr (tj : Int) (s : State) : (seeTj tj s).pwr = s.pwr := rfl
@[simp] theorem seeTj_boot (tj : Int) (s : State) : (seeTj tj s).boot = s.boot := rfl
@[simp] theorem seeTj_set (tj : Int) (s : State) : (seeTj tj s).set = s.set := rfl
@[simp] theorem seeTj_ov (tj : Int) (s : State) : (seeTj tj s).ov = s.ov := rfl
@[simp] theorem seeTj_clk (tj : Int) (s : State) : (seeTj tj s).clk = s.clk := rfl
@[simp] theorem seeTj_tt (tj : Int) (s : State) : (seeTj tj s).tt = s.tt := rfl
@[simp] theorem seeTj_lf (tj : Int) (s : State) : (seeTj tj s).lf = s.lf := rfl
@[simp] theorem seeTj_kl (tj : Int) (s : State) : (seeTj tj s).kl = s.kl := rfl
@[simp] theorem seeTj_uhf (tj : Int) (s : State) : (seeTj tj s).uhf = s.uhf := rfl
@[simp] theorem seeTj_loc (tj : Int) (s : State) : (seeTj tj s).loc = s.loc := rfl
@[simp] theorem seeTj_acc (tj : Int) (s : State) : (seeTj tj s).acc = s.acc := rfl
@[simp] theorem seeTj_job (tj : Int) (s : State) : (seeTj tj s).job = s.job := rfl
@[simp] theorem seeTj_pages (tj : Int) (s : State) : (seeTj tj s).pages = s.pages := rfl
@[simp] theorem seeTj_cip (tj : Int) (s : State) : (seeTj tj s).cip = s.cip := rfl
@[simp] theorem seeTj_rng (tj : Int) (s : State) : (seeTj tj s).rng = s.rng := rfl
@[simp] theorem seeTj_ks (tj : Int) (s : State) : (seeTj tj s).ks = s.ks := rfl
@[simp] theorem seeTj_nvm (tj : Int) (s : State) : (seeTj tj s).nvm = s.nvm := rfl
@[simp] theorem seeTj_tmp (tj : Int) (s : State) : (seeTj tj s).tmp = s.tmp := rfl
@[simp] theorem seeTj_sw (tj : Int) (s : State) : (seeTj tj s).sw = s.sw := rfl
@[simp] theorem seeTj_can (tj : Int) (s : State) : (seeTj tj s).can = s.can := rfl
@[simp] theorem seeTj_diag (tj : Int) (s : State) : (seeTj tj s).diag = s.diag := rfl
@[simp] theorem seeTj_spi (tj : Int) (s : State) : (seeTj tj s).spi = s.spi := rfl
@[simp] theorem seeTj_flt (tj : Int) (s : State) : (seeTj tj s).flt = s.flt := rfl
@[simp] theorem seeTj_pins (tj : Int) (s : State) : (seeTj tj s).pins = s.pins := rfl
@[simp] theorem seeTj_win (tj : Int) (s : State) : (seeTj tj s).win = s.win := rfl
@[simp] theorem seeTj_flash (tj : Int) (s : State) : (seeTj tj s).flash = s.flash := rfl

/-! ### note -/

@[simp] theorem note_pending (cls : Nat) (v : Nat) (s : State) : (note cls v s).pending = s.pending := rfl
@[simp] theorem note_elapsed (cls : Nat) (v : Nat) (s : State) : (note cls v s).elapsed = s.elapsed := rfl
@[simp] theorem note_xo (cls : Nat) (v : Nat) (s : State) : (note cls v s).xo = s.xo := rfl
@[simp] theorem note_sup (cls : Nat) (v : Nat) (s : State) : (note cls v s).sup = s.sup := rfl
@[simp] theorem note_permit (cls : Nat) (v : Nat) (s : State) : (note cls v s).permit = s.permit := rfl
@[simp] theorem note_pwr (cls : Nat) (v : Nat) (s : State) : (note cls v s).pwr = s.pwr := rfl
@[simp] theorem note_boot (cls : Nat) (v : Nat) (s : State) : (note cls v s).boot = s.boot := rfl
@[simp] theorem note_set (cls : Nat) (v : Nat) (s : State) : (note cls v s).set = s.set := rfl
@[simp] theorem note_ov (cls : Nat) (v : Nat) (s : State) : (note cls v s).ov = s.ov := rfl
@[simp] theorem note_clk (cls : Nat) (v : Nat) (s : State) : (note cls v s).clk = s.clk := rfl
@[simp] theorem note_tt (cls : Nat) (v : Nat) (s : State) : (note cls v s).tt = s.tt := rfl
@[simp] theorem note_lf (cls : Nat) (v : Nat) (s : State) : (note cls v s).lf = s.lf := rfl
@[simp] theorem note_kl (cls : Nat) (v : Nat) (s : State) : (note cls v s).kl = s.kl := rfl
@[simp] theorem note_uhf (cls : Nat) (v : Nat) (s : State) : (note cls v s).uhf = s.uhf := rfl
@[simp] theorem note_loc (cls : Nat) (v : Nat) (s : State) : (note cls v s).loc = s.loc := rfl
@[simp] theorem note_acc (cls : Nat) (v : Nat) (s : State) : (note cls v s).acc = s.acc := rfl
@[simp] theorem note_job (cls : Nat) (v : Nat) (s : State) : (note cls v s).job = s.job := rfl
@[simp] theorem note_pages (cls : Nat) (v : Nat) (s : State) : (note cls v s).pages = s.pages := rfl
@[simp] theorem note_cip (cls : Nat) (v : Nat) (s : State) : (note cls v s).cip = s.cip := rfl
@[simp] theorem note_rng (cls : Nat) (v : Nat) (s : State) : (note cls v s).rng = s.rng := rfl
@[simp] theorem note_ks (cls : Nat) (v : Nat) (s : State) : (note cls v s).ks = s.ks := rfl
@[simp] theorem note_nvm (cls : Nat) (v : Nat) (s : State) : (note cls v s).nvm = s.nvm := rfl
@[simp] theorem note_tmp (cls : Nat) (v : Nat) (s : State) : (note cls v s).tmp = s.tmp := rfl
@[simp] theorem note_sw (cls : Nat) (v : Nat) (s : State) : (note cls v s).sw = s.sw := rfl
@[simp] theorem note_can (cls : Nat) (v : Nat) (s : State) : (note cls v s).can = s.can := rfl
@[simp] theorem note_diag (cls : Nat) (v : Nat) (s : State) : (note cls v s).diag = s.diag := rfl
@[simp] theorem note_spi (cls : Nat) (v : Nat) (s : State) : (note cls v s).spi = s.spi := rfl
@[simp] theorem note_flt (cls : Nat) (v : Nat) (s : State) : (note cls v s).flt = s.flt := rfl
@[simp] theorem note_pins (cls : Nat) (v : Nat) (s : State) : (note cls v s).pins = s.pins := rfl
@[simp] theorem note_win (cls : Nat) (v : Nat) (s : State) : (note cls v s).win = s.win := rfl
@[simp] theorem note_flash (cls : Nat) (v : Nat) (s : State) : (note cls v s).flash = s.flash := rfl

/-! ### ttPut -/

@[simp] theorem ttPut_pending (i : Nat) (e : Option Entry) (s : State) : (ttPut i e s).pending = s.pending := rfl
@[simp] theorem ttPut_elapsed (i : Nat) (e : Option Entry) (s : State) : (ttPut i e s).elapsed = s.elapsed := rfl
@[simp] theorem ttPut_xo (i : Nat) (e : Option Entry) (s : State) : (ttPut i e s).xo = s.xo := rfl
@[simp] theorem ttPut_evLog (i : Nat) (e : Option Entry) (s : State) : (ttPut i e s).evLog = s.evLog := rfl
@[simp] theorem ttPut_sup (i : Nat) (e : Option Entry) (s : State) : (ttPut i e s).sup = s.sup := rfl
@[simp] theorem ttPut_permit (i : Nat) (e : Option Entry) (s : State) : (ttPut i e s).permit = s.permit := rfl
@[simp] theorem ttPut_pwr (i : Nat) (e : Option Entry) (s : State) : (ttPut i e s).pwr = s.pwr := rfl
@[simp] theorem ttPut_boot (i : Nat) (e : Option Entry) (s : State) : (ttPut i e s).boot = s.boot := rfl
@[simp] theorem ttPut_set (i : Nat) (e : Option Entry) (s : State) : (ttPut i e s).set = s.set := rfl
@[simp] theorem ttPut_ov (i : Nat) (e : Option Entry) (s : State) : (ttPut i e s).ov = s.ov := rfl
@[simp] theorem ttPut_clk (i : Nat) (e : Option Entry) (s : State) : (ttPut i e s).clk = s.clk := rfl
@[simp] theorem ttPut_lf (i : Nat) (e : Option Entry) (s : State) : (ttPut i e s).lf = s.lf := rfl
@[simp] theorem ttPut_kl (i : Nat) (e : Option Entry) (s : State) : (ttPut i e s).kl = s.kl := rfl
@[simp] theorem ttPut_uhf (i : Nat) (e : Option Entry) (s : State) : (ttPut i e s).uhf = s.uhf := rfl
@[simp] theorem ttPut_loc (i : Nat) (e : Option Entry) (s : State) : (ttPut i e s).loc = s.loc := rfl
@[simp] theorem ttPut_acc (i : Nat) (e : Option Entry) (s : State) : (ttPut i e s).acc = s.acc := rfl
@[simp] theorem ttPut_job (i : Nat) (e : Option Entry) (s : State) : (ttPut i e s).job = s.job := rfl
@[simp] theorem ttPut_pages (i : Nat) (e : Option Entry) (s : State) : (ttPut i e s).pages = s.pages := rfl
@[simp] theorem ttPut_cip (i : Nat) (e : Option Entry) (s : State) : (ttPut i e s).cip = s.cip := rfl
@[simp] theorem ttPut_rng (i : Nat) (e : Option Entry) (s : State) : (ttPut i e s).rng = s.rng := rfl
@[simp] theorem ttPut_ks (i : Nat) (e : Option Entry) (s : State) : (ttPut i e s).ks = s.ks := rfl
@[simp] theorem ttPut_nvm (i : Nat) (e : Option Entry) (s : State) : (ttPut i e s).nvm = s.nvm := rfl
@[simp] theorem ttPut_tmp (i : Nat) (e : Option Entry) (s : State) : (ttPut i e s).tmp = s.tmp := rfl
@[simp] theorem ttPut_sw (i : Nat) (e : Option Entry) (s : State) : (ttPut i e s).sw = s.sw := rfl
@[simp] theorem ttPut_can (i : Nat) (e : Option Entry) (s : State) : (ttPut i e s).can = s.can := rfl
@[simp] theorem ttPut_diag (i : Nat) (e : Option Entry) (s : State) : (ttPut i e s).diag = s.diag := rfl
@[simp] theorem ttPut_spi (i : Nat) (e : Option Entry) (s : State) : (ttPut i e s).spi = s.spi := rfl
@[simp] theorem ttPut_flt (i : Nat) (e : Option Entry) (s : State) : (ttPut i e s).flt = s.flt := rfl
@[simp] theorem ttPut_pins (i : Nat) (e : Option Entry) (s : State) : (ttPut i e s).pins = s.pins := rfl
@[simp] theorem ttPut_win (i : Nat) (e : Option Entry) (s : State) : (ttPut i e s).win = s.win := rfl
@[simp] theorem ttPut_flash (i : Nat) (e : Option Entry) (s : State) : (ttPut i e s).flash = s.flash := rfl

/-! ### pageMod -/

@[simp] theorem pageMod_pending (p : Nat) (f : Page → Page) (s : State) : (pageMod p f s).pending = s.pending := rfl
@[simp] theorem pageMod_elapsed (p : Nat) (f : Page → Page) (s : State) : (pageMod p f s).elapsed = s.elapsed := rfl
@[simp] theorem pageMod_xo (p : Nat) (f : Page → Page) (s : State) : (pageMod p f s).xo = s.xo := rfl
@[simp] theorem pageMod_evLog (p : Nat) (f : Page → Page) (s : State) : (pageMod p f s).evLog = s.evLog := rfl
@[simp] theorem pageMod_sup (p : Nat) (f : Page → Page) (s : State) : (pageMod p f s).sup = s.sup := rfl
@[simp] theorem pageMod_permit (p : Nat) (f : Page → Page) (s : State) : (pageMod p f s).permit = s.permit := rfl
@[simp] theorem pageMod_pwr (p : Nat) (f : Page → Page) (s : State) : (pageMod p f s).pwr = s.pwr := rfl
@[simp] theorem pageMod_boot (p : Nat) (f : Page → Page) (s : State) : (pageMod p f s).boot = s.boot := rfl
@[simp] theorem pageMod_set (p : Nat) (f : Page → Page) (s : State) : (pageMod p f s).set = s.set := rfl
@[simp] theorem pageMod_ov (p : Nat) (f : Page → Page) (s : State) : (pageMod p f s).ov = s.ov := rfl
@[simp] theorem pageMod_clk (p : Nat) (f : Page → Page) (s : State) : (pageMod p f s).clk = s.clk := rfl
@[simp] theorem pageMod_tt (p : Nat) (f : Page → Page) (s : State) : (pageMod p f s).tt = s.tt := rfl
@[simp] theorem pageMod_lf (p : Nat) (f : Page → Page) (s : State) : (pageMod p f s).lf = s.lf := rfl
@[simp] theorem pageMod_kl (p : Nat) (f : Page → Page) (s : State) : (pageMod p f s).kl = s.kl := rfl
@[simp] theorem pageMod_uhf (p : Nat) (f : Page → Page) (s : State) : (pageMod p f s).uhf = s.uhf := rfl
@[simp] theorem pageMod_loc (p : Nat) (f : Page → Page) (s : State) : (pageMod p f s).loc = s.loc := rfl
@[simp] theorem pageMod_acc (p : Nat) (f : Page → Page) (s : State) : (pageMod p f s).acc = s.acc := rfl
@[simp] theorem pageMod_job (p : Nat) (f : Page → Page) (s : State) : (pageMod p f s).job = s.job := rfl
@[simp] theorem pageMod_cip (p : Nat) (f : Page → Page) (s : State) : (pageMod p f s).cip = s.cip := rfl
@[simp] theorem pageMod_rng (p : Nat) (f : Page → Page) (s : State) : (pageMod p f s).rng = s.rng := rfl
@[simp] theorem pageMod_ks (p : Nat) (f : Page → Page) (s : State) : (pageMod p f s).ks = s.ks := rfl
@[simp] theorem pageMod_nvm (p : Nat) (f : Page → Page) (s : State) : (pageMod p f s).nvm = s.nvm := rfl
@[simp] theorem pageMod_tmp (p : Nat) (f : Page → Page) (s : State) : (pageMod p f s).tmp = s.tmp := rfl
@[simp] theorem pageMod_sw (p : Nat) (f : Page → Page) (s : State) : (pageMod p f s).sw = s.sw := rfl
@[simp] theorem pageMod_can (p : Nat) (f : Page → Page) (s : State) : (pageMod p f s).can = s.can := rfl
@[simp] theorem pageMod_diag (p : Nat) (f : Page → Page) (s : State) : (pageMod p f s).diag = s.diag := rfl
@[simp] theorem pageMod_spi (p : Nat) (f : Page → Page) (s : State) : (pageMod p f s).spi = s.spi := rfl
@[simp] theorem pageMod_flt (p : Nat) (f : Page → Page) (s : State) : (pageMod p f s).flt = s.flt := rfl
@[simp] theorem pageMod_pins (p : Nat) (f : Page → Page) (s : State) : (pageMod p f s).pins = s.pins := rfl
@[simp] theorem pageMod_win (p : Nat) (f : Page → Page) (s : State) : (pageMod p f s).win = s.win := rfl
@[simp] theorem pageMod_flash (p : Nat) (f : Page → Page) (s : State) : (pageMod p f s).flash = s.flash := rfl

/-! ### connMod -/

@[simp] theorem connMod_pending (c : Nat) (f : Conn → Conn) (s : State) : (connMod c f s).pending = s.pending := rfl
@[simp] theorem connMod_elapsed (c : Nat) (f : Conn → Conn) (s : State) : (connMod c f s).elapsed = s.elapsed := rfl
@[simp] theorem connMod_xo (c : Nat) (f : Conn → Conn) (s : State) : (connMod c f s).xo = s.xo := rfl
@[simp] theorem connMod_evLog (c : Nat) (f : Conn → Conn) (s : State) : (connMod c f s).evLog = s.evLog := rfl
@[simp] theorem connMod_sup (c : Nat) (f : Conn → Conn) (s : State) : (connMod c f s).sup = s.sup := rfl
@[simp] theorem connMod_permit (c : Nat) (f : Conn → Conn) (s : State) : (connMod c f s).permit = s.permit := rfl
@[simp] theorem connMod_pwr (c : Nat) (f : Conn → Conn) (s : State) : (connMod c f s).pwr = s.pwr := rfl
@[simp] theorem connMod_boot (c : Nat) (f : Conn → Conn) (s : State) : (connMod c f s).boot = s.boot := rfl
@[simp] theorem connMod_set (c : Nat) (f : Conn → Conn) (s : State) : (connMod c f s).set = s.set := rfl
@[simp] theorem connMod_ov (c : Nat) (f : Conn → Conn) (s : State) : (connMod c f s).ov = s.ov := rfl
@[simp] theorem connMod_clk (c : Nat) (f : Conn → Conn) (s : State) : (connMod c f s).clk = s.clk := rfl
@[simp] theorem connMod_tt (c : Nat) (f : Conn → Conn) (s : State) : (connMod c f s).tt = s.tt := rfl
@[simp] theorem connMod_lf (c : Nat) (f : Conn → Conn) (s : State) : (connMod c f s).lf = s.lf := rfl
@[simp] theorem connMod_kl (c : Nat) (f : Conn → Conn) (s : State) : (connMod c f s).kl = s.kl := rfl
@[simp] theorem connMod_uhf (c : Nat) (f : Conn → Conn) (s : State) : (connMod c f s).uhf = s.uhf := rfl
@[simp] theorem connMod_loc (c : Nat) (f : Conn → Conn) (s : State) : (connMod c f s).loc = s.loc := rfl
@[simp] theorem connMod_acc (c : Nat) (f : Conn → Conn) (s : State) : (connMod c f s).acc = s.acc := rfl
@[simp] theorem connMod_job (c : Nat) (f : Conn → Conn) (s : State) : (connMod c f s).job = s.job := rfl
@[simp] theorem connMod_pages (c : Nat) (f : Conn → Conn) (s : State) : (connMod c f s).pages = s.pages := rfl
@[simp] theorem connMod_cip (c : Nat) (f : Conn → Conn) (s : State) : (connMod c f s).cip = s.cip := rfl
@[simp] theorem connMod_rng (c : Nat) (f : Conn → Conn) (s : State) : (connMod c f s).rng = s.rng := rfl
@[simp] theorem connMod_ks (c : Nat) (f : Conn → Conn) (s : State) : (connMod c f s).ks = s.ks := rfl
@[simp] theorem connMod_nvm (c : Nat) (f : Conn → Conn) (s : State) : (connMod c f s).nvm = s.nvm := rfl
@[simp] theorem connMod_tmp (c : Nat) (f : Conn → Conn) (s : State) : (connMod c f s).tmp = s.tmp := rfl
@[simp] theorem connMod_sw (c : Nat) (f : Conn → Conn) (s : State) : (connMod c f s).sw = s.sw := rfl
@[simp] theorem connMod_can (c : Nat) (f : Conn → Conn) (s : State) : (connMod c f s).can = s.can := rfl
@[simp] theorem connMod_spi (c : Nat) (f : Conn → Conn) (s : State) : (connMod c f s).spi = s.spi := rfl
@[simp] theorem connMod_flt (c : Nat) (f : Conn → Conn) (s : State) : (connMod c f s).flt = s.flt := rfl
@[simp] theorem connMod_pins (c : Nat) (f : Conn → Conn) (s : State) : (connMod c f s).pins = s.pins := rfl
@[simp] theorem connMod_win (c : Nat) (f : Conn → Conn) (s : State) : (connMod c f s).win = s.win := rfl
@[simp] theorem connMod_flash (c : Nat) (f : Conn → Conn) (s : State) : (connMod c f s).flash = s.flash := rfl

/-! ### portMod -/

@[simp] theorem portMod_pending (p : Nat) (f : Port → Port) (s : State) : (portMod p f s).pending = s.pending := rfl
@[simp] theorem portMod_elapsed (p : Nat) (f : Port → Port) (s : State) : (portMod p f s).elapsed = s.elapsed := rfl
@[simp] theorem portMod_xo (p : Nat) (f : Port → Port) (s : State) : (portMod p f s).xo = s.xo := rfl
@[simp] theorem portMod_evLog (p : Nat) (f : Port → Port) (s : State) : (portMod p f s).evLog = s.evLog := rfl
@[simp] theorem portMod_sup (p : Nat) (f : Port → Port) (s : State) : (portMod p f s).sup = s.sup := rfl
@[simp] theorem portMod_permit (p : Nat) (f : Port → Port) (s : State) : (portMod p f s).permit = s.permit := rfl
@[simp] theorem portMod_pwr (p : Nat) (f : Port → Port) (s : State) : (portMod p f s).pwr = s.pwr := rfl
@[simp] theorem portMod_boot (p : Nat) (f : Port → Port) (s : State) : (portMod p f s).boot = s.boot := rfl
@[simp] theorem portMod_set (p : Nat) (f : Port → Port) (s : State) : (portMod p f s).set = s.set := rfl
@[simp] theorem portMod_ov (p : Nat) (f : Port → Port) (s : State) : (portMod p f s).ov = s.ov := rfl
@[simp] theorem portMod_clk (p : Nat) (f : Port → Port) (s : State) : (portMod p f s).clk = s.clk := rfl
@[simp] theorem portMod_tt (p : Nat) (f : Port → Port) (s : State) : (portMod p f s).tt = s.tt := rfl
@[simp] theorem portMod_lf (p : Nat) (f : Port → Port) (s : State) : (portMod p f s).lf = s.lf := rfl
@[simp] theorem portMod_kl (p : Nat) (f : Port → Port) (s : State) : (portMod p f s).kl = s.kl := rfl
@[simp] theorem portMod_uhf (p : Nat) (f : Port → Port) (s : State) : (portMod p f s).uhf = s.uhf := rfl
@[simp] theorem portMod_loc (p : Nat) (f : Port → Port) (s : State) : (portMod p f s).loc = s.loc := rfl
@[simp] theorem portMod_acc (p : Nat) (f : Port → Port) (s : State) : (portMod p f s).acc = s.acc := rfl
@[simp] theorem portMod_job (p : Nat) (f : Port → Port) (s : State) : (portMod p f s).job = s.job := rfl
@[simp] theorem portMod_pages (p : Nat) (f : Port → Port) (s : State) : (portMod p f s).pages = s.pages := rfl
@[simp] theorem portMod_cip (p : Nat) (f : Port → Port) (s : State) : (portMod p f s).cip = s.cip := rfl
@[simp] theorem portMod_rng (p : Nat) (f : Port → Port) (s : State) : (portMod p f s).rng = s.rng := rfl
@[simp] theorem portMod_ks (p : Nat) (f : Port → Port) (s : State) : (portMod p f s).ks = s.ks := rfl
@[simp] theorem portMod_nvm (p : Nat) (f : Port → Port) (s : State) : (portMod p f s).nvm = s.nvm := rfl
@[simp] theorem portMod_tmp (p : Nat) (f : Port → Port) (s : State) : (portMod p f s).tmp = s.tmp := rfl
@[simp] theorem portMod_can (p : Nat) (f : Port → Port) (s : State) : (portMod p f s).can = s.can := rfl
@[simp] theorem portMod_diag (p : Nat) (f : Port → Port) (s : State) : (portMod p f s).diag = s.diag := rfl
@[simp] theorem portMod_spi (p : Nat) (f : Port → Port) (s : State) : (portMod p f s).spi = s.spi := rfl
@[simp] theorem portMod_flt (p : Nat) (f : Port → Port) (s : State) : (portMod p f s).flt = s.flt := rfl
@[simp] theorem portMod_pins (p : Nat) (f : Port → Port) (s : State) : (portMod p f s).pins = s.pins := rfl
@[simp] theorem portMod_win (p : Nat) (f : Port → Port) (s : State) : (portMod p f s).win = s.win := rfl
@[simp] theorem portMod_flash (p : Nat) (f : Port → Port) (s : State) : (portMod p f s).flash = s.flash := rfl

/-! ### seqMod -/

@[simp] theorem seqMod_pending (f : Seqn → Seqn) (s : State) : (seqMod f s).pending = s.pending := rfl
@[simp] theorem seqMod_elapsed (f : Seqn → Seqn) (s : State) : (seqMod f s).elapsed = s.elapsed := rfl
@[simp] theorem seqMod_xo (f : Seqn → Seqn) (s : State) : (seqMod f s).xo = s.xo := rfl
@[simp] theorem seqMod_evLog (f : Seqn → Seqn) (s : State) : (seqMod f s).evLog = s.evLog := rfl
@[simp] theorem seqMod_sup (f : Seqn → Seqn) (s : State) : (seqMod f s).sup = s.sup := rfl
@[simp] theorem seqMod_permit (f : Seqn → Seqn) (s : State) : (seqMod f s).permit = s.permit := rfl
@[simp] theorem seqMod_pwr (f : Seqn → Seqn) (s : State) : (seqMod f s).pwr = s.pwr := rfl
@[simp] theorem seqMod_boot (f : Seqn → Seqn) (s : State) : (seqMod f s).boot = s.boot := rfl
@[simp] theorem seqMod_set (f : Seqn → Seqn) (s : State) : (seqMod f s).set = s.set := rfl
@[simp] theorem seqMod_ov (f : Seqn → Seqn) (s : State) : (seqMod f s).ov = s.ov := rfl
@[simp] theorem seqMod_clk (f : Seqn → Seqn) (s : State) : (seqMod f s).clk = s.clk := rfl
@[simp] theorem seqMod_tt (f : Seqn → Seqn) (s : State) : (seqMod f s).tt = s.tt := rfl
@[simp] theorem seqMod_lf (f : Seqn → Seqn) (s : State) : (seqMod f s).lf = s.lf := rfl
@[simp] theorem seqMod_kl (f : Seqn → Seqn) (s : State) : (seqMod f s).kl = s.kl := rfl
@[simp] theorem seqMod_uhf (f : Seqn → Seqn) (s : State) : (seqMod f s).uhf = s.uhf := rfl
@[simp] theorem seqMod_loc (f : Seqn → Seqn) (s : State) : (seqMod f s).loc = s.loc := rfl
@[simp] theorem seqMod_job (f : Seqn → Seqn) (s : State) : (seqMod f s).job = s.job := rfl
@[simp] theorem seqMod_pages (f : Seqn → Seqn) (s : State) : (seqMod f s).pages = s.pages := rfl
@[simp] theorem seqMod_cip (f : Seqn → Seqn) (s : State) : (seqMod f s).cip = s.cip := rfl
@[simp] theorem seqMod_rng (f : Seqn → Seqn) (s : State) : (seqMod f s).rng = s.rng := rfl
@[simp] theorem seqMod_ks (f : Seqn → Seqn) (s : State) : (seqMod f s).ks = s.ks := rfl
@[simp] theorem seqMod_nvm (f : Seqn → Seqn) (s : State) : (seqMod f s).nvm = s.nvm := rfl
@[simp] theorem seqMod_tmp (f : Seqn → Seqn) (s : State) : (seqMod f s).tmp = s.tmp := rfl
@[simp] theorem seqMod_sw (f : Seqn → Seqn) (s : State) : (seqMod f s).sw = s.sw := rfl
@[simp] theorem seqMod_can (f : Seqn → Seqn) (s : State) : (seqMod f s).can = s.can := rfl
@[simp] theorem seqMod_diag (f : Seqn → Seqn) (s : State) : (seqMod f s).diag = s.diag := rfl
@[simp] theorem seqMod_spi (f : Seqn → Seqn) (s : State) : (seqMod f s).spi = s.spi := rfl
@[simp] theorem seqMod_flt (f : Seqn → Seqn) (s : State) : (seqMod f s).flt = s.flt := rfl
@[simp] theorem seqMod_pins (f : Seqn → Seqn) (s : State) : (seqMod f s).pins = s.pins := rfl
@[simp] theorem seqMod_win (f : Seqn → Seqn) (s : State) : (seqMod f s).win = s.win := rfl
@[simp] theorem seqMod_flash (f : Seqn → Seqn) (s : State) : (seqMod f s).flash = s.flash := rfl

/-! ### trxMod -/

@[simp] theorem trxMod_pending (n : Nat) (f : Trx → Trx) (s : State) : (trxMod n f s).pending = s.pending := rfl
@[simp] theorem trxMod_elapsed (n : Nat) (f : Trx → Trx) (s : State) : (trxMod n f s).elapsed = s.elapsed := rfl
@[simp] theorem trxMod_xo (n : Nat) (f : Trx → Trx) (s : State) : (trxMod n f s).xo = s.xo := rfl
@[simp] theorem trxMod_evLog (n : Nat) (f : Trx → Trx) (s : State) : (trxMod n f s).evLog = s.evLog := rfl
@[simp] theorem trxMod_sup (n : Nat) (f : Trx → Trx) (s : State) : (trxMod n f s).sup = s.sup := rfl
@[simp] theorem trxMod_permit (n : Nat) (f : Trx → Trx) (s : State) : (trxMod n f s).permit = s.permit := rfl
@[simp] theorem trxMod_pwr (n : Nat) (f : Trx → Trx) (s : State) : (trxMod n f s).pwr = s.pwr := rfl
@[simp] theorem trxMod_boot (n : Nat) (f : Trx → Trx) (s : State) : (trxMod n f s).boot = s.boot := rfl
@[simp] theorem trxMod_set (n : Nat) (f : Trx → Trx) (s : State) : (trxMod n f s).set = s.set := rfl
@[simp] theorem trxMod_ov (n : Nat) (f : Trx → Trx) (s : State) : (trxMod n f s).ov = s.ov := rfl
@[simp] theorem trxMod_clk (n : Nat) (f : Trx → Trx) (s : State) : (trxMod n f s).clk = s.clk := rfl
@[simp] theorem trxMod_tt (n : Nat) (f : Trx → Trx) (s : State) : (trxMod n f s).tt = s.tt := rfl
@[simp] theorem trxMod_lf (n : Nat) (f : Trx → Trx) (s : State) : (trxMod n f s).lf = s.lf := rfl
@[simp] theorem trxMod_kl (n : Nat) (f : Trx → Trx) (s : State) : (trxMod n f s).kl = s.kl := rfl
@[simp] theorem trxMod_loc (n : Nat) (f : Trx → Trx) (s : State) : (trxMod n f s).loc = s.loc := rfl
@[simp] theorem trxMod_acc (n : Nat) (f : Trx → Trx) (s : State) : (trxMod n f s).acc = s.acc := rfl
@[simp] theorem trxMod_job (n : Nat) (f : Trx → Trx) (s : State) : (trxMod n f s).job = s.job := rfl
@[simp] theorem trxMod_pages (n : Nat) (f : Trx → Trx) (s : State) : (trxMod n f s).pages = s.pages := rfl
@[simp] theorem trxMod_cip (n : Nat) (f : Trx → Trx) (s : State) : (trxMod n f s).cip = s.cip := rfl
@[simp] theorem trxMod_rng (n : Nat) (f : Trx → Trx) (s : State) : (trxMod n f s).rng = s.rng := rfl
@[simp] theorem trxMod_ks (n : Nat) (f : Trx → Trx) (s : State) : (trxMod n f s).ks = s.ks := rfl
@[simp] theorem trxMod_nvm (n : Nat) (f : Trx → Trx) (s : State) : (trxMod n f s).nvm = s.nvm := rfl
@[simp] theorem trxMod_tmp (n : Nat) (f : Trx → Trx) (s : State) : (trxMod n f s).tmp = s.tmp := rfl
@[simp] theorem trxMod_sw (n : Nat) (f : Trx → Trx) (s : State) : (trxMod n f s).sw = s.sw := rfl
@[simp] theorem trxMod_can (n : Nat) (f : Trx → Trx) (s : State) : (trxMod n f s).can = s.can := rfl
@[simp] theorem trxMod_diag (n : Nat) (f : Trx → Trx) (s : State) : (trxMod n f s).diag = s.diag := rfl
@[simp] theorem trxMod_spi (n : Nat) (f : Trx → Trx) (s : State) : (trxMod n f s).spi = s.spi := rfl
@[simp] theorem trxMod_flt (n : Nat) (f : Trx → Trx) (s : State) : (trxMod n f s).flt = s.flt := rfl
@[simp] theorem trxMod_pins (n : Nat) (f : Trx → Trx) (s : State) : (trxMod n f s).pins = s.pins := rfl
@[simp] theorem trxMod_win (n : Nat) (f : Trx → Trx) (s : State) : (trxMod n f s).win = s.win := rfl
@[simp] theorem trxMod_flash (n : Nat) (f : Trx → Trx) (s : State) : (trxMod n f s).flash = s.flash := rfl

/-! ### ringMod -/

@[simp] theorem ringMod_pending (n : Nat) (f : Ring → Ring) (s : State) : (ringMod n f s).pending = s.pending := rfl
@[simp] theorem ringMod_elapsed (n : Nat) (f : Ring → Ring) (s : State) : (ringMod n f s).elapsed = s.elapsed := rfl
@[simp] theorem ringMod_xo (n : Nat) (f : Ring → Ring) (s : State) : (ringMod n f s).xo = s.xo := rfl
@[simp] theorem ringMod_evLog (n : Nat) (f : Ring → Ring) (s : State) : (ringMod n f s).evLog = s.evLog := rfl
@[simp] theorem ringMod_sup (n : Nat) (f : Ring → Ring) (s : State) : (ringMod n f s).sup = s.sup := rfl
@[simp] theorem ringMod_permit (n : Nat) (f : Ring → Ring) (s : State) : (ringMod n f s).permit = s.permit := rfl
@[simp] theorem ringMod_pwr (n : Nat) (f : Ring → Ring) (s : State) : (ringMod n f s).pwr = s.pwr := rfl
@[simp] theorem ringMod_boot (n : Nat) (f : Ring → Ring) (s : State) : (ringMod n f s).boot = s.boot := rfl
@[simp] theorem ringMod_set (n : Nat) (f : Ring → Ring) (s : State) : (ringMod n f s).set = s.set := rfl
@[simp] theorem ringMod_ov (n : Nat) (f : Ring → Ring) (s : State) : (ringMod n f s).ov = s.ov := rfl
@[simp] theorem ringMod_clk (n : Nat) (f : Ring → Ring) (s : State) : (ringMod n f s).clk = s.clk := rfl
@[simp] theorem ringMod_tt (n : Nat) (f : Ring → Ring) (s : State) : (ringMod n f s).tt = s.tt := rfl
@[simp] theorem ringMod_lf (n : Nat) (f : Ring → Ring) (s : State) : (ringMod n f s).lf = s.lf := rfl
@[simp] theorem ringMod_kl (n : Nat) (f : Ring → Ring) (s : State) : (ringMod n f s).kl = s.kl := rfl
@[simp] theorem ringMod_uhf (n : Nat) (f : Ring → Ring) (s : State) : (ringMod n f s).uhf = s.uhf := rfl
@[simp] theorem ringMod_loc (n : Nat) (f : Ring → Ring) (s : State) : (ringMod n f s).loc = s.loc := rfl
@[simp] theorem ringMod_acc (n : Nat) (f : Ring → Ring) (s : State) : (ringMod n f s).acc = s.acc := rfl
@[simp] theorem ringMod_pages (n : Nat) (f : Ring → Ring) (s : State) : (ringMod n f s).pages = s.pages := rfl
@[simp] theorem ringMod_cip (n : Nat) (f : Ring → Ring) (s : State) : (ringMod n f s).cip = s.cip := rfl
@[simp] theorem ringMod_rng (n : Nat) (f : Ring → Ring) (s : State) : (ringMod n f s).rng = s.rng := rfl
@[simp] theorem ringMod_ks (n : Nat) (f : Ring → Ring) (s : State) : (ringMod n f s).ks = s.ks := rfl
@[simp] theorem ringMod_nvm (n : Nat) (f : Ring → Ring) (s : State) : (ringMod n f s).nvm = s.nvm := rfl
@[simp] theorem ringMod_tmp (n : Nat) (f : Ring → Ring) (s : State) : (ringMod n f s).tmp = s.tmp := rfl
@[simp] theorem ringMod_sw (n : Nat) (f : Ring → Ring) (s : State) : (ringMod n f s).sw = s.sw := rfl
@[simp] theorem ringMod_can (n : Nat) (f : Ring → Ring) (s : State) : (ringMod n f s).can = s.can := rfl
@[simp] theorem ringMod_diag (n : Nat) (f : Ring → Ring) (s : State) : (ringMod n f s).diag = s.diag := rfl
@[simp] theorem ringMod_spi (n : Nat) (f : Ring → Ring) (s : State) : (ringMod n f s).spi = s.spi := rfl
@[simp] theorem ringMod_flt (n : Nat) (f : Ring → Ring) (s : State) : (ringMod n f s).flt = s.flt := rfl
@[simp] theorem ringMod_pins (n : Nat) (f : Ring → Ring) (s : State) : (ringMod n f s).pins = s.pins := rfl
@[simp] theorem ringMod_win (n : Nat) (f : Ring → Ring) (s : State) : (ringMod n f s).win = s.win := rfl
@[simp] theorem ringMod_flash (n : Nat) (f : Ring → Ring) (s : State) : (ringMod n f s).flash = s.flash := rfl

/-! ### opMod -/

@[simp] theorem opMod_pending (tag : Nat) (f : Op → Op) (s : State) : (opMod tag f s).pending = s.pending := rfl
@[simp] theorem opMod_elapsed (tag : Nat) (f : Op → Op) (s : State) : (opMod tag f s).elapsed = s.elapsed := rfl
@[simp] theorem opMod_xo (tag : Nat) (f : Op → Op) (s : State) : (opMod tag f s).xo = s.xo := rfl
@[simp] theorem opMod_evLog (tag : Nat) (f : Op → Op) (s : State) : (opMod tag f s).evLog = s.evLog := rfl
@[simp] theorem opMod_sup (tag : Nat) (f : Op → Op) (s : State) : (opMod tag f s).sup = s.sup := rfl
@[simp] theorem opMod_permit (tag : Nat) (f : Op → Op) (s : State) : (opMod tag f s).permit = s.permit := rfl
@[simp] theorem opMod_pwr (tag : Nat) (f : Op → Op) (s : State) : (opMod tag f s).pwr = s.pwr := rfl
@[simp] theorem opMod_boot (tag : Nat) (f : Op → Op) (s : State) : (opMod tag f s).boot = s.boot := rfl
@[simp] theorem opMod_set (tag : Nat) (f : Op → Op) (s : State) : (opMod tag f s).set = s.set := rfl
@[simp] theorem opMod_ov (tag : Nat) (f : Op → Op) (s : State) : (opMod tag f s).ov = s.ov := rfl
@[simp] theorem opMod_clk (tag : Nat) (f : Op → Op) (s : State) : (opMod tag f s).clk = s.clk := rfl
@[simp] theorem opMod_tt (tag : Nat) (f : Op → Op) (s : State) : (opMod tag f s).tt = s.tt := rfl
@[simp] theorem opMod_lf (tag : Nat) (f : Op → Op) (s : State) : (opMod tag f s).lf = s.lf := rfl
@[simp] theorem opMod_kl (tag : Nat) (f : Op → Op) (s : State) : (opMod tag f s).kl = s.kl := rfl
@[simp] theorem opMod_uhf (tag : Nat) (f : Op → Op) (s : State) : (opMod tag f s).uhf = s.uhf := rfl
@[simp] theorem opMod_loc (tag : Nat) (f : Op → Op) (s : State) : (opMod tag f s).loc = s.loc := rfl
@[simp] theorem opMod_acc (tag : Nat) (f : Op → Op) (s : State) : (opMod tag f s).acc = s.acc := rfl
@[simp] theorem opMod_pages (tag : Nat) (f : Op → Op) (s : State) : (opMod tag f s).pages = s.pages := rfl
@[simp] theorem opMod_cip (tag : Nat) (f : Op → Op) (s : State) : (opMod tag f s).cip = s.cip := rfl
@[simp] theorem opMod_rng (tag : Nat) (f : Op → Op) (s : State) : (opMod tag f s).rng = s.rng := rfl
@[simp] theorem opMod_ks (tag : Nat) (f : Op → Op) (s : State) : (opMod tag f s).ks = s.ks := rfl
@[simp] theorem opMod_nvm (tag : Nat) (f : Op → Op) (s : State) : (opMod tag f s).nvm = s.nvm := rfl
@[simp] theorem opMod_tmp (tag : Nat) (f : Op → Op) (s : State) : (opMod tag f s).tmp = s.tmp := rfl
@[simp] theorem opMod_sw (tag : Nat) (f : Op → Op) (s : State) : (opMod tag f s).sw = s.sw := rfl
@[simp] theorem opMod_can (tag : Nat) (f : Op → Op) (s : State) : (opMod tag f s).can = s.can := rfl
@[simp] theorem opMod_diag (tag : Nat) (f : Op → Op) (s : State) : (opMod tag f s).diag = s.diag := rfl
@[simp] theorem opMod_spi (tag : Nat) (f : Op → Op) (s : State) : (opMod tag f s).spi = s.spi := rfl
@[simp] theorem opMod_flt (tag : Nat) (f : Op → Op) (s : State) : (opMod tag f s).flt = s.flt := rfl
@[simp] theorem opMod_pins (tag : Nat) (f : Op → Op) (s : State) : (opMod tag f s).pins = s.pins := rfl
@[simp] theorem opMod_win (tag : Nat) (f : Op → Op) (s : State) : (opMod tag f s).win = s.win := rfl
@[simp] theorem opMod_flash (tag : Nat) (f : Op → Op) (s : State) : (opMod tag f s).flash = s.flash := rfl

/-! ### chMod -/

@[simp] theorem chMod_pending (n : Nat) (f : Channel → Channel) (s : State) : (chMod n f s).pending = s.pending := rfl
@[simp] theorem chMod_elapsed (n : Nat) (f : Channel → Channel) (s : State) : (chMod n f s).elapsed = s.elapsed := rfl
@[simp] theorem chMod_xo (n : Nat) (f : Channel → Channel) (s : State) : (chMod n f s).xo = s.xo := rfl
@[simp] theorem chMod_evLog (n : Nat) (f : Channel → Channel) (s : State) : (chMod n f s).evLog = s.evLog := rfl
@[simp] theorem chMod_sup (n : Nat) (f : Channel → Channel) (s : State) : (chMod n f s).sup = s.sup := rfl
@[simp] theorem chMod_permit (n : Nat) (f : Channel → Channel) (s : State) : (chMod n f s).permit = s.permit := rfl
@[simp] theorem chMod_pwr (n : Nat) (f : Channel → Channel) (s : State) : (chMod n f s).pwr = s.pwr := rfl
@[simp] theorem chMod_boot (n : Nat) (f : Channel → Channel) (s : State) : (chMod n f s).boot = s.boot := rfl
@[simp] theorem chMod_set (n : Nat) (f : Channel → Channel) (s : State) : (chMod n f s).set = s.set := rfl
@[simp] theorem chMod_ov (n : Nat) (f : Channel → Channel) (s : State) : (chMod n f s).ov = s.ov := rfl
@[simp] theorem chMod_clk (n : Nat) (f : Channel → Channel) (s : State) : (chMod n f s).clk = s.clk := rfl
@[simp] theorem chMod_tt (n : Nat) (f : Channel → Channel) (s : State) : (chMod n f s).tt = s.tt := rfl
@[simp] theorem chMod_kl (n : Nat) (f : Channel → Channel) (s : State) : (chMod n f s).kl = s.kl := rfl
@[simp] theorem chMod_uhf (n : Nat) (f : Channel → Channel) (s : State) : (chMod n f s).uhf = s.uhf := rfl
@[simp] theorem chMod_loc (n : Nat) (f : Channel → Channel) (s : State) : (chMod n f s).loc = s.loc := rfl
@[simp] theorem chMod_acc (n : Nat) (f : Channel → Channel) (s : State) : (chMod n f s).acc = s.acc := rfl
@[simp] theorem chMod_job (n : Nat) (f : Channel → Channel) (s : State) : (chMod n f s).job = s.job := rfl
@[simp] theorem chMod_pages (n : Nat) (f : Channel → Channel) (s : State) : (chMod n f s).pages = s.pages := rfl
@[simp] theorem chMod_cip (n : Nat) (f : Channel → Channel) (s : State) : (chMod n f s).cip = s.cip := rfl
@[simp] theorem chMod_rng (n : Nat) (f : Channel → Channel) (s : State) : (chMod n f s).rng = s.rng := rfl
@[simp] theorem chMod_ks (n : Nat) (f : Channel → Channel) (s : State) : (chMod n f s).ks = s.ks := rfl
@[simp] theorem chMod_nvm (n : Nat) (f : Channel → Channel) (s : State) : (chMod n f s).nvm = s.nvm := rfl
@[simp] theorem chMod_tmp (n : Nat) (f : Channel → Channel) (s : State) : (chMod n f s).tmp = s.tmp := rfl
@[simp] theorem chMod_sw (n : Nat) (f : Channel → Channel) (s : State) : (chMod n f s).sw = s.sw := rfl
@[simp] theorem chMod_can (n : Nat) (f : Channel → Channel) (s : State) : (chMod n f s).can = s.can := rfl
@[simp] theorem chMod_diag (n : Nat) (f : Channel → Channel) (s : State) : (chMod n f s).diag = s.diag := rfl
@[simp] theorem chMod_spi (n : Nat) (f : Channel → Channel) (s : State) : (chMod n f s).spi = s.spi := rfl
@[simp] theorem chMod_flt (n : Nat) (f : Channel → Channel) (s : State) : (chMod n f s).flt = s.flt := rfl
@[simp] theorem chMod_pins (n : Nat) (f : Channel → Channel) (s : State) : (chMod n f s).pins = s.pins := rfl
@[simp] theorem chMod_win (n : Nat) (f : Channel → Channel) (s : State) : (chMod n f s).win = s.win := rfl
@[simp] theorem chMod_flash (n : Nat) (f : Channel → Channel) (s : State) : (chMod n f s).flash = s.flash := rfl

/-! ### canMod -/

@[simp] theorem canMod_pending (n : Nat) (f : Can → Can) (s : State) : (canMod n f s).pending = s.pending := rfl
@[simp] theorem canMod_elapsed (n : Nat) (f : Can → Can) (s : State) : (canMod n f s).elapsed = s.elapsed := rfl
@[simp] theorem canMod_xo (n : Nat) (f : Can → Can) (s : State) : (canMod n f s).xo = s.xo := rfl
@[simp] theorem canMod_evLog (n : Nat) (f : Can → Can) (s : State) : (canMod n f s).evLog = s.evLog := rfl
@[simp] theorem canMod_sup (n : Nat) (f : Can → Can) (s : State) : (canMod n f s).sup = s.sup := rfl
@[simp] theorem canMod_permit (n : Nat) (f : Can → Can) (s : State) : (canMod n f s).permit = s.permit := rfl
@[simp] theorem canMod_pwr (n : Nat) (f : Can → Can) (s : State) : (canMod n f s).pwr = s.pwr := rfl
@[simp] theorem canMod_boot (n : Nat) (f : Can → Can) (s : State) : (canMod n f s).boot = s.boot := rfl
@[simp] theorem canMod_set (n : Nat) (f : Can → Can) (s : State) : (canMod n f s).set = s.set := rfl
@[simp] theorem canMod_ov (n : Nat) (f : Can → Can) (s : State) : (canMod n f s).ov = s.ov := rfl
@[simp] theorem canMod_clk (n : Nat) (f : Can → Can) (s : State) : (canMod n f s).clk = s.clk := rfl
@[simp] theorem canMod_tt (n : Nat) (f : Can → Can) (s : State) : (canMod n f s).tt = s.tt := rfl
@[simp] theorem canMod_lf (n : Nat) (f : Can → Can) (s : State) : (canMod n f s).lf = s.lf := rfl
@[simp] theorem canMod_kl (n : Nat) (f : Can → Can) (s : State) : (canMod n f s).kl = s.kl := rfl
@[simp] theorem canMod_uhf (n : Nat) (f : Can → Can) (s : State) : (canMod n f s).uhf = s.uhf := rfl
@[simp] theorem canMod_loc (n : Nat) (f : Can → Can) (s : State) : (canMod n f s).loc = s.loc := rfl
@[simp] theorem canMod_acc (n : Nat) (f : Can → Can) (s : State) : (canMod n f s).acc = s.acc := rfl
@[simp] theorem canMod_job (n : Nat) (f : Can → Can) (s : State) : (canMod n f s).job = s.job := rfl
@[simp] theorem canMod_pages (n : Nat) (f : Can → Can) (s : State) : (canMod n f s).pages = s.pages := rfl
@[simp] theorem canMod_cip (n : Nat) (f : Can → Can) (s : State) : (canMod n f s).cip = s.cip := rfl
@[simp] theorem canMod_rng (n : Nat) (f : Can → Can) (s : State) : (canMod n f s).rng = s.rng := rfl
@[simp] theorem canMod_ks (n : Nat) (f : Can → Can) (s : State) : (canMod n f s).ks = s.ks := rfl
@[simp] theorem canMod_nvm (n : Nat) (f : Can → Can) (s : State) : (canMod n f s).nvm = s.nvm := rfl
@[simp] theorem canMod_tmp (n : Nat) (f : Can → Can) (s : State) : (canMod n f s).tmp = s.tmp := rfl
@[simp] theorem canMod_sw (n : Nat) (f : Can → Can) (s : State) : (canMod n f s).sw = s.sw := rfl
@[simp] theorem canMod_diag (n : Nat) (f : Can → Can) (s : State) : (canMod n f s).diag = s.diag := rfl
@[simp] theorem canMod_spi (n : Nat) (f : Can → Can) (s : State) : (canMod n f s).spi = s.spi := rfl
@[simp] theorem canMod_flt (n : Nat) (f : Can → Can) (s : State) : (canMod n f s).flt = s.flt := rfl
@[simp] theorem canMod_pins (n : Nat) (f : Can → Can) (s : State) : (canMod n f s).pins = s.pins := rfl
@[simp] theorem canMod_win (n : Nat) (f : Can → Can) (s : State) : (canMod n f s).win = s.win := rfl
@[simp] theorem canMod_flash (n : Nat) (f : Can → Can) (s : State) : (canMod n f s).flash = s.flash := rfl

/-! ### slotMod -/

@[simp] theorem slotMod_pending (n : Nat) (f : Slot → Slot) (s : State) : (slotMod n f s).pending = s.pending := rfl
@[simp] theorem slotMod_elapsed (n : Nat) (f : Slot → Slot) (s : State) : (slotMod n f s).elapsed = s.elapsed := rfl
@[simp] theorem slotMod_xo (n : Nat) (f : Slot → Slot) (s : State) : (slotMod n f s).xo = s.xo := rfl
@[simp] theorem slotMod_evLog (n : Nat) (f : Slot → Slot) (s : State) : (slotMod n f s).evLog = s.evLog := rfl
@[simp] theorem slotMod_sup (n : Nat) (f : Slot → Slot) (s : State) : (slotMod n f s).sup = s.sup := rfl
@[simp] theorem slotMod_permit (n : Nat) (f : Slot → Slot) (s : State) : (slotMod n f s).permit = s.permit := rfl
@[simp] theorem slotMod_pwr (n : Nat) (f : Slot → Slot) (s : State) : (slotMod n f s).pwr = s.pwr := rfl
@[simp] theorem slotMod_boot (n : Nat) (f : Slot → Slot) (s : State) : (slotMod n f s).boot = s.boot := rfl
@[simp] theorem slotMod_set (n : Nat) (f : Slot → Slot) (s : State) : (slotMod n f s).set = s.set := rfl
@[simp] theorem slotMod_ov (n : Nat) (f : Slot → Slot) (s : State) : (slotMod n f s).ov = s.ov := rfl
@[simp] theorem slotMod_clk (n : Nat) (f : Slot → Slot) (s : State) : (slotMod n f s).clk = s.clk := rfl
@[simp] theorem slotMod_tt (n : Nat) (f : Slot → Slot) (s : State) : (slotMod n f s).tt = s.tt := rfl
@[simp] theorem slotMod_lf (n : Nat) (f : Slot → Slot) (s : State) : (slotMod n f s).lf = s.lf := rfl
@[simp] theorem slotMod_kl (n : Nat) (f : Slot → Slot) (s : State) : (slotMod n f s).kl = s.kl := rfl
@[simp] theorem slotMod_uhf (n : Nat) (f : Slot → Slot) (s : State) : (slotMod n f s).uhf = s.uhf := rfl
@[simp] theorem slotMod_loc (n : Nat) (f : Slot → Slot) (s : State) : (slotMod n f s).loc = s.loc := rfl
@[simp] theorem slotMod_acc (n : Nat) (f : Slot → Slot) (s : State) : (slotMod n f s).acc = s.acc := rfl
@[simp] theorem slotMod_job (n : Nat) (f : Slot → Slot) (s : State) : (slotMod n f s).job = s.job := rfl
@[simp] theorem slotMod_pages (n : Nat) (f : Slot → Slot) (s : State) : (slotMod n f s).pages = s.pages := rfl
@[simp] theorem slotMod_cip (n : Nat) (f : Slot → Slot) (s : State) : (slotMod n f s).cip = s.cip := rfl
@[simp] theorem slotMod_rng (n : Nat) (f : Slot → Slot) (s : State) : (slotMod n f s).rng = s.rng := rfl
@[simp] theorem slotMod_nvm (n : Nat) (f : Slot → Slot) (s : State) : (slotMod n f s).nvm = s.nvm := rfl
@[simp] theorem slotMod_tmp (n : Nat) (f : Slot → Slot) (s : State) : (slotMod n f s).tmp = s.tmp := rfl
@[simp] theorem slotMod_sw (n : Nat) (f : Slot → Slot) (s : State) : (slotMod n f s).sw = s.sw := rfl
@[simp] theorem slotMod_can (n : Nat) (f : Slot → Slot) (s : State) : (slotMod n f s).can = s.can := rfl
@[simp] theorem slotMod_diag (n : Nat) (f : Slot → Slot) (s : State) : (slotMod n f s).diag = s.diag := rfl
@[simp] theorem slotMod_spi (n : Nat) (f : Slot → Slot) (s : State) : (slotMod n f s).spi = s.spi := rfl
@[simp] theorem slotMod_flt (n : Nat) (f : Slot → Slot) (s : State) : (slotMod n f s).flt = s.flt := rfl
@[simp] theorem slotMod_pins (n : Nat) (f : Slot → Slot) (s : State) : (slotMod n f s).pins = s.pins := rfl
@[simp] theorem slotMod_win (n : Nat) (f : Slot → Slot) (s : State) : (slotMod n f s).win = s.win := rfl
@[simp] theorem slotMod_flash (n : Nat) (f : Slot → Slot) (s : State) : (slotMod n f s).flash = s.flash := rfl

/-! ### credMod -/

@[simp] theorem credMod_pending (i : Nat) (f : Cred → Cred) (s : State) : (credMod i f s).pending = s.pending := rfl
@[simp] theorem credMod_elapsed (i : Nat) (f : Cred → Cred) (s : State) : (credMod i f s).elapsed = s.elapsed := rfl
@[simp] theorem credMod_xo (i : Nat) (f : Cred → Cred) (s : State) : (credMod i f s).xo = s.xo := rfl
@[simp] theorem credMod_evLog (i : Nat) (f : Cred → Cred) (s : State) : (credMod i f s).evLog = s.evLog := rfl
@[simp] theorem credMod_sup (i : Nat) (f : Cred → Cred) (s : State) : (credMod i f s).sup = s.sup := rfl
@[simp] theorem credMod_permit (i : Nat) (f : Cred → Cred) (s : State) : (credMod i f s).permit = s.permit := rfl
@[simp] theorem credMod_pwr (i : Nat) (f : Cred → Cred) (s : State) : (credMod i f s).pwr = s.pwr := rfl
@[simp] theorem credMod_boot (i : Nat) (f : Cred → Cred) (s : State) : (credMod i f s).boot = s.boot := rfl
@[simp] theorem credMod_set (i : Nat) (f : Cred → Cred) (s : State) : (credMod i f s).set = s.set := rfl
@[simp] theorem credMod_ov (i : Nat) (f : Cred → Cred) (s : State) : (credMod i f s).ov = s.ov := rfl
@[simp] theorem credMod_clk (i : Nat) (f : Cred → Cred) (s : State) : (credMod i f s).clk = s.clk := rfl
@[simp] theorem credMod_tt (i : Nat) (f : Cred → Cred) (s : State) : (credMod i f s).tt = s.tt := rfl
@[simp] theorem credMod_lf (i : Nat) (f : Cred → Cred) (s : State) : (credMod i f s).lf = s.lf := rfl
@[simp] theorem credMod_kl (i : Nat) (f : Cred → Cred) (s : State) : (credMod i f s).kl = s.kl := rfl
@[simp] theorem credMod_uhf (i : Nat) (f : Cred → Cred) (s : State) : (credMod i f s).uhf = s.uhf := rfl
@[simp] theorem credMod_loc (i : Nat) (f : Cred → Cred) (s : State) : (credMod i f s).loc = s.loc := rfl
@[simp] theorem credMod_job (i : Nat) (f : Cred → Cred) (s : State) : (credMod i f s).job = s.job := rfl
@[simp] theorem credMod_pages (i : Nat) (f : Cred → Cred) (s : State) : (credMod i f s).pages = s.pages := rfl
@[simp] theorem credMod_cip (i : Nat) (f : Cred → Cred) (s : State) : (credMod i f s).cip = s.cip := rfl
@[simp] theorem credMod_rng (i : Nat) (f : Cred → Cred) (s : State) : (credMod i f s).rng = s.rng := rfl
@[simp] theorem credMod_ks (i : Nat) (f : Cred → Cred) (s : State) : (credMod i f s).ks = s.ks := rfl
@[simp] theorem credMod_nvm (i : Nat) (f : Cred → Cred) (s : State) : (credMod i f s).nvm = s.nvm := rfl
@[simp] theorem credMod_tmp (i : Nat) (f : Cred → Cred) (s : State) : (credMod i f s).tmp = s.tmp := rfl
@[simp] theorem credMod_sw (i : Nat) (f : Cred → Cred) (s : State) : (credMod i f s).sw = s.sw := rfl
@[simp] theorem credMod_can (i : Nat) (f : Cred → Cred) (s : State) : (credMod i f s).can = s.can := rfl
@[simp] theorem credMod_diag (i : Nat) (f : Cred → Cred) (s : State) : (credMod i f s).diag = s.diag := rfl
@[simp] theorem credMod_spi (i : Nat) (f : Cred → Cred) (s : State) : (credMod i f s).spi = s.spi := rfl
@[simp] theorem credMod_flt (i : Nat) (f : Cred → Cred) (s : State) : (credMod i f s).flt = s.flt := rfl
@[simp] theorem credMod_pins (i : Nat) (f : Cred → Cred) (s : State) : (credMod i f s).pins = s.pins := rfl
@[simp] theorem credMod_win (i : Nat) (f : Cred → Cred) (s : State) : (credMod i f s).win = s.win := rfl
@[simp] theorem credMod_flash (i : Nat) (f : Cred → Cred) (s : State) : (credMod i f s).flash = s.flash := rfl

/-! ### ctrPut -/

@[simp] theorem ctrPut_pending (n : Nat) (c : Ctr) (s : State) : (ctrPut n c s).pending = s.pending := rfl
@[simp] theorem ctrPut_elapsed (n : Nat) (c : Ctr) (s : State) : (ctrPut n c s).elapsed = s.elapsed := rfl
@[simp] theorem ctrPut_xo (n : Nat) (c : Ctr) (s : State) : (ctrPut n c s).xo = s.xo := rfl
@[simp] theorem ctrPut_evLog (n : Nat) (c : Ctr) (s : State) : (ctrPut n c s).evLog = s.evLog := rfl
@[simp] theorem ctrPut_sup (n : Nat) (c : Ctr) (s : State) : (ctrPut n c s).sup = s.sup := rfl
@[simp] theorem ctrPut_permit (n : Nat) (c : Ctr) (s : State) : (ctrPut n c s).permit = s.permit := rfl
@[simp] theorem ctrPut_pwr (n : Nat) (c : Ctr) (s : State) : (ctrPut n c s).pwr = s.pwr := rfl
@[simp] theorem ctrPut_boot (n : Nat) (c : Ctr) (s : State) : (ctrPut n c s).boot = s.boot := rfl
@[simp] theorem ctrPut_set (n : Nat) (c : Ctr) (s : State) : (ctrPut n c s).set = s.set := rfl
@[simp] theorem ctrPut_ov (n : Nat) (c : Ctr) (s : State) : (ctrPut n c s).ov = s.ov := rfl
@[simp] theorem ctrPut_clk (n : Nat) (c : Ctr) (s : State) : (ctrPut n c s).clk = s.clk := rfl
@[simp] theorem ctrPut_tt (n : Nat) (c : Ctr) (s : State) : (ctrPut n c s).tt = s.tt := rfl
@[simp] theorem ctrPut_lf (n : Nat) (c : Ctr) (s : State) : (ctrPut n c s).lf = s.lf := rfl
@[simp] theorem ctrPut_kl (n : Nat) (c : Ctr) (s : State) : (ctrPut n c s).kl = s.kl := rfl
@[simp] theorem ctrPut_uhf (n : Nat) (c : Ctr) (s : State) : (ctrPut n c s).uhf = s.uhf := rfl
@[simp] theorem ctrPut_loc (n : Nat) (c : Ctr) (s : State) : (ctrPut n c s).loc = s.loc := rfl
@[simp] theorem ctrPut_acc (n : Nat) (c : Ctr) (s : State) : (ctrPut n c s).acc = s.acc := rfl
@[simp] theorem ctrPut_job (n : Nat) (c : Ctr) (s : State) : (ctrPut n c s).job = s.job := rfl
@[simp] theorem ctrPut_pages (n : Nat) (c : Ctr) (s : State) : (ctrPut n c s).pages = s.pages := rfl
@[simp] theorem ctrPut_cip (n : Nat) (c : Ctr) (s : State) : (ctrPut n c s).cip = s.cip := rfl
@[simp] theorem ctrPut_rng (n : Nat) (c : Ctr) (s : State) : (ctrPut n c s).rng = s.rng := rfl
@[simp] theorem ctrPut_ks (n : Nat) (c : Ctr) (s : State) : (ctrPut n c s).ks = s.ks := rfl
@[simp] theorem ctrPut_tmp (n : Nat) (c : Ctr) (s : State) : (ctrPut n c s).tmp = s.tmp := rfl
@[simp] theorem ctrPut_sw (n : Nat) (c : Ctr) (s : State) : (ctrPut n c s).sw = s.sw := rfl
@[simp] theorem ctrPut_can (n : Nat) (c : Ctr) (s : State) : (ctrPut n c s).can = s.can := rfl
@[simp] theorem ctrPut_diag (n : Nat) (c : Ctr) (s : State) : (ctrPut n c s).diag = s.diag := rfl
@[simp] theorem ctrPut_spi (n : Nat) (c : Ctr) (s : State) : (ctrPut n c s).spi = s.spi := rfl
@[simp] theorem ctrPut_flt (n : Nat) (c : Ctr) (s : State) : (ctrPut n c s).flt = s.flt := rfl
@[simp] theorem ctrPut_pins (n : Nat) (c : Ctr) (s : State) : (ctrPut n c s).pins = s.pins := rfl
@[simp] theorem ctrPut_win (n : Nat) (c : Ctr) (s : State) : (ctrPut n c s).win = s.win := rfl
@[simp] theorem ctrPut_flash (n : Nat) (c : Ctr) (s : State) : (ctrPut n c s).flash = s.flash := rfl

/-! ### tpoMod -/

@[simp] theorem tpoMod_pending (n : Nat) (f : Tpo → Tpo) (s : State) : (tpoMod n f s).pending = s.pending := rfl
@[simp] theorem tpoMod_elapsed (n : Nat) (f : Tpo → Tpo) (s : State) : (tpoMod n f s).elapsed = s.elapsed := rfl
@[simp] theorem tpoMod_xo (n : Nat) (f : Tpo → Tpo) (s : State) : (tpoMod n f s).xo = s.xo := rfl
@[simp] theorem tpoMod_evLog (n : Nat) (f : Tpo → Tpo) (s : State) : (tpoMod n f s).evLog = s.evLog := rfl
@[simp] theorem tpoMod_sup (n : Nat) (f : Tpo → Tpo) (s : State) : (tpoMod n f s).sup = s.sup := rfl
@[simp] theorem tpoMod_permit (n : Nat) (f : Tpo → Tpo) (s : State) : (tpoMod n f s).permit = s.permit := rfl
@[simp] theorem tpoMod_pwr (n : Nat) (f : Tpo → Tpo) (s : State) : (tpoMod n f s).pwr = s.pwr := rfl
@[simp] theorem tpoMod_boot (n : Nat) (f : Tpo → Tpo) (s : State) : (tpoMod n f s).boot = s.boot := rfl
@[simp] theorem tpoMod_set (n : Nat) (f : Tpo → Tpo) (s : State) : (tpoMod n f s).set = s.set := rfl
@[simp] theorem tpoMod_ov (n : Nat) (f : Tpo → Tpo) (s : State) : (tpoMod n f s).ov = s.ov := rfl
@[simp] theorem tpoMod_tt (n : Nat) (f : Tpo → Tpo) (s : State) : (tpoMod n f s).tt = s.tt := rfl
@[simp] theorem tpoMod_lf (n : Nat) (f : Tpo → Tpo) (s : State) : (tpoMod n f s).lf = s.lf := rfl
@[simp] theorem tpoMod_kl (n : Nat) (f : Tpo → Tpo) (s : State) : (tpoMod n f s).kl = s.kl := rfl
@[simp] theorem tpoMod_uhf (n : Nat) (f : Tpo → Tpo) (s : State) : (tpoMod n f s).uhf = s.uhf := rfl
@[simp] theorem tpoMod_loc (n : Nat) (f : Tpo → Tpo) (s : State) : (tpoMod n f s).loc = s.loc := rfl
@[simp] theorem tpoMod_acc (n : Nat) (f : Tpo → Tpo) (s : State) : (tpoMod n f s).acc = s.acc := rfl
@[simp] theorem tpoMod_job (n : Nat) (f : Tpo → Tpo) (s : State) : (tpoMod n f s).job = s.job := rfl
@[simp] theorem tpoMod_pages (n : Nat) (f : Tpo → Tpo) (s : State) : (tpoMod n f s).pages = s.pages := rfl
@[simp] theorem tpoMod_cip (n : Nat) (f : Tpo → Tpo) (s : State) : (tpoMod n f s).cip = s.cip := rfl
@[simp] theorem tpoMod_rng (n : Nat) (f : Tpo → Tpo) (s : State) : (tpoMod n f s).rng = s.rng := rfl
@[simp] theorem tpoMod_ks (n : Nat) (f : Tpo → Tpo) (s : State) : (tpoMod n f s).ks = s.ks := rfl
@[simp] theorem tpoMod_nvm (n : Nat) (f : Tpo → Tpo) (s : State) : (tpoMod n f s).nvm = s.nvm := rfl
@[simp] theorem tpoMod_tmp (n : Nat) (f : Tpo → Tpo) (s : State) : (tpoMod n f s).tmp = s.tmp := rfl
@[simp] theorem tpoMod_sw (n : Nat) (f : Tpo → Tpo) (s : State) : (tpoMod n f s).sw = s.sw := rfl
@[simp] theorem tpoMod_can (n : Nat) (f : Tpo → Tpo) (s : State) : (tpoMod n f s).can = s.can := rfl
@[simp] theorem tpoMod_diag (n : Nat) (f : Tpo → Tpo) (s : State) : (tpoMod n f s).diag = s.diag := rfl
@[simp] theorem tpoMod_spi (n : Nat) (f : Tpo → Tpo) (s : State) : (tpoMod n f s).spi = s.spi := rfl
@[simp] theorem tpoMod_flt (n : Nat) (f : Tpo → Tpo) (s : State) : (tpoMod n f s).flt = s.flt := rfl
@[simp] theorem tpoMod_pins (n : Nat) (f : Tpo → Tpo) (s : State) : (tpoMod n f s).pins = s.pins := rfl
@[simp] theorem tpoMod_win (n : Nat) (f : Tpo → Tpo) (s : State) : (tpoMod n f s).win = s.win := rfl
@[simp] theorem tpoMod_flash (n : Nat) (f : Tpo → Tpo) (s : State) : (tpoMod n f s).flash = s.flash := rfl

/-! ### countRequests -/

@[simp] theorem countRequests_pending (n : Nat) (s : State) : (countRequests n s).pending = s.pending := rfl
@[simp] theorem countRequests_elapsed (n : Nat) (s : State) : (countRequests n s).elapsed = s.elapsed := rfl
@[simp] theorem countRequests_xo (n : Nat) (s : State) : (countRequests n s).xo = s.xo := rfl
@[simp] theorem countRequests_evLog (n : Nat) (s : State) : (countRequests n s).evLog = s.evLog := rfl
@[simp] theorem countRequests_sup (n : Nat) (s : State) : (countRequests n s).sup = s.sup := rfl
@[simp] theorem countRequests_permit (n : Nat) (s : State) : (countRequests n s).permit = s.permit := rfl
@[simp] theorem countRequests_pwr (n : Nat) (s : State) : (countRequests n s).pwr = s.pwr := rfl
@[simp] theorem countRequests_boot (n : Nat) (s : State) : (countRequests n s).boot = s.boot := rfl
@[simp] theorem countRequests_set (n : Nat) (s : State) : (countRequests n s).set = s.set := rfl
@[simp] theorem countRequests_ov (n : Nat) (s : State) : (countRequests n s).ov = s.ov := rfl
@[simp] theorem countRequests_clk (n : Nat) (s : State) : (countRequests n s).clk = s.clk := rfl
@[simp] theorem countRequests_tt (n : Nat) (s : State) : (countRequests n s).tt = s.tt := rfl
@[simp] theorem countRequests_lf (n : Nat) (s : State) : (countRequests n s).lf = s.lf := rfl
@[simp] theorem countRequests_kl (n : Nat) (s : State) : (countRequests n s).kl = s.kl := rfl
@[simp] theorem countRequests_uhf (n : Nat) (s : State) : (countRequests n s).uhf = s.uhf := rfl
@[simp] theorem countRequests_loc (n : Nat) (s : State) : (countRequests n s).loc = s.loc := rfl
@[simp] theorem countRequests_acc (n : Nat) (s : State) : (countRequests n s).acc = s.acc := rfl
@[simp] theorem countRequests_job (n : Nat) (s : State) : (countRequests n s).job = s.job := rfl
@[simp] theorem countRequests_pages (n : Nat) (s : State) : (countRequests n s).pages = s.pages := rfl
@[simp] theorem countRequests_cip (n : Nat) (s : State) : (countRequests n s).cip = s.cip := rfl
@[simp] theorem countRequests_ks (n : Nat) (s : State) : (countRequests n s).ks = s.ks := rfl
@[simp] theorem countRequests_nvm (n : Nat) (s : State) : (countRequests n s).nvm = s.nvm := rfl
@[simp] theorem countRequests_tmp (n : Nat) (s : State) : (countRequests n s).tmp = s.tmp := rfl
@[simp] theorem countRequests_sw (n : Nat) (s : State) : (countRequests n s).sw = s.sw := rfl
@[simp] theorem countRequests_can (n : Nat) (s : State) : (countRequests n s).can = s.can := rfl
@[simp] theorem countRequests_diag (n : Nat) (s : State) : (countRequests n s).diag = s.diag := rfl
@[simp] theorem countRequests_spi (n : Nat) (s : State) : (countRequests n s).spi = s.spi := rfl
@[simp] theorem countRequests_flt (n : Nat) (s : State) : (countRequests n s).flt = s.flt := rfl
@[simp] theorem countRequests_pins (n : Nat) (s : State) : (countRequests n s).pins = s.pins := rfl
@[simp] theorem countRequests_win (n : Nat) (s : State) : (countRequests n s).win = s.win := rfl
@[simp] theorem countRequests_flash (n : Nat) (s : State) : (countRequests n s).flash = s.flash := rfl

/-! ### holdStart -/

@[simp] theorem holdStart_pending (s : State) : (holdStart s).pending = s.pending := rfl
@[simp] theorem holdStart_elapsed (s : State) : (holdStart s).elapsed = s.elapsed := rfl
@[simp] theorem holdStart_xo (s : State) : (holdStart s).xo = s.xo := rfl
@[simp] theorem holdStart_evLog (s : State) : (holdStart s).evLog = s.evLog := rfl
@[simp] theorem holdStart_sup (s : State) : (holdStart s).sup = s.sup := rfl
@[simp] theorem holdStart_permit (s : State) : (holdStart s).permit = s.permit := rfl
@[simp] theorem holdStart_pwr (s : State) : (holdStart s).pwr = s.pwr := rfl
@[simp] theorem holdStart_boot (s : State) : (holdStart s).boot = s.boot := rfl
@[simp] theorem holdStart_set (s : State) : (holdStart s).set = s.set := rfl
@[simp] theorem holdStart_ov (s : State) : (holdStart s).ov = s.ov := rfl
@[simp] theorem holdStart_clk (s : State) : (holdStart s).clk = s.clk := rfl
@[simp] theorem holdStart_tt (s : State) : (holdStart s).tt = s.tt := rfl
@[simp] theorem holdStart_lf (s : State) : (holdStart s).lf = s.lf := rfl
@[simp] theorem holdStart_kl (s : State) : (holdStart s).kl = s.kl := rfl
@[simp] theorem holdStart_uhf (s : State) : (holdStart s).uhf = s.uhf := rfl
@[simp] theorem holdStart_loc (s : State) : (holdStart s).loc = s.loc := rfl
@[simp] theorem holdStart_job (s : State) : (holdStart s).job = s.job := rfl
@[simp] theorem holdStart_pages (s : State) : (holdStart s).pages = s.pages := rfl
@[simp] theorem holdStart_cip (s : State) : (holdStart s).cip = s.cip := rfl
@[simp] theorem holdStart_rng (s : State) : (holdStart s).rng = s.rng := rfl
@[simp] theorem holdStart_ks (s : State) : (holdStart s).ks = s.ks := rfl
@[simp] theorem holdStart_nvm (s : State) : (holdStart s).nvm = s.nvm := rfl
@[simp] theorem holdStart_tmp (s : State) : (holdStart s).tmp = s.tmp := rfl
@[simp] theorem holdStart_sw (s : State) : (holdStart s).sw = s.sw := rfl
@[simp] theorem holdStart_can (s : State) : (holdStart s).can = s.can := rfl
@[simp] theorem holdStart_diag (s : State) : (holdStart s).diag = s.diag := rfl
@[simp] theorem holdStart_spi (s : State) : (holdStart s).spi = s.spi := rfl
@[simp] theorem holdStart_flt (s : State) : (holdStart s).flt = s.flt := rfl
@[simp] theorem holdStart_pins (s : State) : (holdStart s).pins = s.pins := rfl
@[simp] theorem holdStart_win (s : State) : (holdStart s).win = s.win := rfl
@[simp] theorem holdStart_flash (s : State) : (holdStart s).flash = s.flash := rfl

/-! ### dtcClear -/

@[simp] theorem dtcClear_pending (code : Nat) (s : State) : (dtcClear code s).pending = s.pending := rfl
@[simp] theorem dtcClear_elapsed (code : Nat) (s : State) : (dtcClear code s).elapsed = s.elapsed := rfl
@[simp] theorem dtcClear_xo (code : Nat) (s : State) : (dtcClear code s).xo = s.xo := rfl
@[simp] theorem dtcClear_evLog (code : Nat) (s : State) : (dtcClear code s).evLog = s.evLog := rfl
@[simp] theorem dtcClear_sup (code : Nat) (s : State) : (dtcClear code s).sup = s.sup := rfl
@[simp] theorem dtcClear_permit (code : Nat) (s : State) : (dtcClear code s).permit = s.permit := rfl
@[simp] theorem dtcClear_pwr (code : Nat) (s : State) : (dtcClear code s).pwr = s.pwr := rfl
@[simp] theorem dtcClear_boot (code : Nat) (s : State) : (dtcClear code s).boot = s.boot := rfl
@[simp] theorem dtcClear_set (code : Nat) (s : State) : (dtcClear code s).set = s.set := rfl
@[simp] theorem dtcClear_ov (code : Nat) (s : State) : (dtcClear code s).ov = s.ov := rfl
@[simp] theorem dtcClear_clk (code : Nat) (s : State) : (dtcClear code s).clk = s.clk := rfl
@[simp] theorem dtcClear_tt (code : Nat) (s : State) : (dtcClear code s).tt = s.tt := rfl
@[simp] theorem dtcClear_lf (code : Nat) (s : State) : (dtcClear code s).lf = s.lf := rfl
@[simp] theorem dtcClear_kl (code : Nat) (s : State) : (dtcClear code s).kl = s.kl := rfl
@[simp] theorem dtcClear_uhf (code : Nat) (s : State) : (dtcClear code s).uhf = s.uhf := rfl
@[simp] theorem dtcClear_loc (code : Nat) (s : State) : (dtcClear code s).loc = s.loc := rfl
@[simp] theorem dtcClear_acc (code : Nat) (s : State) : (dtcClear code s).acc = s.acc := rfl
@[simp] theorem dtcClear_job (code : Nat) (s : State) : (dtcClear code s).job = s.job := rfl
@[simp] theorem dtcClear_pages (code : Nat) (s : State) : (dtcClear code s).pages = s.pages := rfl
@[simp] theorem dtcClear_cip (code : Nat) (s : State) : (dtcClear code s).cip = s.cip := rfl
@[simp] theorem dtcClear_rng (code : Nat) (s : State) : (dtcClear code s).rng = s.rng := rfl
@[simp] theorem dtcClear_ks (code : Nat) (s : State) : (dtcClear code s).ks = s.ks := rfl
@[simp] theorem dtcClear_nvm (code : Nat) (s : State) : (dtcClear code s).nvm = s.nvm := rfl
@[simp] theorem dtcClear_tmp (code : Nat) (s : State) : (dtcClear code s).tmp = s.tmp := rfl
@[simp] theorem dtcClear_sw (code : Nat) (s : State) : (dtcClear code s).sw = s.sw := rfl
@[simp] theorem dtcClear_can (code : Nat) (s : State) : (dtcClear code s).can = s.can := rfl
@[simp] theorem dtcClear_spi (code : Nat) (s : State) : (dtcClear code s).spi = s.spi := rfl
@[simp] theorem dtcClear_flt (code : Nat) (s : State) : (dtcClear code s).flt = s.flt := rfl
@[simp] theorem dtcClear_pins (code : Nat) (s : State) : (dtcClear code s).pins = s.pins := rfl
@[simp] theorem dtcClear_win (code : Nat) (s : State) : (dtcClear code s).win = s.win := rfl
@[simp] theorem dtcClear_flash (code : Nat) (s : State) : (dtcClear code s).flash = s.flash := rfl

/-! ### holdover -/

@[simp] theorem holdover_pending (s : State) : (holdover s).pending = s.pending := rfl
@[simp] theorem holdover_elapsed (s : State) : (holdover s).elapsed = s.elapsed := rfl
@[simp] theorem holdover_xo (s : State) : (holdover s).xo = s.xo := rfl
@[simp] theorem holdover_evLog (s : State) : (holdover s).evLog = s.evLog := rfl
@[simp] theorem holdover_sup (s : State) : (holdover s).sup = s.sup := rfl
@[simp] theorem holdover_permit (s : State) : (holdover s).permit = s.permit := rfl
@[simp] theorem holdover_pwr (s : State) : (holdover s).pwr = s.pwr := rfl
@[simp] theorem holdover_boot (s : State) : (holdover s).boot = s.boot := rfl
@[simp] theorem holdover_set (s : State) : (holdover s).set = s.set := rfl
@[simp] theorem holdover_ov (s : State) : (holdover s).ov = s.ov := rfl
@[simp] theorem holdover_tt (s : State) : (holdover s).tt = s.tt := rfl
@[simp] theorem holdover_lf (s : State) : (holdover s).lf = s.lf := rfl
@[simp] theorem holdover_kl (s : State) : (holdover s).kl = s.kl := rfl
@[simp] theorem holdover_uhf (s : State) : (holdover s).uhf = s.uhf := rfl
@[simp] theorem holdover_loc (s : State) : (holdover s).loc = s.loc := rfl
@[simp] theorem holdover_acc (s : State) : (holdover s).acc = s.acc := rfl
@[simp] theorem holdover_job (s : State) : (holdover s).job = s.job := rfl
@[simp] theorem holdover_pages (s : State) : (holdover s).pages = s.pages := rfl
@[simp] theorem holdover_cip (s : State) : (holdover s).cip = s.cip := rfl
@[simp] theorem holdover_rng (s : State) : (holdover s).rng = s.rng := rfl
@[simp] theorem holdover_ks (s : State) : (holdover s).ks = s.ks := rfl
@[simp] theorem holdover_nvm (s : State) : (holdover s).nvm = s.nvm := rfl
@[simp] theorem holdover_tmp (s : State) : (holdover s).tmp = s.tmp := rfl
@[simp] theorem holdover_sw (s : State) : (holdover s).sw = s.sw := rfl
@[simp] theorem holdover_can (s : State) : (holdover s).can = s.can := rfl
@[simp] theorem holdover_diag (s : State) : (holdover s).diag = s.diag := rfl
@[simp] theorem holdover_spi (s : State) : (holdover s).spi = s.spi := rfl
@[simp] theorem holdover_flt (s : State) : (holdover s).flt = s.flt := rfl
@[simp] theorem holdover_pins (s : State) : (holdover s).pins = s.pins := rfl
@[simp] theorem holdover_win (s : State) : (holdover s).win = s.win := rfl
@[simp] theorem holdover_flash (s : State) : (holdover s).flash = s.flash := rfl

/-! ### decide_ -/

@[simp] theorem decide__pending (grant : Bool) (s : State) : (decide_ grant s).pending = s.pending := rfl
@[simp] theorem decide__elapsed (grant : Bool) (s : State) : (decide_ grant s).elapsed = s.elapsed := rfl
@[simp] theorem decide__xo (grant : Bool) (s : State) : (decide_ grant s).xo = s.xo := rfl
@[simp] theorem decide__evLog (grant : Bool) (s : State) : (decide_ grant s).evLog = s.evLog := rfl
@[simp] theorem decide__sup (grant : Bool) (s : State) : (decide_ grant s).sup = s.sup := rfl
@[simp] theorem decide__permit (grant : Bool) (s : State) : (decide_ grant s).permit = s.permit := rfl
@[simp] theorem decide__pwr (grant : Bool) (s : State) : (decide_ grant s).pwr = s.pwr := rfl
@[simp] theorem decide__boot (grant : Bool) (s : State) : (decide_ grant s).boot = s.boot := rfl
@[simp] theorem decide__set (grant : Bool) (s : State) : (decide_ grant s).set = s.set := rfl
@[simp] theorem decide__ov (grant : Bool) (s : State) : (decide_ grant s).ov = s.ov := rfl
@[simp] theorem decide__clk (grant : Bool) (s : State) : (decide_ grant s).clk = s.clk := rfl
@[simp] theorem decide__tt (grant : Bool) (s : State) : (decide_ grant s).tt = s.tt := rfl
@[simp] theorem decide__lf (grant : Bool) (s : State) : (decide_ grant s).lf = s.lf := rfl
@[simp] theorem decide__kl (grant : Bool) (s : State) : (decide_ grant s).kl = s.kl := rfl
@[simp] theorem decide__uhf (grant : Bool) (s : State) : (decide_ grant s).uhf = s.uhf := rfl
@[simp] theorem decide__loc (grant : Bool) (s : State) : (decide_ grant s).loc = s.loc := rfl
@[simp] theorem decide__job (grant : Bool) (s : State) : (decide_ grant s).job = s.job := rfl
@[simp] theorem decide__pages (grant : Bool) (s : State) : (decide_ grant s).pages = s.pages := rfl
@[simp] theorem decide__cip (grant : Bool) (s : State) : (decide_ grant s).cip = s.cip := rfl
@[simp] theorem decide__rng (grant : Bool) (s : State) : (decide_ grant s).rng = s.rng := rfl
@[simp] theorem decide__ks (grant : Bool) (s : State) : (decide_ grant s).ks = s.ks := rfl
@[simp] theorem decide__nvm (grant : Bool) (s : State) : (decide_ grant s).nvm = s.nvm := rfl
@[simp] theorem decide__tmp (grant : Bool) (s : State) : (decide_ grant s).tmp = s.tmp := rfl
@[simp] theorem decide__sw (grant : Bool) (s : State) : (decide_ grant s).sw = s.sw := rfl
@[simp] theorem decide__can (grant : Bool) (s : State) : (decide_ grant s).can = s.can := rfl
@[simp] theorem decide__diag (grant : Bool) (s : State) : (decide_ grant s).diag = s.diag := rfl
@[simp] theorem decide__spi (grant : Bool) (s : State) : (decide_ grant s).spi = s.spi := rfl
@[simp] theorem decide__pins (grant : Bool) (s : State) : (decide_ grant s).pins = s.pins := rfl
@[simp] theorem decide__win (grant : Bool) (s : State) : (decide_ grant s).win = s.win := rfl
@[simp] theorem decide__flash (grant : Bool) (s : State) : (decide_ grant s).flash = s.flash := rfl

/-! ### evSup -/

@[simp] theorem evSup_pending (i : Nat) (s : State) : (evSup i s).pending = s.pending := rfl
@[simp] theorem evSup_elapsed (i : Nat) (s : State) : (evSup i s).elapsed = s.elapsed := rfl
@[simp] theorem evSup_xo (i : Nat) (s : State) : (evSup i s).xo = s.xo := rfl
@[simp] theorem evSup_permit (i : Nat) (s : State) : (evSup i s).permit = s.permit := rfl
@[simp] theorem evSup_pwr (i : Nat) (s : State) : (evSup i s).pwr = s.pwr := rfl
@[simp] theorem evSup_boot (i : Nat) (s : State) : (evSup i s).boot = s.boot := rfl
@[simp] theorem evSup_set (i : Nat) (s : State) : (evSup i s).set = s.set := rfl
@[simp] theorem evSup_ov (i : Nat) (s : State) : (evSup i s).ov = s.ov := rfl
@[simp] theorem evSup_clk (i : Nat) (s : State) : (evSup i s).clk = s.clk := rfl
@[simp] theorem evSup_tt (i : Nat) (s : State) : (evSup i s).tt = s.tt := rfl
@[simp] theorem evSup_lf (i : Nat) (s : State) : (evSup i s).lf = s.lf := rfl
@[simp] theorem evSup_kl (i : Nat) (s : State) : (evSup i s).kl = s.kl := rfl
@[simp] theorem evSup_uhf (i : Nat) (s : State) : (evSup i s).uhf = s.uhf := rfl
@[simp] theorem evSup_loc (i : Nat) (s : State) : (evSup i s).loc = s.loc := rfl
@[simp] theorem evSup_acc (i : Nat) (s : State) : (evSup i s).acc = s.acc := rfl
@[simp] theorem evSup_job (i : Nat) (s : State) : (evSup i s).job = s.job := rfl
@[simp] theorem evSup_pages (i : Nat) (s : State) : (evSup i s).pages = s.pages := rfl
@[simp] theorem evSup_cip (i : Nat) (s : State) : (evSup i s).cip = s.cip := rfl
@[simp] theorem evSup_rng (i : Nat) (s : State) : (evSup i s).rng = s.rng := rfl
@[simp] theorem evSup_ks (i : Nat) (s : State) : (evSup i s).ks = s.ks := rfl
@[simp] theorem evSup_nvm (i : Nat) (s : State) : (evSup i s).nvm = s.nvm := rfl
@[simp] theorem evSup_tmp (i : Nat) (s : State) : (evSup i s).tmp = s.tmp := rfl
@[simp] theorem evSup_sw (i : Nat) (s : State) : (evSup i s).sw = s.sw := rfl
@[simp] theorem evSup_can (i : Nat) (s : State) : (evSup i s).can = s.can := rfl
@[simp] theorem evSup_diag (i : Nat) (s : State) : (evSup i s).diag = s.diag := rfl
@[simp] theorem evSup_spi (i : Nat) (s : State) : (evSup i s).spi = s.spi := rfl
@[simp] theorem evSup_flt (i : Nat) (s : State) : (evSup i s).flt = s.flt := rfl
@[simp] theorem evSup_pins (i : Nat) (s : State) : (evSup i s).pins = s.pins := rfl
@[simp] theorem evSup_win (i : Nat) (s : State) : (evSup i s).win = s.win := rfl
@[simp] theorem evSup_flash (i : Nat) (s : State) : (evSup i s).flash = s.flash := rfl

/-! ### evAcc -/

@[simp] theorem evAcc_pending (i : Nat) (s : State) : (evAcc i s).pending = s.pending := rfl
@[simp] theorem evAcc_elapsed (i : Nat) (s : State) : (evAcc i s).elapsed = s.elapsed := rfl
@[simp] theorem evAcc_xo (i : Nat) (s : State) : (evAcc i s).xo = s.xo := rfl
@[simp] theorem evAcc_sup (i : Nat) (s : State) : (evAcc i s).sup = s.sup := rfl
@[simp] theorem evAcc_permit (i : Nat) (s : State) : (evAcc i s).permit = s.permit := rfl
@[simp] theorem evAcc_pwr (i : Nat) (s : State) : (evAcc i s).pwr = s.pwr := rfl
@[simp] theorem evAcc_boot (i : Nat) (s : State) : (evAcc i s).boot = s.boot := rfl
@[simp] theorem evAcc_set (i : Nat) (s : State) : (evAcc i s).set = s.set := rfl
@[simp] theorem evAcc_ov (i : Nat) (s : State) : (evAcc i s).ov = s.ov := rfl
@[simp] theorem evAcc_clk (i : Nat) (s : State) : (evAcc i s).clk = s.clk := rfl
@[simp] theorem evAcc_tt (i : Nat) (s : State) : (evAcc i s).tt = s.tt := rfl
@[simp] theorem evAcc_lf (i : Nat) (s : State) : (evAcc i s).lf = s.lf := rfl
@[simp] theorem evAcc_kl (i : Nat) (s : State) : (evAcc i s).kl = s.kl := rfl
@[simp] theorem evAcc_uhf (i : Nat) (s : State) : (evAcc i s).uhf = s.uhf := rfl
@[simp] theorem evAcc_loc (i : Nat) (s : State) : (evAcc i s).loc = s.loc := rfl
@[simp] theorem evAcc_job (i : Nat) (s : State) : (evAcc i s).job = s.job := rfl
@[simp] theorem evAcc_pages (i : Nat) (s : State) : (evAcc i s).pages = s.pages := rfl
@[simp] theorem evAcc_cip (i : Nat) (s : State) : (evAcc i s).cip = s.cip := rfl
@[simp] theorem evAcc_rng (i : Nat) (s : State) : (evAcc i s).rng = s.rng := rfl
@[simp] theorem evAcc_ks (i : Nat) (s : State) : (evAcc i s).ks = s.ks := rfl
@[simp] theorem evAcc_nvm (i : Nat) (s : State) : (evAcc i s).nvm = s.nvm := rfl
@[simp] theorem evAcc_tmp (i : Nat) (s : State) : (evAcc i s).tmp = s.tmp := rfl
@[simp] theorem evAcc_sw (i : Nat) (s : State) : (evAcc i s).sw = s.sw := rfl
@[simp] theorem evAcc_can (i : Nat) (s : State) : (evAcc i s).can = s.can := rfl
@[simp] theorem evAcc_diag (i : Nat) (s : State) : (evAcc i s).diag = s.diag := rfl
@[simp] theorem evAcc_spi (i : Nat) (s : State) : (evAcc i s).spi = s.spi := rfl
@[simp] theorem evAcc_flt (i : Nat) (s : State) : (evAcc i s).flt = s.flt := rfl
@[simp] theorem evAcc_pins (i : Nat) (s : State) : (evAcc i s).pins = s.pins := rfl
@[simp] theorem evAcc_win (i : Nat) (s : State) : (evAcc i s).win = s.win := rfl
@[simp] theorem evAcc_flash (i : Nat) (s : State) : (evAcc i s).flash = s.flash := rfl

/-! ### evTim -/

@[simp] theorem evTim_pending (i : Nat) (s : State) : (evTim i s).pending = s.pending := rfl
@[simp] theorem evTim_elapsed (i : Nat) (s : State) : (evTim i s).elapsed = s.elapsed := rfl
@[simp] theorem evTim_xo (i : Nat) (s : State) : (evTim i s).xo = s.xo := rfl
@[simp] theorem evTim_sup (i : Nat) (s : State) : (evTim i s).sup = s.sup := rfl
@[simp] theorem evTim_permit (i : Nat) (s : State) : (evTim i s).permit = s.permit := rfl
@[simp] theorem evTim_pwr (i : Nat) (s : State) : (evTim i s).pwr = s.pwr := rfl
@[simp] theorem evTim_boot (i : Nat) (s : State) : (evTim i s).boot = s.boot := rfl
@[simp] theorem evTim_set (i : Nat) (s : State) : (evTim i s).set = s.set := rfl
@[simp] theorem evTim_ov (i : Nat) (s : State) : (evTim i s).ov = s.ov := rfl
@[simp] theorem evTim_tt (i : Nat) (s : State) : (evTim i s).tt = s.tt := rfl
@[simp] theorem evTim_lf (i : Nat) (s : State) : (evTim i s).lf = s.lf := rfl
@[simp] theorem evTim_kl (i : Nat) (s : State) : (evTim i s).kl = s.kl := rfl
@[simp] theorem evTim_uhf (i : Nat) (s : State) : (evTim i s).uhf = s.uhf := rfl
@[simp] theorem evTim_loc (i : Nat) (s : State) : (evTim i s).loc = s.loc := rfl
@[simp] theorem evTim_acc (i : Nat) (s : State) : (evTim i s).acc = s.acc := rfl
@[simp] theorem evTim_job (i : Nat) (s : State) : (evTim i s).job = s.job := rfl
@[simp] theorem evTim_pages (i : Nat) (s : State) : (evTim i s).pages = s.pages := rfl
@[simp] theorem evTim_cip (i : Nat) (s : State) : (evTim i s).cip = s.cip := rfl
@[simp] theorem evTim_rng (i : Nat) (s : State) : (evTim i s).rng = s.rng := rfl
@[simp] theorem evTim_ks (i : Nat) (s : State) : (evTim i s).ks = s.ks := rfl
@[simp] theorem evTim_nvm (i : Nat) (s : State) : (evTim i s).nvm = s.nvm := rfl
@[simp] theorem evTim_tmp (i : Nat) (s : State) : (evTim i s).tmp = s.tmp := rfl
@[simp] theorem evTim_sw (i : Nat) (s : State) : (evTim i s).sw = s.sw := rfl
@[simp] theorem evTim_can (i : Nat) (s : State) : (evTim i s).can = s.can := rfl
@[simp] theorem evTim_diag (i : Nat) (s : State) : (evTim i s).diag = s.diag := rfl
@[simp] theorem evTim_spi (i : Nat) (s : State) : (evTim i s).spi = s.spi := rfl
@[simp] theorem evTim_flt (i : Nat) (s : State) : (evTim i s).flt = s.flt := rfl
@[simp] theorem evTim_pins (i : Nat) (s : State) : (evTim i s).pins = s.pins := rfl
@[simp] theorem evTim_win (i : Nat) (s : State) : (evTim i s).win = s.win := rfl
@[simp] theorem evTim_flash (i : Nat) (s : State) : (evTim i s).flash = s.flash := rfl

/-! ### evFlt -/

@[simp] theorem evFlt_pending (i : Nat) (s : State) : (evFlt i s).pending = s.pending := rfl
@[simp] theorem evFlt_elapsed (i : Nat) (s : State) : (evFlt i s).elapsed = s.elapsed := rfl
@[simp] theorem evFlt_xo (i : Nat) (s : State) : (evFlt i s).xo = s.xo := rfl
@[simp] theorem evFlt_sup (i : Nat) (s : State) : (evFlt i s).sup = s.sup := rfl
@[simp] theorem evFlt_permit (i : Nat) (s : State) : (evFlt i s).permit = s.permit := rfl
@[simp] theorem evFlt_pwr (i : Nat) (s : State) : (evFlt i s).pwr = s.pwr := rfl
@[simp] theorem evFlt_boot (i : Nat) (s : State) : (evFlt i s).boot = s.boot := rfl
@[simp] theorem evFlt_set (i : Nat) (s : State) : (evFlt i s).set = s.set := rfl
@[simp] theorem evFlt_ov (i : Nat) (s : State) : (evFlt i s).ov = s.ov := rfl
@[simp] theorem evFlt_clk (i : Nat) (s : State) : (evFlt i s).clk = s.clk := rfl
@[simp] theorem evFlt_tt (i : Nat) (s : State) : (evFlt i s).tt = s.tt := rfl
@[simp] theorem evFlt_lf (i : Nat) (s : State) : (evFlt i s).lf = s.lf := rfl
@[simp] theorem evFlt_kl (i : Nat) (s : State) : (evFlt i s).kl = s.kl := rfl
@[simp] theorem evFlt_uhf (i : Nat) (s : State) : (evFlt i s).uhf = s.uhf := rfl
@[simp] theorem evFlt_loc (i : Nat) (s : State) : (evFlt i s).loc = s.loc := rfl
@[simp] theorem evFlt_acc (i : Nat) (s : State) : (evFlt i s).acc = s.acc := rfl
@[simp] theorem evFlt_job (i : Nat) (s : State) : (evFlt i s).job = s.job := rfl
@[simp] theorem evFlt_pages (i : Nat) (s : State) : (evFlt i s).pages = s.pages := rfl
@[simp] theorem evFlt_cip (i : Nat) (s : State) : (evFlt i s).cip = s.cip := rfl
@[simp] theorem evFlt_rng (i : Nat) (s : State) : (evFlt i s).rng = s.rng := rfl
@[simp] theorem evFlt_ks (i : Nat) (s : State) : (evFlt i s).ks = s.ks := rfl
@[simp] theorem evFlt_nvm (i : Nat) (s : State) : (evFlt i s).nvm = s.nvm := rfl
@[simp] theorem evFlt_tmp (i : Nat) (s : State) : (evFlt i s).tmp = s.tmp := rfl
@[simp] theorem evFlt_sw (i : Nat) (s : State) : (evFlt i s).sw = s.sw := rfl
@[simp] theorem evFlt_can (i : Nat) (s : State) : (evFlt i s).can = s.can := rfl
@[simp] theorem evFlt_diag (i : Nat) (s : State) : (evFlt i s).diag = s.diag := rfl
@[simp] theorem evFlt_spi (i : Nat) (s : State) : (evFlt i s).spi = s.spi := rfl
@[simp] theorem evFlt_pins (i : Nat) (s : State) : (evFlt i s).pins = s.pins := rfl
@[simp] theorem evFlt_win (i : Nat) (s : State) : (evFlt i s).win = s.win := rfl
@[simp] theorem evFlt_flash (i : Nat) (s : State) : (evFlt i s).flash = s.flash := rfl

/-! ### evSw -/

@[simp] theorem evSw_pending (i : Nat) (s : State) : (evSw i s).pending = s.pending := rfl
@[simp] theorem evSw_elapsed (i : Nat) (s : State) : (evSw i s).elapsed = s.elapsed := rfl
@[simp] theorem evSw_xo (i : Nat) (s : State) : (evSw i s).xo = s.xo := rfl
@[simp] theorem evSw_sup (i : Nat) (s : State) : (evSw i s).sup = s.sup := rfl
@[simp] theorem evSw_permit (i : Nat) (s : State) : (evSw i s).permit = s.permit := rfl
@[simp] theorem evSw_pwr (i : Nat) (s : State) : (evSw i s).pwr = s.pwr := rfl
@[simp] theorem evSw_boot (i : Nat) (s : State) : (evSw i s).boot = s.boot := rfl
@[simp] theorem evSw_set (i : Nat) (s : State) : (evSw i s).set = s.set := rfl
@[simp] theorem evSw_ov (i : Nat) (s : State) : (evSw i s).ov = s.ov := rfl
@[simp] theorem evSw_clk (i : Nat) (s : State) : (evSw i s).clk = s.clk := rfl
@[simp] theorem evSw_tt (i : Nat) (s : State) : (evSw i s).tt = s.tt := rfl
@[simp] theorem evSw_lf (i : Nat) (s : State) : (evSw i s).lf = s.lf := rfl
@[simp] theorem evSw_kl (i : Nat) (s : State) : (evSw i s).kl = s.kl := rfl
@[simp] theorem evSw_uhf (i : Nat) (s : State) : (evSw i s).uhf = s.uhf := rfl
@[simp] theorem evSw_loc (i : Nat) (s : State) : (evSw i s).loc = s.loc := rfl
@[simp] theorem evSw_acc (i : Nat) (s : State) : (evSw i s).acc = s.acc := rfl
@[simp] theorem evSw_job (i : Nat) (s : State) : (evSw i s).job = s.job := rfl
@[simp] theorem evSw_pages (i : Nat) (s : State) : (evSw i s).pages = s.pages := rfl
@[simp] theorem evSw_cip (i : Nat) (s : State) : (evSw i s).cip = s.cip := rfl
@[simp] theorem evSw_rng (i : Nat) (s : State) : (evSw i s).rng = s.rng := rfl
@[simp] theorem evSw_ks (i : Nat) (s : State) : (evSw i s).ks = s.ks := rfl
@[simp] theorem evSw_nvm (i : Nat) (s : State) : (evSw i s).nvm = s.nvm := rfl
@[simp] theorem evSw_tmp (i : Nat) (s : State) : (evSw i s).tmp = s.tmp := rfl
@[simp] theorem evSw_can (i : Nat) (s : State) : (evSw i s).can = s.can := rfl
@[simp] theorem evSw_diag (i : Nat) (s : State) : (evSw i s).diag = s.diag := rfl
@[simp] theorem evSw_spi (i : Nat) (s : State) : (evSw i s).spi = s.spi := rfl
@[simp] theorem evSw_flt (i : Nat) (s : State) : (evSw i s).flt = s.flt := rfl
@[simp] theorem evSw_pins (i : Nat) (s : State) : (evSw i s).pins = s.pins := rfl
@[simp] theorem evSw_win (i : Nat) (s : State) : (evSw i s).win = s.win := rfl
@[simp] theorem evSw_flash (i : Nat) (s : State) : (evSw i s).flash = s.flash := rfl

/-! ### evDiag -/

@[simp] theorem evDiag_pending (i : Nat) (s : State) : (evDiag i s).pending = s.pending := rfl
@[simp] theorem evDiag_elapsed (i : Nat) (s : State) : (evDiag i s).elapsed = s.elapsed := rfl
@[simp] theorem evDiag_xo (i : Nat) (s : State) : (evDiag i s).xo = s.xo := rfl
@[simp] theorem evDiag_sup (i : Nat) (s : State) : (evDiag i s).sup = s.sup := rfl
@[simp] theorem evDiag_permit (i : Nat) (s : State) : (evDiag i s).permit = s.permit := rfl
@[simp] theorem evDiag_pwr (i : Nat) (s : State) : (evDiag i s).pwr = s.pwr := rfl
@[simp] theorem evDiag_boot (i : Nat) (s : State) : (evDiag i s).boot = s.boot := rfl
@[simp] theorem evDiag_set (i : Nat) (s : State) : (evDiag i s).set = s.set := rfl
@[simp] theorem evDiag_ov (i : Nat) (s : State) : (evDiag i s).ov = s.ov := rfl
@[simp] theorem evDiag_clk (i : Nat) (s : State) : (evDiag i s).clk = s.clk := rfl
@[simp] theorem evDiag_tt (i : Nat) (s : State) : (evDiag i s).tt = s.tt := rfl
@[simp] theorem evDiag_lf (i : Nat) (s : State) : (evDiag i s).lf = s.lf := rfl
@[simp] theorem evDiag_kl (i : Nat) (s : State) : (evDiag i s).kl = s.kl := rfl
@[simp] theorem evDiag_uhf (i : Nat) (s : State) : (evDiag i s).uhf = s.uhf := rfl
@[simp] theorem evDiag_loc (i : Nat) (s : State) : (evDiag i s).loc = s.loc := rfl
@[simp] theorem evDiag_acc (i : Nat) (s : State) : (evDiag i s).acc = s.acc := rfl
@[simp] theorem evDiag_job (i : Nat) (s : State) : (evDiag i s).job = s.job := rfl
@[simp] theorem evDiag_pages (i : Nat) (s : State) : (evDiag i s).pages = s.pages := rfl
@[simp] theorem evDiag_cip (i : Nat) (s : State) : (evDiag i s).cip = s.cip := rfl
@[simp] theorem evDiag_rng (i : Nat) (s : State) : (evDiag i s).rng = s.rng := rfl
@[simp] theorem evDiag_ks (i : Nat) (s : State) : (evDiag i s).ks = s.ks := rfl
@[simp] theorem evDiag_nvm (i : Nat) (s : State) : (evDiag i s).nvm = s.nvm := rfl
@[simp] theorem evDiag_tmp (i : Nat) (s : State) : (evDiag i s).tmp = s.tmp := rfl
@[simp] theorem evDiag_sw (i : Nat) (s : State) : (evDiag i s).sw = s.sw := rfl
@[simp] theorem evDiag_can (i : Nat) (s : State) : (evDiag i s).can = s.can := rfl
@[simp] theorem evDiag_spi (i : Nat) (s : State) : (evDiag i s).spi = s.spi := rfl
@[simp] theorem evDiag_flt (i : Nat) (s : State) : (evDiag i s).flt = s.flt := rfl
@[simp] theorem evDiag_pins (i : Nat) (s : State) : (evDiag i s).pins = s.pins := rfl
@[simp] theorem evDiag_win (i : Nat) (s : State) : (evDiag i s).win = s.win := rfl
@[simp] theorem evDiag_flash (i : Nat) (s : State) : (evDiag i s).flash = s.flash := rfl

/-! ### evNvm -/

@[simp] theorem evNvm_pending (i : Nat) (s : State) : (evNvm i s).pending = s.pending := rfl
@[simp] theorem evNvm_elapsed (i : Nat) (s : State) : (evNvm i s).elapsed = s.elapsed := rfl
@[simp] theorem evNvm_xo (i : Nat) (s : State) : (evNvm i s).xo = s.xo := rfl
@[simp] theorem evNvm_sup (i : Nat) (s : State) : (evNvm i s).sup = s.sup := rfl
@[simp] theorem evNvm_permit (i : Nat) (s : State) : (evNvm i s).permit = s.permit := rfl
@[simp] theorem evNvm_pwr (i : Nat) (s : State) : (evNvm i s).pwr = s.pwr := rfl
@[simp] theorem evNvm_boot (i : Nat) (s : State) : (evNvm i s).boot = s.boot := rfl
@[simp] theorem evNvm_set (i : Nat) (s : State) : (evNvm i s).set = s.set := rfl
@[simp] theorem evNvm_ov (i : Nat) (s : State) : (evNvm i s).ov = s.ov := rfl
@[simp] theorem evNvm_clk (i : Nat) (s : State) : (evNvm i s).clk = s.clk := rfl
@[simp] theorem evNvm_tt (i : Nat) (s : State) : (evNvm i s).tt = s.tt := rfl
@[simp] theorem evNvm_lf (i : Nat) (s : State) : (evNvm i s).lf = s.lf := rfl
@[simp] theorem evNvm_kl (i : Nat) (s : State) : (evNvm i s).kl = s.kl := rfl
@[simp] theorem evNvm_uhf (i : Nat) (s : State) : (evNvm i s).uhf = s.uhf := rfl
@[simp] theorem evNvm_loc (i : Nat) (s : State) : (evNvm i s).loc = s.loc := rfl
@[simp] theorem evNvm_acc (i : Nat) (s : State) : (evNvm i s).acc = s.acc := rfl
@[simp] theorem evNvm_job (i : Nat) (s : State) : (evNvm i s).job = s.job := rfl
@[simp] theorem evNvm_pages (i : Nat) (s : State) : (evNvm i s).pages = s.pages := rfl
@[simp] theorem evNvm_cip (i : Nat) (s : State) : (evNvm i s).cip = s.cip := rfl
@[simp] theorem evNvm_rng (i : Nat) (s : State) : (evNvm i s).rng = s.rng := rfl
@[simp] theorem evNvm_ks (i : Nat) (s : State) : (evNvm i s).ks = s.ks := rfl
@[simp] theorem evNvm_tmp (i : Nat) (s : State) : (evNvm i s).tmp = s.tmp := rfl
@[simp] theorem evNvm_sw (i : Nat) (s : State) : (evNvm i s).sw = s.sw := rfl
@[simp] theorem evNvm_can (i : Nat) (s : State) : (evNvm i s).can = s.can := rfl
@[simp] theorem evNvm_diag (i : Nat) (s : State) : (evNvm i s).diag = s.diag := rfl
@[simp] theorem evNvm_spi (i : Nat) (s : State) : (evNvm i s).spi = s.spi := rfl
@[simp] theorem evNvm_flt (i : Nat) (s : State) : (evNvm i s).flt = s.flt := rfl
@[simp] theorem evNvm_pins (i : Nat) (s : State) : (evNvm i s).pins = s.pins := rfl
@[simp] theorem evNvm_win (i : Nat) (s : State) : (evNvm i s).win = s.win := rfl
@[simp] theorem evNvm_flash (i : Nat) (s : State) : (evNvm i s).flash = s.flash := rfl

/-! ### evTt -/

@[simp] theorem evTt_pending (i : Nat) (s : State) : (evTt i s).pending = s.pending := rfl
@[simp] theorem evTt_elapsed (i : Nat) (s : State) : (evTt i s).elapsed = s.elapsed := rfl
@[simp] theorem evTt_xo (i : Nat) (s : State) : (evTt i s).xo = s.xo := rfl
@[simp] theorem evTt_sup (i : Nat) (s : State) : (evTt i s).sup = s.sup := rfl
@[simp] theorem evTt_permit (i : Nat) (s : State) : (evTt i s).permit = s.permit := rfl
@[simp] theorem evTt_pwr (i : Nat) (s : State) : (evTt i s).pwr = s.pwr := rfl
@[simp] theorem evTt_boot (i : Nat) (s : State) : (evTt i s).boot = s.boot := rfl
@[simp] theorem evTt_set (i : Nat) (s : State) : (evTt i s).set = s.set := rfl
@[simp] theorem evTt_ov (i : Nat) (s : State) : (evTt i s).ov = s.ov := rfl
@[simp] theorem evTt_clk (i : Nat) (s : State) : (evTt i s).clk = s.clk := rfl
@[simp] theorem evTt_lf (i : Nat) (s : State) : (evTt i s).lf = s.lf := rfl
@[simp] theorem evTt_kl (i : Nat) (s : State) : (evTt i s).kl = s.kl := rfl
@[simp] theorem evTt_uhf (i : Nat) (s : State) : (evTt i s).uhf = s.uhf := rfl
@[simp] theorem evTt_loc (i : Nat) (s : State) : (evTt i s).loc = s.loc := rfl
@[simp] theorem evTt_acc (i : Nat) (s : State) : (evTt i s).acc = s.acc := rfl
@[simp] theorem evTt_job (i : Nat) (s : State) : (evTt i s).job = s.job := rfl
@[simp] theorem evTt_pages (i : Nat) (s : State) : (evTt i s).pages = s.pages := rfl
@[simp] theorem evTt_cip (i : Nat) (s : State) : (evTt i s).cip = s.cip := rfl
@[simp] theorem evTt_rng (i : Nat) (s : State) : (evTt i s).rng = s.rng := rfl
@[simp] theorem evTt_ks (i : Nat) (s : State) : (evTt i s).ks = s.ks := rfl
@[simp] theorem evTt_nvm (i : Nat) (s : State) : (evTt i s).nvm = s.nvm := rfl
@[simp] theorem evTt_tmp (i : Nat) (s : State) : (evTt i s).tmp = s.tmp := rfl
@[simp] theorem evTt_sw (i : Nat) (s : State) : (evTt i s).sw = s.sw := rfl
@[simp] theorem evTt_can (i : Nat) (s : State) : (evTt i s).can = s.can := rfl
@[simp] theorem evTt_diag (i : Nat) (s : State) : (evTt i s).diag = s.diag := rfl
@[simp] theorem evTt_spi (i : Nat) (s : State) : (evTt i s).spi = s.spi := rfl
@[simp] theorem evTt_flt (i : Nat) (s : State) : (evTt i s).flt = s.flt := rfl
@[simp] theorem evTt_pins (i : Nat) (s : State) : (evTt i s).pins = s.pins := rfl
@[simp] theorem evTt_win (i : Nat) (s : State) : (evTt i s).win = s.win := rfl
@[simp] theorem evTt_flash (i : Nat) (s : State) : (evTt i s).flash = s.flash := rfl

/-! ### evAes -/

@[simp] theorem evAes_pending (i : Nat) (s : State) : (evAes i s).pending = s.pending := rfl
@[simp] theorem evAes_elapsed (i : Nat) (s : State) : (evAes i s).elapsed = s.elapsed := rfl
@[simp] theorem evAes_xo (i : Nat) (s : State) : (evAes i s).xo = s.xo := rfl
@[simp] theorem evAes_sup (i : Nat) (s : State) : (evAes i s).sup = s.sup := rfl
@[simp] theorem evAes_permit (i : Nat) (s : State) : (evAes i s).permit = s.permit := rfl
@[simp] theorem evAes_pwr (i : Nat) (s : State) : (evAes i s).pwr = s.pwr := rfl
@[simp] theorem evAes_boot (i : Nat) (s : State) : (evAes i s).boot = s.boot := rfl
@[simp] theorem evAes_set (i : Nat) (s : State) : (evAes i s).set = s.set := rfl
@[simp] theorem evAes_ov (i : Nat) (s : State) : (evAes i s).ov = s.ov := rfl
@[simp] theorem evAes_clk (i : Nat) (s : State) : (evAes i s).clk = s.clk := rfl
@[simp] theorem evAes_tt (i : Nat) (s : State) : (evAes i s).tt = s.tt := rfl
@[simp] theorem evAes_lf (i : Nat) (s : State) : (evAes i s).lf = s.lf := rfl
@[simp] theorem evAes_kl (i : Nat) (s : State) : (evAes i s).kl = s.kl := rfl
@[simp] theorem evAes_uhf (i : Nat) (s : State) : (evAes i s).uhf = s.uhf := rfl
@[simp] theorem evAes_loc (i : Nat) (s : State) : (evAes i s).loc = s.loc := rfl
@[simp] theorem evAes_acc (i : Nat) (s : State) : (evAes i s).acc = s.acc := rfl
@[simp] theorem evAes_job (i : Nat) (s : State) : (evAes i s).job = s.job := rfl
@[simp] theorem evAes_pages (i : Nat) (s : State) : (evAes i s).pages = s.pages := rfl
@[simp] theorem evAes_rng (i : Nat) (s : State) : (evAes i s).rng = s.rng := rfl
@[simp] theorem evAes_ks (i : Nat) (s : State) : (evAes i s).ks = s.ks := rfl
@[simp] theorem evAes_nvm (i : Nat) (s : State) : (evAes i s).nvm = s.nvm := rfl
@[simp] theorem evAes_tmp (i : Nat) (s : State) : (evAes i s).tmp = s.tmp := rfl
@[simp] theorem evAes_sw (i : Nat) (s : State) : (evAes i s).sw = s.sw := rfl
@[simp] theorem evAes_can (i : Nat) (s : State) : (evAes i s).can = s.can := rfl
@[simp] theorem evAes_diag (i : Nat) (s : State) : (evAes i s).diag = s.diag := rfl
@[simp] theorem evAes_spi (i : Nat) (s : State) : (evAes i s).spi = s.spi := rfl
@[simp] theorem evAes_flt (i : Nat) (s : State) : (evAes i s).flt = s.flt := rfl
@[simp] theorem evAes_pins (i : Nat) (s : State) : (evAes i s).pins = s.pins := rfl
@[simp] theorem evAes_win (i : Nat) (s : State) : (evAes i s).win = s.win := rfl
@[simp] theorem evAes_flash (i : Nat) (s : State) : (evAes i s).flash = s.flash := rfl

/-! ### evWake -/

@[simp] theorem evWake_pending (i : Nat) (s : State) : (evWake i s).pending = s.pending := rfl
@[simp] theorem evWake_elapsed (i : Nat) (s : State) : (evWake i s).elapsed = s.elapsed := rfl
@[simp] theorem evWake_xo (i : Nat) (s : State) : (evWake i s).xo = s.xo := rfl
@[simp] theorem evWake_sup (i : Nat) (s : State) : (evWake i s).sup = s.sup := rfl
@[simp] theorem evWake_permit (i : Nat) (s : State) : (evWake i s).permit = s.permit := rfl
@[simp] theorem evWake_boot (i : Nat) (s : State) : (evWake i s).boot = s.boot := rfl
@[simp] theorem evWake_set (i : Nat) (s : State) : (evWake i s).set = s.set := rfl
@[simp] theorem evWake_ov (i : Nat) (s : State) : (evWake i s).ov = s.ov := rfl
@[simp] theorem evWake_clk (i : Nat) (s : State) : (evWake i s).clk = s.clk := rfl
@[simp] theorem evWake_tt (i : Nat) (s : State) : (evWake i s).tt = s.tt := rfl
@[simp] theorem evWake_lf (i : Nat) (s : State) : (evWake i s).lf = s.lf := rfl
@[simp] theorem evWake_kl (i : Nat) (s : State) : (evWake i s).kl = s.kl := rfl
@[simp] theorem evWake_uhf (i : Nat) (s : State) : (evWake i s).uhf = s.uhf := rfl
@[simp] theorem evWake_loc (i : Nat) (s : State) : (evWake i s).loc = s.loc := rfl
@[simp] theorem evWake_acc (i : Nat) (s : State) : (evWake i s).acc = s.acc := rfl
@[simp] theorem evWake_job (i : Nat) (s : State) : (evWake i s).job = s.job := rfl
@[simp] theorem evWake_pages (i : Nat) (s : State) : (evWake i s).pages = s.pages := rfl
@[simp] theorem evWake_cip (i : Nat) (s : State) : (evWake i s).cip = s.cip := rfl
@[simp] theorem evWake_rng (i : Nat) (s : State) : (evWake i s).rng = s.rng := rfl
@[simp] theorem evWake_ks (i : Nat) (s : State) : (evWake i s).ks = s.ks := rfl
@[simp] theorem evWake_nvm (i : Nat) (s : State) : (evWake i s).nvm = s.nvm := rfl
@[simp] theorem evWake_tmp (i : Nat) (s : State) : (evWake i s).tmp = s.tmp := rfl
@[simp] theorem evWake_sw (i : Nat) (s : State) : (evWake i s).sw = s.sw := rfl
@[simp] theorem evWake_can (i : Nat) (s : State) : (evWake i s).can = s.can := rfl
@[simp] theorem evWake_diag (i : Nat) (s : State) : (evWake i s).diag = s.diag := rfl
@[simp] theorem evWake_spi (i : Nat) (s : State) : (evWake i s).spi = s.spi := rfl
@[simp] theorem evWake_flt (i : Nat) (s : State) : (evWake i s).flt = s.flt := rfl
@[simp] theorem evWake_pins (i : Nat) (s : State) : (evWake i s).pins = s.pins := rfl
@[simp] theorem evWake_win (i : Nat) (s : State) : (evWake i s).win = s.win := rfl
@[simp] theorem evWake_flash (i : Nat) (s : State) : (evWake i s).flash = s.flash := rfl

/-! ### evKs -/

@[simp] theorem evKs_pending (i : Nat) (s : State) : (evKs i s).pending = s.pending := rfl
@[simp] theorem evKs_elapsed (i : Nat) (s : State) : (evKs i s).elapsed = s.elapsed := rfl
@[simp] theorem evKs_xo (i : Nat) (s : State) : (evKs i s).xo = s.xo := rfl
@[simp] theorem evKs_sup (i : Nat) (s : State) : (evKs i s).sup = s.sup := rfl
@[simp] theorem evKs_permit (i : Nat) (s : State) : (evKs i s).permit = s.permit := rfl
@[simp] theorem evKs_pwr (i : Nat) (s : State) : (evKs i s).pwr = s.pwr := rfl
@[simp] theorem evKs_boot (i : Nat) (s : State) : (evKs i s).boot = s.boot := rfl
@[simp] theorem evKs_set (i : Nat) (s : State) : (evKs i s).set = s.set := rfl
@[simp] theorem evKs_ov (i : Nat) (s : State) : (evKs i s).ov = s.ov := rfl
@[simp] theorem evKs_clk (i : Nat) (s : State) : (evKs i s).clk = s.clk := rfl
@[simp] theorem evKs_tt (i : Nat) (s : State) : (evKs i s).tt = s.tt := rfl
@[simp] theorem evKs_lf (i : Nat) (s : State) : (evKs i s).lf = s.lf := rfl
@[simp] theorem evKs_kl (i : Nat) (s : State) : (evKs i s).kl = s.kl := rfl
@[simp] theorem evKs_uhf (i : Nat) (s : State) : (evKs i s).uhf = s.uhf := rfl
@[simp] theorem evKs_loc (i : Nat) (s : State) : (evKs i s).loc = s.loc := rfl
@[simp] theorem evKs_acc (i : Nat) (s : State) : (evKs i s).acc = s.acc := rfl
@[simp] theorem evKs_job (i : Nat) (s : State) : (evKs i s).job = s.job := rfl
@[simp] theorem evKs_pages (i : Nat) (s : State) : (evKs i s).pages = s.pages := rfl
@[simp] theorem evKs_cip (i : Nat) (s : State) : (evKs i s).cip = s.cip := rfl
@[simp] theorem evKs_rng (i : Nat) (s : State) : (evKs i s).rng = s.rng := rfl
@[simp] theorem evKs_nvm (i : Nat) (s : State) : (evKs i s).nvm = s.nvm := rfl
@[simp] theorem evKs_tmp (i : Nat) (s : State) : (evKs i s).tmp = s.tmp := rfl
@[simp] theorem evKs_sw (i : Nat) (s : State) : (evKs i s).sw = s.sw := rfl
@[simp] theorem evKs_can (i : Nat) (s : State) : (evKs i s).can = s.can := rfl
@[simp] theorem evKs_diag (i : Nat) (s : State) : (evKs i s).diag = s.diag := rfl
@[simp] theorem evKs_spi (i : Nat) (s : State) : (evKs i s).spi = s.spi := rfl
@[simp] theorem evKs_flt (i : Nat) (s : State) : (evKs i s).flt = s.flt := rfl
@[simp] theorem evKs_pins (i : Nat) (s : State) : (evKs i s).pins = s.pins := rfl
@[simp] theorem evKs_win (i : Nat) (s : State) : (evKs i s).win = s.win := rfl
@[simp] theorem evKs_flash (i : Nat) (s : State) : (evKs i s).flash = s.flash := rfl

/-! ### evLf -/

@[simp] theorem evLf_pending (i : Nat) (s : State) : (evLf i s).pending = s.pending := rfl
@[simp] theorem evLf_elapsed (i : Nat) (s : State) : (evLf i s).elapsed = s.elapsed := rfl
@[simp] theorem evLf_xo (i : Nat) (s : State) : (evLf i s).xo = s.xo := rfl
@[simp] theorem evLf_sup (i : Nat) (s : State) : (evLf i s).sup = s.sup := rfl
@[simp] theorem evLf_permit (i : Nat) (s : State) : (evLf i s).permit = s.permit := rfl
@[simp] theorem evLf_pwr (i : Nat) (s : State) : (evLf i s).pwr = s.pwr := rfl
@[simp] theorem evLf_boot (i : Nat) (s : State) : (evLf i s).boot = s.boot := rfl
@[simp] theorem evLf_set (i : Nat) (s : State) : (evLf i s).set = s.set := rfl
@[simp] theorem evLf_ov (i : Nat) (s : State) : (evLf i s).ov = s.ov := rfl
@[simp] theorem evLf_clk (i : Nat) (s : State) : (evLf i s).clk = s.clk := rfl
@[simp] theorem evLf_tt (i : Nat) (s : State) : (evLf i s).tt = s.tt := rfl
@[simp] theorem evLf_kl (i : Nat) (s : State) : (evLf i s).kl = s.kl := rfl
@[simp] theorem evLf_uhf (i : Nat) (s : State) : (evLf i s).uhf = s.uhf := rfl
@[simp] theorem evLf_loc (i : Nat) (s : State) : (evLf i s).loc = s.loc := rfl
@[simp] theorem evLf_acc (i : Nat) (s : State) : (evLf i s).acc = s.acc := rfl
@[simp] theorem evLf_job (i : Nat) (s : State) : (evLf i s).job = s.job := rfl
@[simp] theorem evLf_pages (i : Nat) (s : State) : (evLf i s).pages = s.pages := rfl
@[simp] theorem evLf_cip (i : Nat) (s : State) : (evLf i s).cip = s.cip := rfl
@[simp] theorem evLf_rng (i : Nat) (s : State) : (evLf i s).rng = s.rng := rfl
@[simp] theorem evLf_ks (i : Nat) (s : State) : (evLf i s).ks = s.ks := rfl
@[simp] theorem evLf_nvm (i : Nat) (s : State) : (evLf i s).nvm = s.nvm := rfl
@[simp] theorem evLf_tmp (i : Nat) (s : State) : (evLf i s).tmp = s.tmp := rfl
@[simp] theorem evLf_sw (i : Nat) (s : State) : (evLf i s).sw = s.sw := rfl
@[simp] theorem evLf_can (i : Nat) (s : State) : (evLf i s).can = s.can := rfl
@[simp] theorem evLf_diag (i : Nat) (s : State) : (evLf i s).diag = s.diag := rfl
@[simp] theorem evLf_spi (i : Nat) (s : State) : (evLf i s).spi = s.spi := rfl
@[simp] theorem evLf_flt (i : Nat) (s : State) : (evLf i s).flt = s.flt := rfl
@[simp] theorem evLf_pins (i : Nat) (s : State) : (evLf i s).pins = s.pins := rfl
@[simp] theorem evLf_win (i : Nat) (s : State) : (evLf i s).win = s.win := rfl
@[simp] theorem evLf_flash (i : Nat) (s : State) : (evLf i s).flash = s.flash := rfl

/-! ### evUhf -/

@[simp] theorem evUhf_pending (i : Nat) (s : State) : (evUhf i s).pending = s.pending := rfl
@[simp] theorem evUhf_elapsed (i : Nat) (s : State) : (evUhf i s).elapsed = s.elapsed := rfl
@[simp] theorem evUhf_xo (i : Nat) (s : State) : (evUhf i s).xo = s.xo := rfl
@[simp] theorem evUhf_sup (i : Nat) (s : State) : (evUhf i s).sup = s.sup := rfl
@[simp] theorem evUhf_permit (i : Nat) (s : State) : (evUhf i s).permit = s.permit := rfl
@[simp] theorem evUhf_pwr (i : Nat) (s : State) : (evUhf i s).pwr = s.pwr := rfl
@[simp] theorem evUhf_boot (i : Nat) (s : State) : (evUhf i s).boot = s.boot := rfl
@[simp] theorem evUhf_set (i : Nat) (s : State) : (evUhf i s).set = s.set := rfl
@[simp] theorem evUhf_ov (i : Nat) (s : State) : (evUhf i s).ov = s.ov := rfl
@[simp] theorem evUhf_clk (i : Nat) (s : State) : (evUhf i s).clk = s.clk := rfl
@[simp] theorem evUhf_tt (i : Nat) (s : State) : (evUhf i s).tt = s.tt := rfl
@[simp] theorem evUhf_lf (i : Nat) (s : State) : (evUhf i s).lf = s.lf := rfl
@[simp] theorem evUhf_kl (i : Nat) (s : State) : (evUhf i s).kl = s.kl := rfl
@[simp] theorem evUhf_loc (i : Nat) (s : State) : (evUhf i s).loc = s.loc := rfl
@[simp] theorem evUhf_acc (i : Nat) (s : State) : (evUhf i s).acc = s.acc := rfl
@[simp] theorem evUhf_job (i : Nat) (s : State) : (evUhf i s).job = s.job := rfl
@[simp] theorem evUhf_pages (i : Nat) (s : State) : (evUhf i s).pages = s.pages := rfl
@[simp] theorem evUhf_cip (i : Nat) (s : State) : (evUhf i s).cip = s.cip := rfl
@[simp] theorem evUhf_rng (i : Nat) (s : State) : (evUhf i s).rng = s.rng := rfl
@[simp] theorem evUhf_ks (i : Nat) (s : State) : (evUhf i s).ks = s.ks := rfl
@[simp] theorem evUhf_nvm (i : Nat) (s : State) : (evUhf i s).nvm = s.nvm := rfl
@[simp] theorem evUhf_tmp (i : Nat) (s : State) : (evUhf i s).tmp = s.tmp := rfl
@[simp] theorem evUhf_sw (i : Nat) (s : State) : (evUhf i s).sw = s.sw := rfl
@[simp] theorem evUhf_can (i : Nat) (s : State) : (evUhf i s).can = s.can := rfl
@[simp] theorem evUhf_diag (i : Nat) (s : State) : (evUhf i s).diag = s.diag := rfl
@[simp] theorem evUhf_spi (i : Nat) (s : State) : (evUhf i s).spi = s.spi := rfl
@[simp] theorem evUhf_flt (i : Nat) (s : State) : (evUhf i s).flt = s.flt := rfl
@[simp] theorem evUhf_pins (i : Nat) (s : State) : (evUhf i s).pins = s.pins := rfl
@[simp] theorem evUhf_win (i : Nat) (s : State) : (evUhf i s).win = s.win := rfl
@[simp] theorem evUhf_flash (i : Nat) (s : State) : (evUhf i s).flash = s.flash := rfl

/-! ### evLoc -/

@[simp] theorem evLoc_pending (i : Nat) (s : State) : (evLoc i s).pending = s.pending := rfl
@[simp] theorem evLoc_elapsed (i : Nat) (s : State) : (evLoc i s).elapsed = s.elapsed := rfl
@[simp] theorem evLoc_xo (i : Nat) (s : State) : (evLoc i s).xo = s.xo := rfl
@[simp] theorem evLoc_sup (i : Nat) (s : State) : (evLoc i s).sup = s.sup := rfl
@[simp] theorem evLoc_permit (i : Nat) (s : State) : (evLoc i s).permit = s.permit := rfl
@[simp] theorem evLoc_pwr (i : Nat) (s : State) : (evLoc i s).pwr = s.pwr := rfl
@[simp] theorem evLoc_boot (i : Nat) (s : State) : (evLoc i s).boot = s.boot := rfl
@[simp] theorem evLoc_set (i : Nat) (s : State) : (evLoc i s).set = s.set := rfl
@[simp] theorem evLoc_ov (i : Nat) (s : State) : (evLoc i s).ov = s.ov := rfl
@[simp] theorem evLoc_clk (i : Nat) (s : State) : (evLoc i s).clk = s.clk := rfl
@[simp] theorem evLoc_tt (i : Nat) (s : State) : (evLoc i s).tt = s.tt := rfl
@[simp] theorem evLoc_lf (i : Nat) (s : State) : (evLoc i s).lf = s.lf := rfl
@[simp] theorem evLoc_kl (i : Nat) (s : State) : (evLoc i s).kl = s.kl := rfl
@[simp] theorem evLoc_uhf (i : Nat) (s : State) : (evLoc i s).uhf = s.uhf := rfl
@[simp] theorem evLoc_acc (i : Nat) (s : State) : (evLoc i s).acc = s.acc := rfl
@[simp] theorem evLoc_job (i : Nat) (s : State) : (evLoc i s).job = s.job := rfl
@[simp] theorem evLoc_pages (i : Nat) (s : State) : (evLoc i s).pages = s.pages := rfl
@[simp] theorem evLoc_cip (i : Nat) (s : State) : (evLoc i s).cip = s.cip := rfl
@[simp] theorem evLoc_rng (i : Nat) (s : State) : (evLoc i s).rng = s.rng := rfl
@[simp] theorem evLoc_ks (i : Nat) (s : State) : (evLoc i s).ks = s.ks := rfl
@[simp] theorem evLoc_nvm (i : Nat) (s : State) : (evLoc i s).nvm = s.nvm := rfl
@[simp] theorem evLoc_tmp (i : Nat) (s : State) : (evLoc i s).tmp = s.tmp := rfl
@[simp] theorem evLoc_sw (i : Nat) (s : State) : (evLoc i s).sw = s.sw := rfl
@[simp] theorem evLoc_can (i : Nat) (s : State) : (evLoc i s).can = s.can := rfl
@[simp] theorem evLoc_diag (i : Nat) (s : State) : (evLoc i s).diag = s.diag := rfl
@[simp] theorem evLoc_spi (i : Nat) (s : State) : (evLoc i s).spi = s.spi := rfl
@[simp] theorem evLoc_flt (i : Nat) (s : State) : (evLoc i s).flt = s.flt := rfl
@[simp] theorem evLoc_pins (i : Nat) (s : State) : (evLoc i s).pins = s.pins := rfl
@[simp] theorem evLoc_win (i : Nat) (s : State) : (evLoc i s).win = s.win := rfl
@[simp] theorem evLoc_flash (i : Nat) (s : State) : (evLoc i s).flash = s.flash := rfl

/-! ### evRng -/

@[simp] theorem evRng_pending (i : Nat) (s : State) : (evRng i s).pending = s.pending := rfl
@[simp] theorem evRng_elapsed (i : Nat) (s : State) : (evRng i s).elapsed = s.elapsed := rfl
@[simp] theorem evRng_xo (i : Nat) (s : State) : (evRng i s).xo = s.xo := rfl
@[simp] theorem evRng_sup (i : Nat) (s : State) : (evRng i s).sup = s.sup := rfl
@[simp] theorem evRng_permit (i : Nat) (s : State) : (evRng i s).permit = s.permit := rfl
@[simp] theorem evRng_pwr (i : Nat) (s : State) : (evRng i s).pwr = s.pwr := rfl
@[simp] theorem evRng_boot (i : Nat) (s : State) : (evRng i s).boot = s.boot := rfl
@[simp] theorem evRng_set (i : Nat) (s : State) : (evRng i s).set = s.set := rfl
@[simp] theorem evRng_ov (i : Nat) (s : State) : (evRng i s).ov = s.ov := rfl
@[simp] theorem evRng_clk (i : Nat) (s : State) : (evRng i s).clk = s.clk := rfl
@[simp] theorem evRng_tt (i : Nat) (s : State) : (evRng i s).tt = s.tt := rfl
@[simp] theorem evRng_lf (i : Nat) (s : State) : (evRng i s).lf = s.lf := rfl
@[simp] theorem evRng_kl (i : Nat) (s : State) : (evRng i s).kl = s.kl := rfl
@[simp] theorem evRng_uhf (i : Nat) (s : State) : (evRng i s).uhf = s.uhf := rfl
@[simp] theorem evRng_loc (i : Nat) (s : State) : (evRng i s).loc = s.loc := rfl
@[simp] theorem evRng_acc (i : Nat) (s : State) : (evRng i s).acc = s.acc := rfl
@[simp] theorem evRng_job (i : Nat) (s : State) : (evRng i s).job = s.job := rfl
@[simp] theorem evRng_pages (i : Nat) (s : State) : (evRng i s).pages = s.pages := rfl
@[simp] theorem evRng_cip (i : Nat) (s : State) : (evRng i s).cip = s.cip := rfl
@[simp] theorem evRng_ks (i : Nat) (s : State) : (evRng i s).ks = s.ks := rfl
@[simp] theorem evRng_nvm (i : Nat) (s : State) : (evRng i s).nvm = s.nvm := rfl
@[simp] theorem evRng_tmp (i : Nat) (s : State) : (evRng i s).tmp = s.tmp := rfl
@[simp] theorem evRng_sw (i : Nat) (s : State) : (evRng i s).sw = s.sw := rfl
@[simp] theorem evRng_can (i : Nat) (s : State) : (evRng i s).can = s.can := rfl
@[simp] theorem evRng_diag (i : Nat) (s : State) : (evRng i s).diag = s.diag := rfl
@[simp] theorem evRng_spi (i : Nat) (s : State) : (evRng i s).spi = s.spi := rfl
@[simp] theorem evRng_flt (i : Nat) (s : State) : (evRng i s).flt = s.flt := rfl
@[simp] theorem evRng_pins (i : Nat) (s : State) : (evRng i s).pins = s.pins := rfl
@[simp] theorem evRng_win (i : Nat) (s : State) : (evRng i s).win = s.win := rfl
@[simp] theorem evRng_flash (i : Nat) (s : State) : (evRng i s).flash = s.flash := rfl

/-! ### evJob -/

@[simp] theorem evJob_pending (i : Nat) (s : State) : (evJob i s).pending = s.pending := rfl
@[simp] theorem evJob_elapsed (i : Nat) (s : State) : (evJob i s).elapsed = s.elapsed := rfl
@[simp] theorem evJob_xo (i : Nat) (s : State) : (evJob i s).xo = s.xo := rfl
@[simp] theorem evJob_sup (i : Nat) (s : State) : (evJob i s).sup = s.sup := rfl
@[simp] theorem evJob_permit (i : Nat) (s : State) : (evJob i s).permit = s.permit := rfl
@[simp] theorem evJob_pwr (i : Nat) (s : State) : (evJob i s).pwr = s.pwr := rfl
@[simp] theorem evJob_boot (i : Nat) (s : State) : (evJob i s).boot = s.boot := rfl
@[simp] theorem evJob_set (i : Nat) (s : State) : (evJob i s).set = s.set := rfl
@[simp] theorem evJob_ov (i : Nat) (s : State) : (evJob i s).ov = s.ov := rfl
@[simp] theorem evJob_clk (i : Nat) (s : State) : (evJob i s).clk = s.clk := rfl
@[simp] theorem evJob_tt (i : Nat) (s : State) : (evJob i s).tt = s.tt := rfl
@[simp] theorem evJob_lf (i : Nat) (s : State) : (evJob i s).lf = s.lf := rfl
@[simp] theorem evJob_kl (i : Nat) (s : State) : (evJob i s).kl = s.kl := rfl
@[simp] theorem evJob_uhf (i : Nat) (s : State) : (evJob i s).uhf = s.uhf := rfl
@[simp] theorem evJob_loc (i : Nat) (s : State) : (evJob i s).loc = s.loc := rfl
@[simp] theorem evJob_acc (i : Nat) (s : State) : (evJob i s).acc = s.acc := rfl
@[simp] theorem evJob_pages (i : Nat) (s : State) : (evJob i s).pages = s.pages := rfl
@[simp] theorem evJob_cip (i : Nat) (s : State) : (evJob i s).cip = s.cip := rfl
@[simp] theorem evJob_rng (i : Nat) (s : State) : (evJob i s).rng = s.rng := rfl
@[simp] theorem evJob_ks (i : Nat) (s : State) : (evJob i s).ks = s.ks := rfl
@[simp] theorem evJob_nvm (i : Nat) (s : State) : (evJob i s).nvm = s.nvm := rfl
@[simp] theorem evJob_tmp (i : Nat) (s : State) : (evJob i s).tmp = s.tmp := rfl
@[simp] theorem evJob_sw (i : Nat) (s : State) : (evJob i s).sw = s.sw := rfl
@[simp] theorem evJob_can (i : Nat) (s : State) : (evJob i s).can = s.can := rfl
@[simp] theorem evJob_diag (i : Nat) (s : State) : (evJob i s).diag = s.diag := rfl
@[simp] theorem evJob_spi (i : Nat) (s : State) : (evJob i s).spi = s.spi := rfl
@[simp] theorem evJob_flt (i : Nat) (s : State) : (evJob i s).flt = s.flt := rfl
@[simp] theorem evJob_pins (i : Nat) (s : State) : (evJob i s).pins = s.pins := rfl
@[simp] theorem evJob_win (i : Nat) (s : State) : (evJob i s).win = s.win := rfl
@[simp] theorem evJob_flash (i : Nat) (s : State) : (evJob i s).flash = s.flash := rfl

/-! ### evKl -/

@[simp] theorem evKl_pending (i : Nat) (s : State) : (evKl i s).pending = s.pending := rfl
@[simp] theorem evKl_elapsed (i : Nat) (s : State) : (evKl i s).elapsed = s.elapsed := rfl
@[simp] theorem evKl_xo (i : Nat) (s : State) : (evKl i s).xo = s.xo := rfl
@[simp] theorem evKl_sup (i : Nat) (s : State) : (evKl i s).sup = s.sup := rfl
@[simp] theorem evKl_permit (i : Nat) (s : State) : (evKl i s).permit = s.permit := rfl
@[simp] theorem evKl_pwr (i : Nat) (s : State) : (evKl i s).pwr = s.pwr := rfl
@[simp] theorem evKl_boot (i : Nat) (s : State) : (evKl i s).boot = s.boot := rfl
@[simp] theorem evKl_set (i : Nat) (s : State) : (evKl i s).set = s.set := rfl
@[simp] theorem evKl_ov (i : Nat) (s : State) : (evKl i s).ov = s.ov := rfl
@[simp] theorem evKl_clk (i : Nat) (s : State) : (evKl i s).clk = s.clk := rfl
@[simp] theorem evKl_tt (i : Nat) (s : State) : (evKl i s).tt = s.tt := rfl
@[simp] theorem evKl_lf (i : Nat) (s : State) : (evKl i s).lf = s.lf := rfl
@[simp] theorem evKl_uhf (i : Nat) (s : State) : (evKl i s).uhf = s.uhf := rfl
@[simp] theorem evKl_loc (i : Nat) (s : State) : (evKl i s).loc = s.loc := rfl
@[simp] theorem evKl_acc (i : Nat) (s : State) : (evKl i s).acc = s.acc := rfl
@[simp] theorem evKl_job (i : Nat) (s : State) : (evKl i s).job = s.job := rfl
@[simp] theorem evKl_pages (i : Nat) (s : State) : (evKl i s).pages = s.pages := rfl
@[simp] theorem evKl_cip (i : Nat) (s : State) : (evKl i s).cip = s.cip := rfl
@[simp] theorem evKl_rng (i : Nat) (s : State) : (evKl i s).rng = s.rng := rfl
@[simp] theorem evKl_ks (i : Nat) (s : State) : (evKl i s).ks = s.ks := rfl
@[simp] theorem evKl_nvm (i : Nat) (s : State) : (evKl i s).nvm = s.nvm := rfl
@[simp] theorem evKl_tmp (i : Nat) (s : State) : (evKl i s).tmp = s.tmp := rfl
@[simp] theorem evKl_sw (i : Nat) (s : State) : (evKl i s).sw = s.sw := rfl
@[simp] theorem evKl_can (i : Nat) (s : State) : (evKl i s).can = s.can := rfl
@[simp] theorem evKl_diag (i : Nat) (s : State) : (evKl i s).diag = s.diag := rfl
@[simp] theorem evKl_spi (i : Nat) (s : State) : (evKl i s).spi = s.spi := rfl
@[simp] theorem evKl_flt (i : Nat) (s : State) : (evKl i s).flt = s.flt := rfl
@[simp] theorem evKl_pins (i : Nat) (s : State) : (evKl i s).pins = s.pins := rfl
@[simp] theorem evKl_win (i : Nat) (s : State) : (evKl i s).win = s.win := rfl
@[simp] theorem evKl_flash (i : Nat) (s : State) : (evKl i s).flash = s.flash := rfl

/-! ### evHpk -/

@[simp] theorem evHpk_pending (i : Nat) (s : State) : (evHpk i s).pending = s.pending := rfl
@[simp] theorem evHpk_elapsed (i : Nat) (s : State) : (evHpk i s).elapsed = s.elapsed := rfl
@[simp] theorem evHpk_xo (i : Nat) (s : State) : (evHpk i s).xo = s.xo := rfl
@[simp] theorem evHpk_sup (i : Nat) (s : State) : (evHpk i s).sup = s.sup := rfl
@[simp] theorem evHpk_permit (i : Nat) (s : State) : (evHpk i s).permit = s.permit := rfl
@[simp] theorem evHpk_pwr (i : Nat) (s : State) : (evHpk i s).pwr = s.pwr := rfl
@[simp] theorem evHpk_boot (i : Nat) (s : State) : (evHpk i s).boot = s.boot := rfl
@[simp] theorem evHpk_set (i : Nat) (s : State) : (evHpk i s).set = s.set := rfl
@[simp] theorem evHpk_ov (i : Nat) (s : State) : (evHpk i s).ov = s.ov := rfl
@[simp] theorem evHpk_clk (i : Nat) (s : State) : (evHpk i s).clk = s.clk := rfl
@[simp] theorem evHpk_tt (i : Nat) (s : State) : (evHpk i s).tt = s.tt := rfl
@[simp] theorem evHpk_lf (i : Nat) (s : State) : (evHpk i s).lf = s.lf := rfl
@[simp] theorem evHpk_kl (i : Nat) (s : State) : (evHpk i s).kl = s.kl := rfl
@[simp] theorem evHpk_uhf (i : Nat) (s : State) : (evHpk i s).uhf = s.uhf := rfl
@[simp] theorem evHpk_loc (i : Nat) (s : State) : (evHpk i s).loc = s.loc := rfl
@[simp] theorem evHpk_acc (i : Nat) (s : State) : (evHpk i s).acc = s.acc := rfl
@[simp] theorem evHpk_job (i : Nat) (s : State) : (evHpk i s).job = s.job := rfl
@[simp] theorem evHpk_pages (i : Nat) (s : State) : (evHpk i s).pages = s.pages := rfl
@[simp] theorem evHpk_rng (i : Nat) (s : State) : (evHpk i s).rng = s.rng := rfl
@[simp] theorem evHpk_ks (i : Nat) (s : State) : (evHpk i s).ks = s.ks := rfl
@[simp] theorem evHpk_nvm (i : Nat) (s : State) : (evHpk i s).nvm = s.nvm := rfl
@[simp] theorem evHpk_tmp (i : Nat) (s : State) : (evHpk i s).tmp = s.tmp := rfl
@[simp] theorem evHpk_sw (i : Nat) (s : State) : (evHpk i s).sw = s.sw := rfl
@[simp] theorem evHpk_can (i : Nat) (s : State) : (evHpk i s).can = s.can := rfl
@[simp] theorem evHpk_diag (i : Nat) (s : State) : (evHpk i s).diag = s.diag := rfl
@[simp] theorem evHpk_spi (i : Nat) (s : State) : (evHpk i s).spi = s.spi := rfl
@[simp] theorem evHpk_flt (i : Nat) (s : State) : (evHpk i s).flt = s.flt := rfl
@[simp] theorem evHpk_pins (i : Nat) (s : State) : (evHpk i s).pins = s.pins := rfl
@[simp] theorem evHpk_win (i : Nat) (s : State) : (evHpk i s).win = s.win := rfl
@[simp] theorem evHpk_flash (i : Nat) (s : State) : (evHpk i s).flash = s.flash := rfl

/-! ### evTmp -/

@[simp] theorem evTmp_pending (i : Nat) (s : State) : (evTmp i s).pending = s.pending := rfl
@[simp] theorem evTmp_elapsed (i : Nat) (s : State) : (evTmp i s).elapsed = s.elapsed := rfl
@[simp] theorem evTmp_xo (i : Nat) (s : State) : (evTmp i s).xo = s.xo := rfl
@[simp] theorem evTmp_sup (i : Nat) (s : State) : (evTmp i s).sup = s.sup := rfl
@[simp] theorem evTmp_permit (i : Nat) (s : State) : (evTmp i s).permit = s.permit := rfl
@[simp] theorem evTmp_pwr (i : Nat) (s : State) : (evTmp i s).pwr = s.pwr := rfl
@[simp] theorem evTmp_boot (i : Nat) (s : State) : (evTmp i s).boot = s.boot := rfl
@[simp] theorem evTmp_set (i : Nat) (s : State) : (evTmp i s).set = s.set := rfl
@[simp] theorem evTmp_ov (i : Nat) (s : State) : (evTmp i s).ov = s.ov := rfl
@[simp] theorem evTmp_clk (i : Nat) (s : State) : (evTmp i s).clk = s.clk := rfl
@[simp] theorem evTmp_tt (i : Nat) (s : State) : (evTmp i s).tt = s.tt := rfl
@[simp] theorem evTmp_lf (i : Nat) (s : State) : (evTmp i s).lf = s.lf := rfl
@[simp] theorem evTmp_kl (i : Nat) (s : State) : (evTmp i s).kl = s.kl := rfl
@[simp] theorem evTmp_uhf (i : Nat) (s : State) : (evTmp i s).uhf = s.uhf := rfl
@[simp] theorem evTmp_loc (i : Nat) (s : State) : (evTmp i s).loc = s.loc := rfl
@[simp] theorem evTmp_acc (i : Nat) (s : State) : (evTmp i s).acc = s.acc := rfl
@[simp] theorem evTmp_job (i : Nat) (s : State) : (evTmp i s).job = s.job := rfl
@[simp] theorem evTmp_pages (i : Nat) (s : State) : (evTmp i s).pages = s.pages := rfl
@[simp] theorem evTmp_cip (i : Nat) (s : State) : (evTmp i s).cip = s.cip := rfl
@[simp] theorem evTmp_rng (i : Nat) (s : State) : (evTmp i s).rng = s.rng := rfl
@[simp] theorem evTmp_ks (i : Nat) (s : State) : (evTmp i s).ks = s.ks := rfl
@[simp] theorem evTmp_nvm (i : Nat) (s : State) : (evTmp i s).nvm = s.nvm := rfl
@[simp] theorem evTmp_sw (i : Nat) (s : State) : (evTmp i s).sw = s.sw := rfl
@[simp] theorem evTmp_can (i : Nat) (s : State) : (evTmp i s).can = s.can := rfl
@[simp] theorem evTmp_diag (i : Nat) (s : State) : (evTmp i s).diag = s.diag := rfl
@[simp] theorem evTmp_spi (i : Nat) (s : State) : (evTmp i s).spi = s.spi := rfl
@[simp] theorem evTmp_flt (i : Nat) (s : State) : (evTmp i s).flt = s.flt := rfl
@[simp] theorem evTmp_pins (i : Nat) (s : State) : (evTmp i s).pins = s.pins := rfl
@[simp] theorem evTmp_win (i : Nat) (s : State) : (evTmp i s).win = s.win := rfl
@[simp] theorem evTmp_flash (i : Nat) (s : State) : (evTmp i s).flash = s.flash := rfl

/-! ### sessionClose -/

@[simp] theorem sessionClose_pending (s : State) : (sessionClose s).pending = s.pending := rfl
@[simp] theorem sessionClose_elapsed (s : State) : (sessionClose s).elapsed = s.elapsed := rfl
@[simp] theorem sessionClose_xo (s : State) : (sessionClose s).xo = s.xo := rfl
@[simp] theorem sessionClose_evLog (s : State) : (sessionClose s).evLog = s.evLog := rfl
@[simp] theorem sessionClose_sup (s : State) : (sessionClose s).sup = s.sup := rfl
@[simp] theorem sessionClose_pwr (s : State) : (sessionClose s).pwr = s.pwr := rfl
@[simp] theorem sessionClose_boot (s : State) : (sessionClose s).boot = s.boot := rfl
@[simp] theorem sessionClose_set (s : State) : (sessionClose s).set = s.set := rfl
@[simp] theorem sessionClose_ov (s : State) : (sessionClose s).ov = s.ov := rfl
@[simp] theorem sessionClose_clk (s : State) : (sessionClose s).clk = s.clk := rfl
@[simp] theorem sessionClose_tt (s : State) : (sessionClose s).tt = s.tt := rfl
@[simp] theorem sessionClose_lf (s : State) : (sessionClose s).lf = s.lf := rfl
@[simp] theorem sessionClose_kl (s : State) : (sessionClose s).kl = s.kl := rfl
@[simp] theorem sessionClose_uhf (s : State) : (sessionClose s).uhf = s.uhf := rfl
@[simp] theorem sessionClose_loc (s : State) : (sessionClose s).loc = s.loc := rfl
@[simp] theorem sessionClose_job (s : State) : (sessionClose s).job = s.job := rfl
@[simp] theorem sessionClose_pages (s : State) : (sessionClose s).pages = s.pages := rfl
@[simp] theorem sessionClose_cip (s : State) : (sessionClose s).cip = s.cip := rfl
@[simp] theorem sessionClose_rng (s : State) : (sessionClose s).rng = s.rng := rfl
@[simp] theorem sessionClose_ks (s : State) : (sessionClose s).ks = s.ks := rfl
@[simp] theorem sessionClose_nvm (s : State) : (sessionClose s).nvm = s.nvm := rfl
@[simp] theorem sessionClose_tmp (s : State) : (sessionClose s).tmp = s.tmp := rfl
@[simp] theorem sessionClose_sw (s : State) : (sessionClose s).sw = s.sw := rfl
@[simp] theorem sessionClose_can (s : State) : (sessionClose s).can = s.can := rfl
@[simp] theorem sessionClose_diag (s : State) : (sessionClose s).diag = s.diag := rfl
@[simp] theorem sessionClose_spi (s : State) : (sessionClose s).spi = s.spi := rfl
@[simp] theorem sessionClose_flt (s : State) : (sessionClose s).flt = s.flt := rfl
@[simp] theorem sessionClose_pins (s : State) : (sessionClose s).pins = s.pins := rfl
@[simp] theorem sessionClose_win (s : State) : (sessionClose s).win = s.win := rfl
@[simp] theorem sessionClose_flash (s : State) : (sessionClose s).flash = s.flash := rfl

/-! ### opEnd -/

@[simp] theorem opEnd_pending (tag : Nat) (st : Status) (late : Bool) (out : Bytes) (s : State) :
    (opEnd tag st late out s).pending = s.pending := rfl
@[simp] theorem opEnd_elapsed (tag : Nat) (st : Status) (late : Bool) (out : Bytes) (s : State) :
    (opEnd tag st late out s).elapsed = s.elapsed := rfl
@[simp] theorem opEnd_xo (tag : Nat) (st : Status) (late : Bool) (out : Bytes) (s : State) :
    (opEnd tag st late out s).xo = s.xo := rfl
@[simp] theorem opEnd_evLog (tag : Nat) (st : Status) (late : Bool) (out : Bytes) (s : State) :
    (opEnd tag st late out s).evLog = s.evLog := rfl
@[simp] theorem opEnd_sup (tag : Nat) (st : Status) (late : Bool) (out : Bytes) (s : State) :
    (opEnd tag st late out s).sup = s.sup := rfl
@[simp] theorem opEnd_permit (tag : Nat) (st : Status) (late : Bool) (out : Bytes) (s : State) :
    (opEnd tag st late out s).permit = s.permit := rfl
@[simp] theorem opEnd_pwr (tag : Nat) (st : Status) (late : Bool) (out : Bytes) (s : State) :
    (opEnd tag st late out s).pwr = s.pwr := rfl
@[simp] theorem opEnd_boot (tag : Nat) (st : Status) (late : Bool) (out : Bytes) (s : State) :
    (opEnd tag st late out s).boot = s.boot := rfl
@[simp] theorem opEnd_set (tag : Nat) (st : Status) (late : Bool) (out : Bytes) (s : State) :
    (opEnd tag st late out s).set = s.set := rfl
@[simp] theorem opEnd_ov (tag : Nat) (st : Status) (late : Bool) (out : Bytes) (s : State) :
    (opEnd tag st late out s).ov = s.ov := rfl
@[simp] theorem opEnd_clk (tag : Nat) (st : Status) (late : Bool) (out : Bytes) (s : State) :
    (opEnd tag st late out s).clk = s.clk := rfl
@[simp] theorem opEnd_tt (tag : Nat) (st : Status) (late : Bool) (out : Bytes) (s : State) :
    (opEnd tag st late out s).tt = s.tt := rfl
@[simp] theorem opEnd_lf (tag : Nat) (st : Status) (late : Bool) (out : Bytes) (s : State) :
    (opEnd tag st late out s).lf = s.lf := rfl
@[simp] theorem opEnd_kl (tag : Nat) (st : Status) (late : Bool) (out : Bytes) (s : State) :
    (opEnd tag st late out s).kl = s.kl := rfl
@[simp] theorem opEnd_uhf (tag : Nat) (st : Status) (late : Bool) (out : Bytes) (s : State) :
    (opEnd tag st late out s).uhf = s.uhf := rfl
@[simp] theorem opEnd_loc (tag : Nat) (st : Status) (late : Bool) (out : Bytes) (s : State) :
    (opEnd tag st late out s).loc = s.loc := rfl
@[simp] theorem opEnd_acc (tag : Nat) (st : Status) (late : Bool) (out : Bytes) (s : State) :
    (opEnd tag st late out s).acc = s.acc := rfl
@[simp] theorem opEnd_pages (tag : Nat) (st : Status) (late : Bool) (out : Bytes) (s : State) :
    (opEnd tag st late out s).pages = s.pages := rfl
@[simp] theorem opEnd_cip (tag : Nat) (st : Status) (late : Bool) (out : Bytes) (s : State) :
    (opEnd tag st late out s).cip = s.cip := rfl
@[simp] theorem opEnd_rng (tag : Nat) (st : Status) (late : Bool) (out : Bytes) (s : State) :
    (opEnd tag st late out s).rng = s.rng := rfl
@[simp] theorem opEnd_ks (tag : Nat) (st : Status) (late : Bool) (out : Bytes) (s : State) :
    (opEnd tag st late out s).ks = s.ks := rfl
@[simp] theorem opEnd_nvm (tag : Nat) (st : Status) (late : Bool) (out : Bytes) (s : State) :
    (opEnd tag st late out s).nvm = s.nvm := rfl
@[simp] theorem opEnd_tmp (tag : Nat) (st : Status) (late : Bool) (out : Bytes) (s : State) :
    (opEnd tag st late out s).tmp = s.tmp := rfl
@[simp] theorem opEnd_sw (tag : Nat) (st : Status) (late : Bool) (out : Bytes) (s : State) :
    (opEnd tag st late out s).sw = s.sw := rfl
@[simp] theorem opEnd_can (tag : Nat) (st : Status) (late : Bool) (out : Bytes) (s : State) :
    (opEnd tag st late out s).can = s.can := rfl
@[simp] theorem opEnd_diag (tag : Nat) (st : Status) (late : Bool) (out : Bytes) (s : State) :
    (opEnd tag st late out s).diag = s.diag := rfl
@[simp] theorem opEnd_spi (tag : Nat) (st : Status) (late : Bool) (out : Bytes) (s : State) :
    (opEnd tag st late out s).spi = s.spi := rfl
@[simp] theorem opEnd_flt (tag : Nat) (st : Status) (late : Bool) (out : Bytes) (s : State) :
    (opEnd tag st late out s).flt = s.flt := rfl
@[simp] theorem opEnd_pins (tag : Nat) (st : Status) (late : Bool) (out : Bytes) (s : State) :
    (opEnd tag st late out s).pins = s.pins := rfl
@[simp] theorem opEnd_win (tag : Nat) (st : Status) (late : Bool) (out : Bytes) (s : State) :
    (opEnd tag st late out s).win = s.win := rfl
@[simp] theorem opEnd_flash (tag : Nat) (st : Status) (late : Bool) (out : Bytes) (s : State) :
    (opEnd tag st late out s).flash = s.flash := rfl

/-! ### udsSay -/

@[simp] theorem udsSay_pending (c : Nat) (b : Bytes) (s : State) : (udsSay c b s).pending = s.pending := rfl
@[simp] theorem udsSay_elapsed (c : Nat) (b : Bytes) (s : State) : (udsSay c b s).elapsed = s.elapsed := rfl
@[simp] theorem udsSay_xo (c : Nat) (b : Bytes) (s : State) : (udsSay c b s).xo = s.xo := rfl
@[simp] theorem udsSay_evLog (c : Nat) (b : Bytes) (s : State) : (udsSay c b s).evLog = s.evLog := rfl
@[simp] theorem udsSay_sup (c : Nat) (b : Bytes) (s : State) : (udsSay c b s).sup = s.sup := rfl
@[simp] theorem udsSay_permit (c : Nat) (b : Bytes) (s : State) : (udsSay c b s).permit = s.permit := rfl
@[simp] theorem udsSay_pwr (c : Nat) (b : Bytes) (s : State) : (udsSay c b s).pwr = s.pwr := rfl
@[simp] theorem udsSay_boot (c : Nat) (b : Bytes) (s : State) : (udsSay c b s).boot = s.boot := rfl
@[simp] theorem udsSay_set (c : Nat) (b : Bytes) (s : State) : (udsSay c b s).set = s.set := rfl
@[simp] theorem udsSay_ov (c : Nat) (b : Bytes) (s : State) : (udsSay c b s).ov = s.ov := rfl
@[simp] theorem udsSay_clk (c : Nat) (b : Bytes) (s : State) : (udsSay c b s).clk = s.clk := rfl
@[simp] theorem udsSay_tt (c : Nat) (b : Bytes) (s : State) : (udsSay c b s).tt = s.tt := rfl
@[simp] theorem udsSay_lf (c : Nat) (b : Bytes) (s : State) : (udsSay c b s).lf = s.lf := rfl
@[simp] theorem udsSay_kl (c : Nat) (b : Bytes) (s : State) : (udsSay c b s).kl = s.kl := rfl
@[simp] theorem udsSay_uhf (c : Nat) (b : Bytes) (s : State) : (udsSay c b s).uhf = s.uhf := rfl
@[simp] theorem udsSay_loc (c : Nat) (b : Bytes) (s : State) : (udsSay c b s).loc = s.loc := rfl
@[simp] theorem udsSay_acc (c : Nat) (b : Bytes) (s : State) : (udsSay c b s).acc = s.acc := rfl
@[simp] theorem udsSay_job (c : Nat) (b : Bytes) (s : State) : (udsSay c b s).job = s.job := rfl
@[simp] theorem udsSay_pages (c : Nat) (b : Bytes) (s : State) : (udsSay c b s).pages = s.pages := rfl
@[simp] theorem udsSay_cip (c : Nat) (b : Bytes) (s : State) : (udsSay c b s).cip = s.cip := rfl
@[simp] theorem udsSay_rng (c : Nat) (b : Bytes) (s : State) : (udsSay c b s).rng = s.rng := rfl
@[simp] theorem udsSay_ks (c : Nat) (b : Bytes) (s : State) : (udsSay c b s).ks = s.ks := rfl
@[simp] theorem udsSay_nvm (c : Nat) (b : Bytes) (s : State) : (udsSay c b s).nvm = s.nvm := rfl
@[simp] theorem udsSay_tmp (c : Nat) (b : Bytes) (s : State) : (udsSay c b s).tmp = s.tmp := rfl
@[simp] theorem udsSay_sw (c : Nat) (b : Bytes) (s : State) : (udsSay c b s).sw = s.sw := rfl
@[simp] theorem udsSay_can (c : Nat) (b : Bytes) (s : State) : (udsSay c b s).can = s.can := rfl
@[simp] theorem udsSay_spi (c : Nat) (b : Bytes) (s : State) : (udsSay c b s).spi = s.spi := rfl
@[simp] theorem udsSay_flt (c : Nat) (b : Bytes) (s : State) : (udsSay c b s).flt = s.flt := rfl
@[simp] theorem udsSay_pins (c : Nat) (b : Bytes) (s : State) : (udsSay c b s).pins = s.pins := rfl
@[simp] theorem udsSay_win (c : Nat) (b : Bytes) (s : State) : (udsSay c b s).win = s.win := rfl
@[simp] theorem udsSay_flash (c : Nat) (b : Bytes) (s : State) : (udsSay c b s).flash = s.flash := rfl

/-! ### udsNrc -/

@[simp] theorem udsNrc_pending (c : Nat) (sid : Nat) (nrc : Nat) (s : State) : (udsNrc c sid nrc s).pending = s.pending := rfl
@[simp] theorem udsNrc_elapsed (c : Nat) (sid : Nat) (nrc : Nat) (s : State) : (udsNrc c sid nrc s).elapsed = s.elapsed := rfl
@[simp] theorem udsNrc_xo (c : Nat) (sid : Nat) (nrc : Nat) (s : State) : (udsNrc c sid nrc s).xo = s.xo := rfl
@[simp] theorem udsNrc_evLog (c : Nat) (sid : Nat) (nrc : Nat) (s : State) : (udsNrc c sid nrc s).evLog = s.evLog := rfl
@[simp] theorem udsNrc_sup (c : Nat) (sid : Nat) (nrc : Nat) (s : State) : (udsNrc c sid nrc s).sup = s.sup := rfl
@[simp] theorem udsNrc_permit (c : Nat) (sid : Nat) (nrc : Nat) (s : State) : (udsNrc c sid nrc s).permit = s.permit := rfl
@[simp] theorem udsNrc_pwr (c : Nat) (sid : Nat) (nrc : Nat) (s : State) : (udsNrc c sid nrc s).pwr = s.pwr := rfl
@[simp] theorem udsNrc_boot (c : Nat) (sid : Nat) (nrc : Nat) (s : State) : (udsNrc c sid nrc s).boot = s.boot := rfl
@[simp] theorem udsNrc_set (c : Nat) (sid : Nat) (nrc : Nat) (s : State) : (udsNrc c sid nrc s).set = s.set := rfl
@[simp] theorem udsNrc_ov (c : Nat) (sid : Nat) (nrc : Nat) (s : State) : (udsNrc c sid nrc s).ov = s.ov := rfl
@[simp] theorem udsNrc_clk (c : Nat) (sid : Nat) (nrc : Nat) (s : State) : (udsNrc c sid nrc s).clk = s.clk := rfl
@[simp] theorem udsNrc_tt (c : Nat) (sid : Nat) (nrc : Nat) (s : State) : (udsNrc c sid nrc s).tt = s.tt := rfl
@[simp] theorem udsNrc_lf (c : Nat) (sid : Nat) (nrc : Nat) (s : State) : (udsNrc c sid nrc s).lf = s.lf := rfl
@[simp] theorem udsNrc_kl (c : Nat) (sid : Nat) (nrc : Nat) (s : State) : (udsNrc c sid nrc s).kl = s.kl := rfl
@[simp] theorem udsNrc_uhf (c : Nat) (sid : Nat) (nrc : Nat) (s : State) : (udsNrc c sid nrc s).uhf = s.uhf := rfl
@[simp] theorem udsNrc_loc (c : Nat) (sid : Nat) (nrc : Nat) (s : State) : (udsNrc c sid nrc s).loc = s.loc := rfl
@[simp] theorem udsNrc_acc (c : Nat) (sid : Nat) (nrc : Nat) (s : State) : (udsNrc c sid nrc s).acc = s.acc := rfl
@[simp] theorem udsNrc_job (c : Nat) (sid : Nat) (nrc : Nat) (s : State) : (udsNrc c sid nrc s).job = s.job := rfl
@[simp] theorem udsNrc_pages (c : Nat) (sid : Nat) (nrc : Nat) (s : State) : (udsNrc c sid nrc s).pages = s.pages := rfl
@[simp] theorem udsNrc_cip (c : Nat) (sid : Nat) (nrc : Nat) (s : State) : (udsNrc c sid nrc s).cip = s.cip := rfl
@[simp] theorem udsNrc_rng (c : Nat) (sid : Nat) (nrc : Nat) (s : State) : (udsNrc c sid nrc s).rng = s.rng := rfl
@[simp] theorem udsNrc_ks (c : Nat) (sid : Nat) (nrc : Nat) (s : State) : (udsNrc c sid nrc s).ks = s.ks := rfl
@[simp] theorem udsNrc_nvm (c : Nat) (sid : Nat) (nrc : Nat) (s : State) : (udsNrc c sid nrc s).nvm = s.nvm := rfl
@[simp] theorem udsNrc_tmp (c : Nat) (sid : Nat) (nrc : Nat) (s : State) : (udsNrc c sid nrc s).tmp = s.tmp := rfl
@[simp] theorem udsNrc_sw (c : Nat) (sid : Nat) (nrc : Nat) (s : State) : (udsNrc c sid nrc s).sw = s.sw := rfl
@[simp] theorem udsNrc_can (c : Nat) (sid : Nat) (nrc : Nat) (s : State) : (udsNrc c sid nrc s).can = s.can := rfl
@[simp] theorem udsNrc_spi (c : Nat) (sid : Nat) (nrc : Nat) (s : State) : (udsNrc c sid nrc s).spi = s.spi := rfl
@[simp] theorem udsNrc_flt (c : Nat) (sid : Nat) (nrc : Nat) (s : State) : (udsNrc c sid nrc s).flt = s.flt := rfl
@[simp] theorem udsNrc_pins (c : Nat) (sid : Nat) (nrc : Nat) (s : State) : (udsNrc c sid nrc s).pins = s.pins := rfl
@[simp] theorem udsNrc_win (c : Nat) (sid : Nat) (nrc : Nat) (s : State) : (udsNrc c sid nrc s).win = s.win := rfl
@[simp] theorem udsNrc_flash (c : Nat) (sid : Nat) (nrc : Nat) (s : State) : (udsNrc c sid nrc s).flash = s.flash := rfl

/-! ### winWrite -/

@[simp] theorem winWrite_pending (s : State) (off : Nat) (b : Bytes) : (winWrite s off b).pending = s.pending := rfl
@[simp] theorem winWrite_elapsed (s : State) (off : Nat) (b : Bytes) : (winWrite s off b).elapsed = s.elapsed := rfl
@[simp] theorem winWrite_xo (s : State) (off : Nat) (b : Bytes) : (winWrite s off b).xo = s.xo := rfl
@[simp] theorem winWrite_evLog (s : State) (off : Nat) (b : Bytes) : (winWrite s off b).evLog = s.evLog := rfl
@[simp] theorem winWrite_sup (s : State) (off : Nat) (b : Bytes) : (winWrite s off b).sup = s.sup := rfl
@[simp] theorem winWrite_permit (s : State) (off : Nat) (b : Bytes) : (winWrite s off b).permit = s.permit := rfl
@[simp] theorem winWrite_pwr (s : State) (off : Nat) (b : Bytes) : (winWrite s off b).pwr = s.pwr := rfl
@[simp] theorem winWrite_boot (s : State) (off : Nat) (b : Bytes) : (winWrite s off b).boot = s.boot := rfl
@[simp] theorem winWrite_set (s : State) (off : Nat) (b : Bytes) : (winWrite s off b).set = s.set := rfl
@[simp] theorem winWrite_ov (s : State) (off : Nat) (b : Bytes) : (winWrite s off b).ov = s.ov := rfl
@[simp] theorem winWrite_clk (s : State) (off : Nat) (b : Bytes) : (winWrite s off b).clk = s.clk := rfl
@[simp] theorem winWrite_tt (s : State) (off : Nat) (b : Bytes) : (winWrite s off b).tt = s.tt := rfl
@[simp] theorem winWrite_lf (s : State) (off : Nat) (b : Bytes) : (winWrite s off b).lf = s.lf := rfl
@[simp] theorem winWrite_kl (s : State) (off : Nat) (b : Bytes) : (winWrite s off b).kl = s.kl := rfl
@[simp] theorem winWrite_uhf (s : State) (off : Nat) (b : Bytes) : (winWrite s off b).uhf = s.uhf := rfl
@[simp] theorem winWrite_loc (s : State) (off : Nat) (b : Bytes) : (winWrite s off b).loc = s.loc := rfl
@[simp] theorem winWrite_acc (s : State) (off : Nat) (b : Bytes) : (winWrite s off b).acc = s.acc := rfl
@[simp] theorem winWrite_job (s : State) (off : Nat) (b : Bytes) : (winWrite s off b).job = s.job := rfl
@[simp] theorem winWrite_pages (s : State) (off : Nat) (b : Bytes) : (winWrite s off b).pages = s.pages := rfl
@[simp] theorem winWrite_cip (s : State) (off : Nat) (b : Bytes) : (winWrite s off b).cip = s.cip := rfl
@[simp] theorem winWrite_rng (s : State) (off : Nat) (b : Bytes) : (winWrite s off b).rng = s.rng := rfl
@[simp] theorem winWrite_ks (s : State) (off : Nat) (b : Bytes) : (winWrite s off b).ks = s.ks := rfl
@[simp] theorem winWrite_nvm (s : State) (off : Nat) (b : Bytes) : (winWrite s off b).nvm = s.nvm := rfl
@[simp] theorem winWrite_tmp (s : State) (off : Nat) (b : Bytes) : (winWrite s off b).tmp = s.tmp := rfl
@[simp] theorem winWrite_sw (s : State) (off : Nat) (b : Bytes) : (winWrite s off b).sw = s.sw := rfl
@[simp] theorem winWrite_can (s : State) (off : Nat) (b : Bytes) : (winWrite s off b).can = s.can := rfl
@[simp] theorem winWrite_diag (s : State) (off : Nat) (b : Bytes) : (winWrite s off b).diag = s.diag := rfl
@[simp] theorem winWrite_spi (s : State) (off : Nat) (b : Bytes) : (winWrite s off b).spi = s.spi := rfl
@[simp] theorem winWrite_flt (s : State) (off : Nat) (b : Bytes) : (winWrite s off b).flt = s.flt := rfl
@[simp] theorem winWrite_pins (s : State) (off : Nat) (b : Bytes) : (winWrite s off b).pins = s.pins := rfl
@[simp] theorem winWrite_flash (s : State) (off : Nat) (b : Bytes) : (winWrite s off b).flash = s.flash := rfl

/-! ### The end of every command -/

@[simp] theorem settle_pending (b a : State) : (settle b a).pending = b.pending := rfl
@[simp] theorem settle_evLog (b a : State) : (settle b a).evLog = [] := rfl
@[simp] theorem settle_pages (b a : State) : (settle b a).pages = evPages a := rfl
@[simp] theorem settle_latch (b a : State) : (settle b a).permit.latch = (a.permit.latch && !denyLevel a) := rfl
@[simp] theorem settle_spA (b a : State) : (settle b a).permit.spA = (a.permit.latch && !denyLevel a) := rfl
@[simp] theorem settle_spB (b a : State) : (settle b a).permit.spB = (a.permit.latch && !denyLevel a) := rfl
@[simp] theorem settle_pdDenied (b a : State) : (settle b a).permit.pdDenied = a.permit.pdDenied := rfl
@[simp] theorem settle_pdBelow (b a : State) : (settle b a).permit.pdBelow = a.permit.pdBelow := rfl
@[simp] theorem settle_tokenAt (b a : State) : (settle b a).permit.tokenAt = a.permit.tokenAt := rfl
@[simp] theorem settle_pins (b a : State) : (settle b a).pins = pinsOf a := rfl
@[simp] theorem settle_hirq (b a : State) : (settle b a).spi.hirq = hirqLow a := rfl
@[simp] theorem settle_lock (b a : State) : (settle b a).spi.lock = a.spi.lock := rfl
@[simp] theorem settle_denyLevel (b a : State) : denyLevel (settle b a) = denyLevel a := rfl
@[simp] theorem settle_hasRole (b a : State) (r : Nat) : hasRole (settle b a) r = hasRole a r := rfl

/-- A command's outcome that is a next state is its effect, settled. -/
theorem done_next {s a t : State} (h : done s a = .next t) : t = settle s a := by
  injection h with h
  exact h.symm

/-- A command that carries VBAT answers a next state only within 45 V. -/
theorem withVbat_next {mv : Nat} {s t : State} {f : State → State} (h : withVbat mv s f = .next t) :
    mv ≤ 45000 ∧ t = settle s (f (seeVbat mv s)) := by
  unfold withVbat at h
  split at h
  · exact absurd h (by intro h'; cases h')
  · exact ⟨by omega, done_next h⟩

/-- Within 45 V a command that carries VBAT acts on the state that has seen it. -/
theorem withVbat_eq {mv : Nat} (s : State) (f : State → State) (h : mv ≤ 45000) :
    withVbat mv s f = .next (settle s (f (seeVbat mv s))) := by
  unfold withVbat
  rw [if_neg (by omega)]
  rfl

end Sys2Proof.Machine
end

