-- ==== Sys2Proof/Laws/Ops.lean ====
section
/-! SUPPORT. What each shared operation can change, one equation per operation: the state after it is the state before it with the
named blocks taken from the result, so every other field keeps its value. -/

namespace Sys2Proof.Machine

theorem accSlot_keeps (n : Nat) (k : BitVec 128) (s : State) :
    accSlot n k s = { s with ks := (accSlot n k s).ks } := by
  rfl

theorem aspShut_keeps (page : Nat) (s : State) :
    aspShut page s = { s with pages := (aspShut page s).pages } := by
  rfl

theorem authFail_keeps (c : Nat) (nrc : Nat) (s : State) :
    authFail c nrc s = { s with evLog := (authFail c nrc s).evLog, diag := (authFail c nrc s).diag } := by
  unfold authFail
  dsimp only
  (repeat' split) <;> rfl

theorem calAllDue_keeps (s : State) :
    calAllDue s = { s with uhf := (calAllDue s).uhf } := by
  rfl

theorem carrierOn_keeps (s : State) :
    carrierOn s = { s with lf := (carrierOn s).lf } := by
  rfl

theorem chalDraw_keeps (s : State) :
    chalDraw s = { s with acc := (chalDraw s).acc, rng := (chalDraw s).rng } := by
  unfold chalDraw
  (repeat' split) <;> rfl

theorem ckptItem_keeps (r : Nat) (x : CkptItem) (s : State) :
    ckptItem r x s = { s with flt := (ckptItem r x s).flt } := by
  rfl

theorem connUnauth_keeps (c : Nat) (s : State) :
    connUnauth c s = { s with diag := (connUnauth c s).diag } := by
  rfl

theorem countRequest_keeps (s : State) :
    countRequest s = { s with rng := (countRequest s).rng } := by
  rfl

theorem crankLeave_keeps (s : State) :
    crankLeave s = { s with sup := (crankLeave s).sup } := by
  unfold crankLeave
  dsimp only
  (repeat' split) <;> rfl

theorem doipOut_keeps (m : Bytes) (s : State) :
    doipOut m s = { s with diag := (doipOut m s).diag } := by
  rfl

theorem domMod_keeps (d : Dom) (f : Domain → Domain) (s : State) :
    domMod d f s = { s with clk := (domMod d f s).clk } := by
  unfold domMod
  (repeat' split) <;> rfl

theorem domainsStart_keeps (s : State) :
    domainsStart s = { s with clk := (domainsStart s).clk } := by
  unfold domainsStart
  dsimp only
  (repeat' split) <;> rfl

theorem driveOn_keeps (m : ChMode) (ifs : Nat) (d : Drive) (s : State) :
    driveOn m ifs d s = { s with lf := (driveOn m ifs d s).lf } := by
  rfl

theorem dropEvent_keeps (page : Nat) (s : State) :
    dropEvent page s = { s with
      evLog := (dropEvent page s).evLog, pages := (dropEvent page s).pages, diag := (dropEvent page s).diag } := by
  unfold dropEvent
  (repeat' split) <;> rfl

theorem eccBad_keeps (mem : Nat) (off : Nat) (s : State) :
    eccBad mem off s = { s with evLog := (eccBad mem off s).evLog, flt := (eccBad mem off s).flt } := by
  rfl

theorem enqueue_keeps (p : Nat) (cls : Nat) (f : Frame) (s : State) :
    enqueue p cls f s = { s with evLog := (enqueue p cls f s).evLog, sw := (enqueue p cls f s).sw } := by
  unfold enqueue
  dsimp only
  (repeat' split) <;> rfl

theorem evCan_keeps (n : Nat) (i : Nat) (s : State) :
    evCan n i s = { s with evLog := (evCan n i s).evLog, can := (evCan n i s).can } := by
  rfl

theorem exchNext_keeps (s : State) :
    exchNext s = { s with acc := (exchNext s).acc } := by
  rfl

theorem fedRings_keeps (r : Nat) (f : Ring → Ring) (s : State) :
    fedRings r f s = { s with job := (fedRings r f s).job } := by
  rfl

theorem flowPut_keeps (f : Flow) (s : State) :
    flowPut f s = { s with sw := (flowPut f s).sw } := by
  rfl

theorem gateSettle_keeps (page : Nat) (s : State) :
    gateSettle page s = { s with pages := (gateSettle page s).pages } := by
  unfold gateSettle
  (repeat' split) <;> rfl

theorem heathEvent_keeps (bitNo : Nat) (s : State) :
    heathEvent bitNo s = { s with evLog := (heathEvent bitNo s).evLog, pwr := (heathEvent bitNo s).pwr } := by
  unfold heathEvent
  (repeat' split) <;> rfl

theorem hostNote_keeps (page : Nat) (st : Status) (addr : Nat) (s : State) :
    hostNote page st addr s = { s with spi := (hostNote page st addr s).spi } := by
  unfold hostNote
  (repeat' split) <;> rfl

theorem hostSeen_keeps (page : Nat) (s : State) :
    hostSeen page s = { s with pwr := (hostSeen page s).pwr } := by
  unfold hostSeen
  (repeat' split) <;> rfl

theorem hpkEnd_keeps (o : Op) (st : Status) (out : Bytes) (s : State) :
    hpkEnd o st out s = { s with job := (hpkEnd o st out s).job, cip := (hpkEnd o st out s).cip } := by
  rfl

theorem inPop_keeps (page : Nat) (s : State) :
    inPop page s = { s with pages := (inPop page s).pages } := by
  rfl

theorem klNote_keeps (st : Status) (r : Reply) (s : State) :
    klNote st r s = { s with evLog := (klNote st r s).evLog, kl := (klNote st r s).kl } := by
  unfold klNote
  (repeat' split) <;> rfl

theorem latchDenyNow_keeps (s : State) :
    latchDenyNow s = { s with permit := (latchDenyNow s).permit } := by
  rfl

theorem latchGrant_keeps (s : State) :
    latchGrant s = { s with permit := (latchGrant s).permit } := by
  unfold latchGrant
  (repeat' split) <;> rfl

theorem ledgerStart_keeps (s : State) :
    ledgerStart s = { s with nvm := (ledgerStart s).nvm } := by
  unfold ledgerStart
  (repeat' split) <;> rfl

theorem lfActionEnd_keeps (s : State) :
    lfActionEnd s = { s with sup := (lfActionEnd s).sup } := by
  unfold lfActionEnd
  (repeat' split) <;> rfl

theorem lfModes_keeps (f : Nat → ChMode) (s : State) :
    lfModes f s = { s with lf := (lfModes f s).lf } := by
  rfl

theorem lfOff_keeps (s : State) :
    lfOff s = { s with lf := (lfOff s).lf } := by
  rfl

theorem lfdOff_keeps (s : State) :
    lfdOff s = { s with sup := (lfdOff s).sup, lf := (lfdOff s).lf } := by
  rfl

theorem macFail_keeps (s : State) :
    macFail s = { s with evLog := (macFail s).evLog, diag := (macFail s).diag } := by
  rfl

theorem noteRun_keeps (o : Op) (s0 : State) :
    noteRun o s0 = { s0 with job := (noteRun o s0).job, cip := (noteRun o s0).cip } := by
  unfold noteRun
  dsimp only
  (repeat' split) <;> rfl

theorem noteSat_keeps (sat : BitVec 16) (s : State) :
    noteSat sat s = { s with evLog := (noteSat sat s).evLog, lf := (noteSat sat s).lf } := by
  unfold noteSat
  (repeat' split) <;> rfl

theorem noteScaled_keeps (k : Nat) (s : State) :
    noteScaled k s = { s with evLog := (noteScaled k s).evLog, lf := (noteScaled k s).lf } := by
  unfold noteScaled
  (repeat' split) <;> rfl

theorem occEnd_keeps (i : Nat) (e : Entry) (s : State) :
    occEnd i e s = { s with evLog := (occEnd i e s).evLog, tt := (occEnd i e s).tt } := by
  unfold occEnd
  dsimp only
  (repeat' split) <;> rfl

theorem outcome_keeps (kind : Nat) (cred : Nat) (st : Status) (cmd : Nat) (inside : Bool) (s : State) :
    outcome kind cred st cmd inside s = { s with
      evLog := (outcome kind cred st cmd inside s).evLog, pwr := (outcome kind cred st cmd inside s).pwr, acc := (outcome kind cred st cmd inside s).acc } := by
  unfold outcome
  (repeat' split) <;> rfl

theorem pinModes_keeps (p : Bytes) (s : State) :
    pinModes p s = { s with tmp := (pinModes p s).tmp } := by
  rfl

theorem queueTake_keeps (p : Nat) (cls : Nat) (f : Frame → Bool) (s : State) :
    queueTake p cls f s = { s with sw := (queueTake p cls f s).sw } := by
  rfl

theorem retestHold_keeps (s : State) :
    retestHold s = { s with lf := (retestHold s).lf } := by
  rfl

theorem ringItem_keeps (n : Nat) (x : CkptItem) (s : State) :
    ringItem n x s = { s with flt := (ringItem n x s).flt } := by
  unfold ringItem
  (repeat' split) <;> rfl

theorem rngDiscard_keeps (s : State) :
    rngDiscard s = { s with rng := (rngDiscard s).rng } := by
  rfl

theorem rngFresh_keeps (s : State) :
    rngFresh s = { s with rng := (rngFresh s).rng } := by
  rfl

theorem rtEnd_keeps (st : Status) (res : Bytes) (s : State) :
    rtEnd st res s = { s with diag := (rtEnd st res s).diag } := by
  unfold rtEnd
  (repeat' split) <;> rfl

theorem rtMod_keeps (f : Routine → Routine) (s : State) :
    rtMod f s = { s with diag := (rtMod f s).diag } := by
  rfl

theorem rtSetStep_keeps (n : Nat) (s : State) :
    rtSetStep n s = { s with diag := (rtSetStep n s).diag } := by
  rfl

theorem sendEnd_keeps (st : Status) (i : Nat) (s : State) :
    sendEnd st i s = { s with evLog := (sendEnd st i s).evLog, tt := (sendEnd st i s).tt, job := (sendEnd st i s).job } := by
  unfold sendEnd
  (repeat' split) <;> rfl

theorem sendOut_keeps (p : Nat) (f : Bytes) (s : State) :
    sendOut p f s = { s with sw := (sendOut p f s).sw } := by
  rfl

theorem seqKeysVoid_keeps (s : State) :
    seqKeysVoid s = { s with ks := (seqKeysVoid s).ks } := by
  rfl

theorem sessionDefault_keeps (c : Nat) (s : State) :
    sessionDefault c s = { s with diag := (sessionDefault c s).diag } := by
  rfl

theorem sessionEnter_keeps (c : Nat) (n : Nat) (s : State) :
    sessionEnter c n s = { s with diag := (sessionEnter c n s).diag } := by
  unfold sessionEnter
  dsimp only
  (repeat' split) <;> rfl

theorem settingsIn_keeps (c : Settings) (s : State) :
    settingsIn c s = { s with
      set := (settingsIn c s).set, ov := (settingsIn c s).ov, lf := (settingsIn c s).lf,
      pages := (settingsIn c s).pages, tmp := (settingsIn c s).tmp, can := (settingsIn c s).can } := by
  rfl

theorem slotStart_keeps (s : State) :
    slotStart s = { s with acc := (slotStart s).acc } := by
  rfl

theorem slotVoid_keeps (n : Nat) (s : State) :
    slotVoid n s = { s with ks := (slotVoid n s).ks } := by
  rfl

theorem spend_keeps (n : Nat) (s : State) :
    spend n s = { s with nvm := (spend n s).nvm } := by
  rfl

theorem spiEnd_keeps (st : Status) (addr : Nat) (rdata : Bytes) (s : State) :
    spiEnd st addr rdata s = { s with pwr := (spiEnd st addr rdata s).pwr, spi := (spiEnd st addr rdata s).spi } := by
  unfold spiEnd
  (repeat' split) <;> rfl

theorem spiSilent_keeps (s : State) :
    spiSilent s = { s with spi := (spiSilent s).spi } := by
  rfl

theorem trxDown_keeps (n : Nat) (s : State) :
    trxDown n s = { s with uhf := (trxDown n s).uhf } := by
  rfl

theorem trxFree_keeps (n : Nat) (s : State) :
    trxFree n s = { s with uhf := (trxFree n s).uhf } := by
  unfold trxFree
  (repeat' split) <;> rfl

theorem trxRest_keeps (n : Nat) (s : State) :
    trxRest n s = { s with uhf := (trxRest n s).uhf } := by
  rfl

theorem uhfOff_keeps (s : State) :
    uhfOff s = { s with uhf := (uhfOff s).uhf } := by
  rfl

theorem vdrvAim_keeps (s : State) :
    vdrvAim s = { s with sup := (vdrvAim s).sup } := by
  rfl

theorem vdrvOff_keeps (s : State) :
    vdrvOff s = { s with sup := (vdrvOff s).sup } := by
  rfl

theorem vdrvStart_keeps (s : State) :
    vdrvStart s = { s with sup := (vdrvStart s).sup } := by
  unfold vdrvStart
  (repeat' split) <;> rfl

theorem verifyEnd_keeps (o : Op) (digest : Bytes) (s : State) :
    verifyEnd o digest s = { s with
      evLog := (verifyEnd o digest s).evLog, job := (verifyEnd o digest s).job, cip := (verifyEnd o digest s).cip } := by
  unfold verifyEnd
  dsimp only
  (repeat' split) <;> rfl

theorem withdraw_keeps (s : State) :
    withdraw s = { s with
      evLog := (withdraw s).evLog, permit := (withdraw s).permit, acc := (withdraw s).acc,
      flt := (withdraw s).flt } := by
  unfold withdraw
  (repeat' split) <;> rfl

theorem zeroOut_keeps (o : Op) (s : State) :
    zeroOut o s = { s with win := (zeroOut o s).win } := by
  unfold zeroOut
  (repeat' split) <;> rfl

theorem dtcPut_keeps (mask : BitVec 8) (code : Nat) (s : State) :
    dtcPut mask code s = { s with diag := (dtcPut mask code s).diag, evLog := (dtcPut mask code s).evLog } := by
  unfold dtcPut
  split
  · rfl
  · split
    · rfl
    · cases h : s.diag.dtcs.findIdx? (fun d => !d.st.getLsbD 0) <;> rfl

theorem dtcStore_keeps (mask : BitVec 8) (code : Nat) (s : State) :
    dtcStore mask code s = { s with
      diag := (dtcStore mask code s).diag, evLog := (dtcStore mask code s).evLog, nvm := (dtcStore mask code s).nvm } := by
  unfold dtcStore
  split
  · rfl
  · split
    · rw [dtcPut_keeps, spend_keeps]
    · split <;> rfl

theorem dtcRaise_keeps (mask : BitVec 8) (code : Nat) (s : State) :
    dtcRaise mask code s = { s with
      diag := (dtcRaise mask code s).diag, evLog := (dtcRaise mask code s).evLog, nvm := (dtcRaise mask code s).nvm } := by
  unfold dtcRaise
  dsimp only
  split
  · exact dtcStore_keeps mask code s
  · rw [dtcStore_keeps]

theorem dtc_keeps (code : Nat) (s : State) :
    dtc code s = { s with diag := (dtc code s).diag, evLog := (dtc code s).evLog, nvm := (dtc code s).nvm } :=
  dtcRaise_keeps _ code s

theorem dtcLf_keeps (code : Nat) (s : State) :
    dtcLf code s = { s with diag := (dtcLf code s).diag, evLog := (dtcLf code s).evLog, nvm := (dtcLf code s).nvm } :=
  dtcRaise_keeps _ code s

/-- Zeroing the outputs of operations changes the window alone. -/
theorem zeroOut_foldl_keeps : ∀ (l : List Op) (s : State),
    l.foldl (fun s o => zeroOut o s) s = { s with win := (l.foldl (fun s o => zeroOut o s) s).win }
  | [], _ => rfl
  | o :: l, s => by
    rw [List.foldl_cons, zeroOut_foldl_keeps l, zeroOut_keeps]

theorem endOps_keeps (p : Op → Bool) (st : Status) (s : State) :
    endOps p st s = { s with job := (endOps p st s).job, win := (endOps p st s).win } := by
  unfold endOps
  simp only
  rw [zeroOut_foldl_keeps]

/-- What a grant decision does to the latch: nothing while it is barred, permit otherwise (R35, R81). -/
theorem latchGrant_latch (s : State) : (latchGrant s).permit.latch = (s.permit.latch || !grantBarred s) := by
  unfold latchGrant
  cases h : grantBarred s <;> simp

/-- A VBAT reading changes the supply block, the permit block, the re-grant's eligibility and the events to deliver. -/
theorem seeVbat_keeps (mv : Nat) (s : State) :
    seeVbat mv s = { s with sup := (seeVbat mv s).sup, permit := (seeVbat mv s).permit, acc := (seeVbat mv s).acc,
                            evLog := (seeVbat mv s).evLog } := by
  unfold seeVbat
  (repeat' split) <;> rfl

/-- A VBAT reading never moves the latch to permit (R81). -/
theorem seeVbat_latch (mv : Nat) (s : State) (h : (seeVbat mv s).permit.latch = true) : s.permit.latch = true := by
  unfold seeVbat at h
  split at h
  · split at h
    · exact h
    · exact absurd h (by simp [latchDeny])
  · exact h

/-- A reset leaves the part at the first step of start-up, with the permit in deny (R34, R146). -/
theorem resetTo_state (k : ResetKind) (s : State) : (resetTo k s).pwr.st = .startUp ∧ (resetTo k s).boot.step = 1
    ∧ (resetTo k s).permit.latch = false ∧ (resetTo k s).elapsed = s.elapsed ∧ (resetTo k s).pending = s.pending
    ∧ (resetTo k s).flash = s.flash := ⟨rfl, rfl, rfl, rfl, rfl, rfl⟩

end Sys2Proof.Machine
end

