-- ==== Sys2Proof/Tests/Slice0.lean ====
section
/-! SUPPORT. Tests: the well-formedness checks, known answers, single steps, and for each statement that has hypotheses one theorem
with a state and operands that meet them, clause by clause. -/

set_option Elab.async false

open Sys2Proof Sys2Proof.Machine

namespace Sys2Proof.Tests

/-! ### States -/

/-- A part in Run after its start-up, on built-in defaults. -/
def runS : State :=
  { State.reset with
    pwr.st := .run, boot.ready := true, boot.rngReady := true, boot.nvmReady := true, boot.step := 15, boot.src := 3,
    sup.measured := true, sup.tHoldNs := 1000000, sup.vholdCap := 75, rng.seeded := true, rng.sourceOn := true, clk.xo40 := true,
    tt.exec := true, elapsed := 1000000000, xo := 1000000000 }

/-- The same with the generator's queue holding words. -/
def rngS : State := { runS with rng.queue := [1, 2, 3, 4, 5, 6, 7, 8, 9, 10] }

/-- The part in Heath. -/
def heathS : State := { runS with pwr.st := .heath }

/-- A one-shot entry of a kind, owned by a job. -/
def jobEntry (kind : Nat) : Entry := { entryOf [] with kind := kind, owner := .job 5 }

/-- A state with entry 0. -/
def withEntry (e : Entry) (s : State) : State := ttPut 0 (some e) s

/-- A POLICY section: sleep after 5 s, Fallow after 1 min of Heath, every wake source enabled. -/
def policyB : Bytes := [0, 0, 0, 0, 5, 0, 1, 0, 0xFF, 0xFF, 0xFF, 0xFF, 0, 1] ++ List.replicate 50 0

/-- A part in Run with that policy, long after its last activity. -/
def polS : State := { runS with set.policy := policyB, elapsed := 10000000000000 }

/-- A TIME section: domain 0 on P0 as slave with a stored link delay, no redundant domain, LOG_SYNC −3. -/
def timeB : Bytes :=
  [0, 255, 1, 0, 0, 255, 0, 0, 0xFD, 0, 3, 1, 16, 0, 1, 0, 100, 0, 100, 0, 10, 0, 50, 0, 0x20, 0xA1, 7, 0, 10, 0, 0, 0] ++ List.replicate 96 0

/-- A LOCKED, selected primary domain on a port that is up. -/
def timeS : State :=
  { runS with
    set.time := timeB, sw.ports := vmod runS.sw.ports 0 (fun p => { p with rate := 3 }),
    clk.pri := { Domain.reset with st := .locked }, clk.sel := some .pri, clk.mode := .following }

/-- An ANTENNA section that maps channel 0: carrier 125 kHz, VDRV 12.0 V, a ping set, no scan. -/
def antB : Bytes :=
  [1, 0, 120, 0] ++ ([0, 0, 0xD0, 7] ++ List.replicate 76 0) ++ [0xD4, 0x30, 1, 0, 0, 0, 0, 0] ++ [0, 8, 100, 0, 32, 0, 4, 3] ++ List.replicate 16 0

/-- A downlink frame that names no channel: TYPE 2, no reply. -/
def frB : Bytes := [2, 255, 100, 0, 2, 0, 0, 0, 0, 0, 0, 0, 0xAA, 0x55, 0, 0]

/-- A tuned channel 0 with VDRV in its window. -/
def lfS : State :=
  { runS with
    set.antenna := antB, sup.vdrvOn := true, sup.vdrvSet := 120, sup.vdrvMeas := 120,
    lf.ch := vmod runS.lf.ch 0 (fun c => { c with st := 1, zmag := 5000000, rloop := 4000000 }) }

/-- Channel 0 driven. -/
def drv0 (s : State) : State := { s with lf.ch := vmod s.lf.ch 0 (fun c => { c with mode := .drive }) }

/-- An entry of the settings. -/
def setEntry (kind : Nat) : Entry := { entryOf [] with kind := kind, periodic := true, run := true, period := 100000 }

/-- KEYLINK with one wake frame, RADIO with one window plan and one telegram block in band B1, both transceivers fitted. -/
def klB : Bytes := [64, 0, 8, 1, 8, 0, 16, 0, 1, 255, 100, 0, 3, 0, 0, 0, 0, 0, 0, 0, 1, 2, 3, 0]
def raB : Bytes :=
  [0x0F, 0x0F, 2, 1, 0, 1, 0, 0] ++ List.replicate 8 0 ++ leBytes 4 433920000 ++ List.replicate 28 0 ++ [52, 0, 32, 0]
    ++ leBytes 4 433920000 ++ List.replicate 28 0

/-- A profile with entry and start, backup off, one key at a time, WAKE0 the start button. -/
def profB : Bytes :=
  [1, 3, 0, 0, 0, 0, 255, 1, 0, 0, 0, 0, 10, 0, 0, 0] ++ [1, 0, 255, 0, 0, 0, 0, 0] ++ List.replicate 80 0

/-- A part with that profile, ready for a passive start. -/
def accS : State :=
  { rngS with boot.src := 0, set.keylink := klB, set.radio := raB, set.zones := [1] ++ List.replicate 63 1, acc.profile := profB }

/-- A start sequence whose fusion is due. -/
def fuseQ : Seqn :=
  { Seqn.fresh 2 0 0 with
    stage := .fuse, cred := some 3, served := [7], fix := some (.ok, List.replicate 32 0 ++ [0x80, 0]),
    range := some (.ok, List.replicate 10 0 ++ [3, 0]) }

/-- A descriptor with SEQ_NO 1 and SRC 0x100. -/
def dsc (kind slot srcLen dst dstLen : Nat) (p : Bytes) : Bytes :=
  [BitVec.ofNat 8 kind, 0, BitVec.ofNat 8 slot, 0, 1, 0, 0, 0, 0, 1, 0, 0] ++ leBytes 4 srcLen ++ leBytes 4 dst ++ leBytes 4 dstLen
    ++ List.replicate 8 0 ++ padTo 32 p

/-- The operation of tag 5, fetched from ring 0 by CPG0. -/
def opOf (d : Bytes) : Op :=
  { tag := 5, ring := 0, page := 0, desc := d, cls := 2, blocks := 0, suspended := false, wasSuspended := false, key := none,
    order := 0, corrected := false, written := 0, result := none }

/-- A part in Run with one operation and random words at hand. -/
def jobS (d : Bytes) : State := { rngS with job.ops := [opOf d] }

/-- Ring 0 enabled with 16 entries and one descriptor at offset 0x1000; completions at 0x2000. -/
def ringS : State :=
  { rngS with
    job.rings := vmod rngS.job.rings 0 (fun r => { r with depth := 1, en := true, dbase := 0x1000, cbase := 0x2000, pi := 1 }),
    win := memSetBytes 0 [] 0x1000 (dsc 2 0 0 0x3000 64 [0, 3]) }

/-- A slot 1 that encrypts for CPG0 with a 256-bit key, persistent root present. -/
def ksS (attr : BitVec 32) (s : State) : State :=
  { s with ks.slots := vset s.ks.slots 60 { Slot.empty with attr := attr, key := some 5 } }

/-- A part whose VHOLD holds 15 V. -/
def nvS (d : Bytes) : State := { jobS d with sup.vhold := 15000 }

/-- A job's entry bytes with NOW set at SRC, and its block at 0x140. -/
def entS (k kind unit ref : Nat) (blk : Bytes) : State :=
  let n := if k < 10 then 64 else 76
  let d := if k = 6 then 48 else if k = 7 then 276 else if k = 8 then 32 else 0
  { jobS (dsc k 0 n 0x3000 d []) with
    set.antenna := antB,
    win := memSetBytes 0 (memSetBytes 0 [] 0x100
      ([BitVec.ofNat 8 kind, 2, BitVec.ofNat 8 unit, 0] ++ leBytes 4 ref ++ List.replicate 24 0)) 0x140 blk }

/-- A frame-send entry that is due, and its frame queued on P0 in class 3. -/
def launchE : Entry := { jobEntry 10 with st := .preparing, ref := 0x80000000, block := [60, 0, 3, 0, 0, 0, 0, 0] ++ List.replicate 60 0 }
def launchS : State :=
  portMod 0 (fun p => { p with
    rate := 3
    queues := vset p.queues 3 [{ bytes := List.replicate 60 0, launch := some 0, entry := some 0, permit := false, late := false }] })
    (withEntry launchE runS)

/-- A wake frame and a scan block of one pattern, channel 0 undriven. -/
def wakeB : Bytes := [1, 255, 100, 0, 3, 0, 0, 0, 1, 0, 0, 0, 0, 0, 0, 0, 1, 2, 3]
def scanB : Bytes := [1, 16, 100, 0, 255, 255, 0, 0, 1, 0, 0, 0, 0, 0]

/-- A bulk job of two blocks with an urgent job beside it. -/
def yieldD : Bytes := dsc 1 60 32 0x3000 32 [0, 4, 1, 0, 0, 16, 2, 0]
def yieldS : State :=
  { ksS 0x100011B (jobS yieldD) with
    job.ops := [{ opOf yieldD with cls := 0 }, { opOf yieldD with tag := 6, page := 1, order := 1 }] }

/-- A valid copy of one byte. -/
def cpy (rid : Nat) : Copy := { rid := rid, seq := 7, wear := 0, sub := 0, frame := 0, data := [1], hdrOk := true, ok := true }

/-- A POLICY section whose sources all take one step from the first event. -/
def polT (step : Nat) : Bytes :=
  policyB.take 24 ++ (List.range 8).flatMap (fun _ => [BitVec.ofNat 8 (step + 8 * step), 0, 15, 0]) ++ List.replicate 8 0

/-- A NETWORK section like the defaults, with the address 02-00-00-00-00-01. -/
def netB : Bytes := defaultNetwork.take 14 ++ [2, 0, 0, 0, 0, 1] ++ defaultNetwork.drop 20

/-- A part with that section whose ports P2 to P5 and P8 are up. -/
def netS : State :=
  { rngS with
    set.network := netB
    sw.ports := [2, 3, 4, 5, 8].foldl (fun v p => vmod v p (fun x => { x with rate := 3 })) rngS.sw.ports }

/-- A frame of 64 bytes, untagged or with a VLAN tag. -/
def netFrame (da : Bytes) : Bytes :=
  let f := da ++ [2, 0, 0, 0, 0, 7, 0x12, 0x34] ++ List.replicate 46 0
  f ++ fcs f
def netFrameV (vid : Nat) (da : Bytes) : Bytes :=
  let f := da ++ [2, 0, 0, 0, 0, 7, 0x81, 0] ++ beBytes 2 vid ++ [0x12, 0x34] ++ List.replicate 42 0
  f ++ fcs f
def fr1 : Frame := { bytes := List.replicate 60 0, launch := none, entry := none, permit := false, late := false }

/-- Bytes put over others at an offset; a section with one flow that drops, and one with a gate list that closes every class of P3. -/
def putAt (o : Nat) (x b : Bytes) : Bytes := b.take o ++ x ++ b.drop (o + x.length)
def flowRec : Bytes := [4, 2, 2, 0, 0, 0, 0, 9, 0, 0, 0, 0]
def flowS : State := { netS with set.network := putAt 44 (leBytes 2 netB.length ++ [1, 0]) netB ++ flowRec }
def gateS : State :=
  { netS with
    set.network := putAt ((netDir netB 0).1 + 101) [0x10, 0, 0, 1, 0] (putAt 32 (leBytes 2 netB.length ++ [1, 0]) netB) ++ [0, 0xE8, 3, 0]
    sw.ports := vmod netS.sw.ports 3 (fun p => { p with queues := vset p.queues 2 [fr1] }) }

/-- CAN0 on, carrying UDS, with a token waiting. -/
def canS : State :=
  { netS with
    set.diag := defaultDiag.take 5 ++ [1] ++ defaultDiag.drop 6,
    can := vmod netS.can 0 (fun c => { c with on := true, token := some [7] }) }

/-- The interface at 10.0.0.2. -/
def ipS : State :=
  { netS with
    set.diag := [10, 0, 0, 2] ++ defaultDiag.drop 4
    flt.role := #v[0, 1, 2] }

/-- ASP messages to CPG1 under the key `aspK`, and a session with one waiting. -/
def msg0 : AspMsg := { bytes := [1, 2], srcMac := 0, srcIp := 0, srcPort := 0 }
def aspK : BitVec 128 := 0x000102030405060708090A0B0C0D0E0F
def msg1 (type : Nat) (body : Bytes) : AspMsg := { msg0 with bytes := msMake aspK 1 type 0 5 body }
def aspS (type : Nat) (body : Bytes) : State :=
  { rngS with
    flt.role := #v[0, 1, 2]
    pages := vmod rngS.pages 1 (fun p => { p with aspKey := some aspK, aspLast := 4, inQ := [msg1 type body] }) }
def openM : AspMsg := msg1 1 (List.replicate 16 0)
def openS : State :=
  { aspS 1 [] with
    pages := vmod rngS.pages 1 (fun p => { p with pairSlot := 60, inQ := [openM] })
    ks.slots := vset rngS.ks.slots 60 { Slot.empty with attr := 1, key := some (aspK.setWidth 256 <<< 128) } }
def grant1 (s : State) : State := { s with pages := vmod s.pages 1 (fun p => { p with len := 0x1000 }) }
def ring4 (s : State) : State := ringMod 4 (fun r => { r with depth := 1, en := true }) s
def full4 (s : State) : State := ringMod 4 (fun r => { r with depth := 1, en := true, pi := 16 }) s
def col4 (s : State) : State := ringMod 4 (fun r => { r with depth := 1, cqPi := 1 }) s
def sess9 (s : State) : State := { s with acc.sessOpen := true, acc.session := 9 }

/-- A RADIO section whose plan and telegram pass their content rules, a RANGING section, and a part holding both. -/
def prO (len win : Nat) : Bytes :=
  leBytes 4 433920000 ++ leBytes 4 20000 ++ leBytes 2 0 ++ leBytes 2 100 ++ [1, 0, 0, 8, 16, 0, 0, 0, 0, 0, 0, 0] ++ leBytes 4 win
    ++ [BitVec.ofNat 8 len, 0, 0, 0]
def raO : Bytes := [15, 15, 2, 1, 0, 1, 0, 0] ++ List.replicate 8 0 ++ prO 1 1000 ++ leBytes 2 52 ++ leBytes 2 33 ++ prO 1 0 ++ [7]
def rangO : Bytes :=
  leBytes 2 2402 ++ leBytes 2 2402 ++ List.replicate 5 0 ++ [8] ++ leBytes 2 200 ++ leBytes 2 100 ++ leBytes 2 100 ++ leBytes 2 100
    ++ leBytes 2 100 ++ List.replicate 28 0
def ovS (s : State) : State := { s with set.radio := raO, set.ranging := rangO }

/-- DoIP connections 0 and 1 active, the first in a session with CPG7 bound and every role (BLANK). -/
def udsS (session : Nat) : State :=
  { ipS with
    diag.conns := (vmod ipS.diag.conns 1 (fun x => { x with active := true })).set 0
      { Conn.reset with active := true, tester := 0x0E00, session := session, page := 7, roles := 0x1F } }
def dtcS : State := { udsS 3 with diag.dtcs := [{ code := 0xB77102, st := 0x2D, starts := 0 }, { code := 0xB77100, st := 0x24, starts := 0 }] }

/-- A key with exponent 1: a signature is the encoded message itself. -/
def oneM : Nat := 2 ^ 4096 - 1
def oneSig (m : Bytes) : Bytes := pssEncode (sha512 m) (List.replicate 64 0)
def certT : TesterCert :=
  { signed := [7], sig := oneSig [7], modulus := oneM, exponent := 1, notBefore := 0, notAfter := 1, derLen := 10 }
/-- A FIELD part with one anchor under that key. -/
def certS : State :=
  { udsS 3 with
    ks.fuses := 0x0F
    set.diag := [10, 0, 0, 2] ++ (defaultDiag.take 28).drop 4 ++ [1, 0, 0, 0] ++ defaultDiag.drop 32 ++ leBytes 4 1
      ++ List.replicate 512 0xFF ++ [0x1F, 0, 0, 0] }
def proofS : State :=
  { udsS 3 with
    ks.fuses := 0x0F
    diag.conns := vmod (udsS 3).diag.conns 0 (fun x => { x with auth := some ([7], oneM, 1, 3, true) }) }

/-- A FIELD part with CPG6 bound to connection 0 and every role, and a profile with a start coil. -/
def fieldS : State :=
  let s := udsS 3
  { s with
    ks.fuses := 0x0F, sup.vhold := 15000, set.antenna := antB, acc.profile := profB.set 6 0
    diag.conns := vmod s.diag.conns 0 (fun x => { x with page := 6, roles := 0x0F }) }
def factS : State := { udsS 3 with ks.fuses := 0x03, sup.vhold := 15000 }
def blankS : State := { udsS 3 with sup.vhold := 15000 }
def spareS : State := { ipS with flt.spare := true }
/-- A profile record that passes its ranges. -/
def profV : Bytes :=
  [1, 3, 1, 0, 0, 0, 255, 1] ++ leBytes 2 100 ++ [0, 0, 10, 0, 10, 0] ++ List.replicate 64 0 ++ [4] ++ List.replicate 23 0
/-- A routine of connection 1 that runs, and a connection without a page. -/
def runR : Routine := { rid := 0xF160, conn := 1, running := true, status := .ok, result := [], opt := [], step := 1 }
def noPageS : State := { udsS 3 with diag.conns := vmod (udsS 3).diag.conns 0 (fun x => { x with page := 0 }) }
/-- A part in RETN. -/
def retnS : State := { fieldS with ks.fuses := 0x3F }

/-- What surrounds a start-up, a wake, an LF frame, a pattern and a ranging exchange where nothing goes wrong. -/
def envStartEnv : StartEnv :=
  { vbatMv := 12000, vholdMv := 15000, pairOk0 := true, pairOk1 := true, pairOk2 := true, seedFails := 0, pufFails := 0,
    flashAnswers := true, badReads := [], rtcRunning := true, tj := 25, tuning := [], pinActive := 0 }
def envWakeEnv : WakeEnv := { pufFails := 0, vbatMv := 12000, tj := 25 }
def envLfFrameEnv : LfFrameEnv := { units := [], sat := 0, limited := false }
def envPatternEnv : PatternEnv := { sat := 0, limited := false }
def envRangingEnv : RangingEnv :=
  { raA := none, raB := none, prA := none, prB := none, raSync := 0, prSync := 0, tRs := 0, tRa := 0, phaseA := [], phaseB := [],
    levelA := [], levelB := [] }

/-! ### Well-formed commands: one that each check refuses -/

def measure0 : LfMeasure :=
  { ch := 0, pins := .clean, highTrip := false, lowTrip := false, driveMa := 0, zRe := 0, zIm := 0, crossings := 0, fRes := 0, i0 := 0,
    iN := 0, periods := 0, couplings := [] }
def telegram (n : Nat) : RxTelegram := { preBits := 16, syncErrs := 0, lenByte := 0, rest := List.replicate n 0, syncTime := 0, rssi := 0, foff := 0 }
def chain0 : CrtKey := { p := 3, q := 5, dP := 1, dQ := 1, qInv := 2 }

theorem test_wf_startUp : Instr.wellFormed (.startUp { envStartEnv with tuning := [measure0, measure0] }) = false := by decide +kernel
theorem test_wf_startUp_good : Instr.wellFormed (.startUp { envStartEnv with tuning := [measure0] }) = true := by decide +kernel
theorem test_wf_rxWindow : Instr.wellFormed (.rxWindowComplete 0 [telegram 258] 0) = false := by decide +kernel
theorem test_wf_ranging : Instr.wellFormed (.rangingComplete 0 { envRangingEnv with phaseA := [1] }) = false := by decide +kernel
theorem test_wf_frame_short : Instr.wellFormed (.frameReceive 0 (List.replicate 63 0)) = false := by decide +kernel
theorem test_wf_can : Instr.wellFormed (.canFrameReceive 0 0 false (List.replicate 65 0)) = false := by decide +kernel
theorem test_wf_icmp : Instr.wellFormed (.icmpEchoRequest 0 0 0 0 0 (List.replicate 1473 0)) = false := by decide +kernel
theorem test_wf_spiWrite : Instr.wellFormed (.spiRegWrite 0 1 0 [1, 2] 0 true) = false := by decide +kernel
theorem test_wf_spiPut : Instr.wellFormed (.spiAspPut 0 1 0 [1, 2] 0 true) = false := by decide +kernel
theorem test_wf_did : Instr.wellFormed (.readDataByIdentifier 0 (List.replicate 2048 0)) = false := by decide +kernel
theorem test_wf_learn : Instr.wellFormed (.learnKey 0 (List.replicate 31 0) (List.replicate 16 0) 0) = false := by decide +kernel
theorem test_wf_profile : Instr.wellFormed (.writeProfile 0 (List.replicate 103 0)) = false := by decide +kernel
theorem test_wf_slot : Instr.wellFormed (.slotWrite 0 0 0 0 (List.replicate 33 0)) = false := by decide +kernel
theorem test_wf_tag : Instr.wellFormed (.tagWrite 0 0 2 (List.replicate 15 0)) = false := by decide +kernel
theorem test_wf_transfer : Instr.wellFormed (.transferData 0 1 (List.replicate 4094 0) true) = false := by decide +kernel
theorem test_wf_announce : Instr.wellFormed (.announceReceive .pri 0 0 (List.replicate 180 0)) = false := by decide +kernel
theorem test_wf_sync : Instr.wellFormed (.syncReceive .pri (2 ^ 80) 0) = false := by decide +kernel
theorem test_wf_aes : Instr.wellFormed (.aesBlockJob 0 4097) = false := by decide +kernel
theorem test_wf_aesResume : Instr.wellFormed (.aesJobResume 0 4097) = false := by decide +kernel

/-! ### The table gives no row any bits -/

theorem test_no_words : Sys2Proof.decodeTableWord 32 0xFFFFFFFF = none := by decide
theorem test_fetch_word : State.reset.withFetchWord 32 5 = State.reset := rfl

/-! ### Known answers -/

/-- "123456789". -/
def digits : Bytes := [0x31, 0x32, 0x33, 0x34, 0x35, 0x36, 0x37, 0x38, 0x39]
/-- The check value R516 states for the CRC-32. -/
theorem test_crc32_check : crc32 digits = 0xCBF43926 := by decide +kernel
/-- FIPS 197, appendix C.1. -/
theorem test_aes128 : aesBlock false 16 0x000102030405060708090a0b0c0d0e0f00000000000000000000000000000000
    0x00112233445566778899aabbccddeeff = 0x69c4e0d86a7b0430d8cdb78070b4c55a := by decide +kernel
/-- FIPS 197, appendix C.3, the inverse cipher. -/
theorem test_aes256_inverse : aesBlock true 32 0x000102030405060708090a0b0c0d0e0f101112131415161718191a1b1c1d1e1f
    0x8ea2b7ca516745bfeafc49904b496089 = 0x00112233445566778899aabbccddeeff := by decide +kernel
/-- RFC 4493, example 1. -/
theorem test_cmac_empty : cmac 16 (0x2b7e151628aed2a6abf7158809cf4f3c00000000000000000000000000000000) [] =
    0xbb1d6929e95937287fa37d129b756746 := by decide +kernel

/-! ### Single steps -/

def after (o : Host.Outcome State Fault Refusal) (p : State → Bool) : Bool :=
  match o with
  | .next t => p t
  | _ => false

/-- The tick of Run is 25 ns of the local clock (R156). -/
theorem test_tick_run : after (step runS) (fun t => t.clk.ns == 25 && t.elapsed == runS.elapsed + 1600 && t.clk.frac == 0) = true := by
  decide +kernel
/-- A command at the front leaves the rest of the queue. -/
theorem test_step_front : after (step { runS with pending := [.linkDown 0, .linkUp 0 3] })
    (fun t => t.pending == [.linkUp 0 3]) = true := by decide +kernel
/-- R51: 10 µs of NRST is a reset, 1.999 µs is none. -/
theorem test_nrst_long : after (exec (.nrstExternalLow 10000) runS) (fun t => t.pwr.st == .startUp && t.boot.kinds == [.hcr]) = true := by
  decide +kernel
theorem test_nrst_short : after (exec (.nrstExternalLow 1999) runS) (fun t => t.pwr.st == .run && t.boot.ready) = true := by
  decide +kernel
/-- R65: 45.001 V is beyond the absolute maximum. -/
theorem test_overstress : exec (.vbatPermitDeny 45001) runS = .fault .overstress := rfl
/-- R155: SYS_RESET_CMD without its key does nothing. -/
theorem test_reset_key : after (exec (.sysResetCmd 1 0x5EC60000) runS) (fun t => t.pwr.st == .run) = true := by decide +kernel

/-! ### The hypotheses of the statements about the whole machine are met -/

theorem test_witness_StepRunsFront :
    (∃ (c : Instr) (rest : List Instr) (s : State), s.pending = c :: rest) ∧ (∃ s : State, s.pending = []) :=
  ⟨⟨.linkUp 0 3, [], { runS with pending := [.linkUp 0 3] }, rfl⟩, ⟨runS, rfl⟩⟩
theorem test_witness_QueueAndFaults :
    (∃ (c : Instr) (_ : State), ∃ mv, vbatOf c = some mv ∧ 45000 < mv) ∧ (∃ (c : Instr) (_ : State), ∀ mv, vbatOf c = some mv → mv ≤ 45000) :=
  ⟨⟨.vbatPermitDeny 45001, runS, 45001, rfl, by decide⟩, ⟨.linkUp 0 3, runS, fun mv h => by cases h⟩⟩
theorem test_witness_PermitPinsFollowLatch : ∃ s t : State, step s = .next t := ⟨runS, _, rfl⟩
theorem test_witness_StepKeepsMemoryWf : ∃ s t : State, Memory.wf s = true ∧ step s = .next t :=
  ⟨{ runS with win := [(3, 7)] }, _, by decide +kernel, rfl⟩
/-- A session denied under V_PD whose re-grant is due (R82). -/
def regrantS : State :=
  { runS with
    flt.role := #v[0, 1, 2], permit.pdDenied := true, acc.eligible := true, acc.sessOpen := true, acc.issuedAt := runS.elapsed,
    acc.profile := profB }
theorem test_witness_PermitOnlyByGrant : ∃ s t : State, step s = .next t ∧ s.permit.latch = false ∧ t.permit.latch = true :=
  ⟨{ regrantS with pending := [.rideThroughExit 20000] },
   settle regrantS (vrtxRise { regrantS with sup.vbat := 20000, permit.pdBelow := false }), by
    refine ⟨?_, rfl, by decide +kernel⟩
    have h1 : Config.vRtx ≤ 20000 := by simp [Config.vRtx]; omega
    have h2 : ¬ 20000 < Config.vPd := by simp [Config.vPd]; omega
    have h3 : seeVbat 20000 regrantS = { regrantS with sup.vbat := 20000, permit.pdBelow := false } := by
      unfold seeVbat
      rw [if_neg h2, show isRun regrantS = true from rfl, Bool.true_or, Bool.and_true]
    show execRideThroughExit 20000 regrantS = _
    unfold execRideThroughExit
    rw [withVbat_eq _ _ (by decide), if_pos h1, h3]⟩
theorem test_witness_LockBitStays :
    (∃ (s t : State) (c : Instr), exec c s = .next t ∧ s.spi.lock = true) ∧ (∃ s t : State, s.pending = [] ∧ step s = .next t ∧ s.spi.lock = true)
    ∧ (∃ (s t : State) (page : Fin 8) (w : Word), pageLive s page.val = true ∧ exec (.sysLockSet page w) s = .next t) :=
  ⟨⟨{ runS with spi.lock := true }, _, .linkUp 0 3, rfl, rfl⟩, ⟨{ runS with spi.lock := true }, _, rfl, rfl, rfl⟩,
   ⟨{ runS with flt.role := #v[0, 1, 2] }, _, 1, 1, by decide +kernel, rfl⟩⟩

/-! ### The hypotheses of each statement are met -/

theorem test_witness_SupplyRegionEntries :
    (∃ (s : State) (mv : Nat), s.pwr.st = .run ∧ s.sup.region = .full ∧ mv < Config.vChe)
    ∧ (∃ (s : State) (mv : Nat), s.pwr.st = .run ∧ s.sup.region ≠ .ride ∧ mv < 3800)
    ∧ (∃ (s : State) (mv : Nat), s.pwr.st = .run ∧ s.sup.region ≠ .ride ∧ s.sup.measured = true ∧ mv < Config.vRte)
    ∧ (∃ (s : State) (mv : Nat), s.pwr.st = .run ∧ s.sup.region ≠ .ride ∧ s.sup.measured = false ∧ mv < Config.vRte)
    ∧ (∃ (s : State) (mv : Nat), ((s.pwr.st = .startUp ∧ s.boot.step ≠ 1) ∨ s.pwr.st = .waitNoPair) ∧ s.sup.measured = false ∧ mv < Config.vRte)
    ∧ (∃ (mv : Nat), mv < Config.vPd)
    ∧ (∃ (s : State) (mv : Nat), s.pwr.st ≠ .startUp ∧ s.pwr.st ≠ .waitNoPair ∧ s.sup.region ≠ .overvolt ∧ Config.vOve < mv ∧ mv ≤ 45000) :=
  ⟨⟨runS, 5000, by refine ⟨rfl, rfl, ?_⟩; simp [Config.vChe]; omega⟩,
   ⟨runS, 3799, by decide +kernel⟩,
   ⟨runS, 2000, by refine ⟨rfl, by decide, rfl, ?_⟩; simp [Config.vRte]; omega⟩,
   ⟨{ runS with sup.measured := false }, 2000, by refine ⟨rfl, by decide, rfl, ?_⟩; simp [Config.vRte]; omega⟩,
   ⟨{ runS with sup.measured := false, pwr.st := .waitNoPair }, 2000, by refine ⟨.inr rfl, rfl, ?_⟩; simp [Config.vRte]; omega⟩,
   ⟨2399, by simp [Config.vPd]; omega⟩,
   ⟨runS, 42001, by refine ⟨by decide, by decide, by decide, ?_, by decide⟩; simp [Config.vOve]; omega⟩⟩

theorem test_witness_SupplyRegionExits :
    (∃ (s : State) (mv : Nat), s.pwr.st = .run ∧ s.sup.region = .crank ∧ Config.vChx ≤ mv ∧ mv ≤ 45000)
    ∧ (∃ (s : State) (mv : Nat), s.pwr.st = .run ∧ s.sup.region = .ride ∧ Config.vRtx ≤ mv ∧ mv ≤ 45000)
    ∧ (∃ (s : State) (mv : Nat), s.pwr.st = .run ∧ s.sup.region = .ride ∧ Config.vRtx ≤ mv ∧ mv ≤ 45000 ∧ s.permit.pdDenied = true ∧ s.acc.eligible = true ∧ s.acc.sessOpen = true ∧ s.tmp.latch = false ∧ hasRole s 0 = true ∧ s.elapsed ≤ s.acc.issuedAt + tMs 200)
    ∧ (∃ (s : State) (x : Nat), s.pwr.st = .run ∧ s.sup.region = .ride ∧ s.sup.rideUntil = some x ∧ x ≤ s.elapsed)
    ∧ (∃ (vhold : Nat), vhold < Config.vHmin)
    ∧ (∃ (s : State) (mv : Nat), s.sup.region = .overvolt ∧ mv < Config.vOvx)
    ∧ (∃ (s : State) (mv : Nat), (s.pwr.st = .heath ∨ s.pwr.st = .fallow) ∧ mv < Config.vRte ∧ s.sup.measured = true)
    ∧ (∃ (s : State) (mv : Nat), (s.pwr.st = .heath ∨ s.pwr.st = .fallow) ∧ mv < Config.vRte ∧ s.sup.measured = false)
    ∧ (∃ (s : State) (mv : Nat) (vhold : Nat), s.sup.region ≠ .ride ∧ Config.vRtx ≤ mv ∧ mv ≤ 45000 ∧ 14500 ≤ vhold) :=
  ⟨⟨{ runS with sup.region := .crank }, 6301, by refine ⟨rfl, rfl, ?_, by decide⟩; simp [Config.vChx]; omega⟩,
   ⟨{ runS with sup.region := .ride }, 3301, by refine ⟨rfl, rfl, ?_, by decide⟩; simp [Config.vRtx]; omega⟩,
   ⟨{ runS with sup.region := .ride, permit.pdDenied := true, acc.eligible := true, acc.sessOpen := true, acc.issuedAt := 1000000000 }, 3301, by refine ⟨rfl, rfl, ?_, by decide, rfl, rfl, rfl, rfl, by decide, by decide⟩; simp [Config.vRtx]; omega⟩,
   ⟨{ runS with sup.region := .ride, sup.rideUntil := some 1000000000 }, 1000000000, by decide +kernel⟩,
   ⟨3899, by simp [Config.vHmin]; omega⟩,
   ⟨{ runS with sup.region := .overvolt }, 40000, by refine ⟨rfl, ?_⟩; simp [Config.vOvx]; omega⟩,
   ⟨heathS, 2000, by refine ⟨.inl rfl, ?_, rfl⟩; simp [Config.vRte]; omega⟩,
   ⟨{ heathS with sup.measured := false }, 2000, by refine ⟨.inl rfl, ?_, rfl⟩; simp [Config.vRte]; omega⟩,
   ⟨runS, 3301, 14500, by refine ⟨by decide, ?_, by decide, by decide⟩; simp [Config.vRtx]; omega⟩⟩

theorem test_witness_TemperatureResponses :
    (∃ (s : State) (tj : Int), 140 ≤ tj ∧ s.sup.thermWarn = false)
    ∧ (∃ (s : State) (tj : Int), 150 ≤ tj ∧ s.sup.thermDer = false)
    ∧ (∃ (s : State) (tj : Int), 165 ≤ tj ∧ s.sup.thermOff = false)
    ∧ (∃ (tj : Int), 175 ≤ tj)
    ∧ (∃ (s : State), (s.sup.thermOff = true ∨ s.sup.thermDer = true ∨ s.sup.thermWarn = true)) :=
  ⟨⟨runS, 140, by decide +kernel⟩,
   ⟨runS, 150, by decide +kernel⟩,
   ⟨runS, 165, by decide +kernel⟩,
   ⟨175, by decide +kernel⟩,
   ⟨{ runS with sup.thermWarn := true }, by exact .inr (.inr rfl)⟩⟩

theorem test_witness_VdrvAndPermitReadback :
    (∃ (s : State), lfDueSoon s = true ∧ s.sup.vdrvOn = false ∧ vdrvAllowed s = true)
    ∧ (∃ (s : State) (x : Nat), s.sup.vdrvStopAt = some x ∧ x ≤ s.elapsed ∧ lfDueSoon s = false ∧ lfActive s = false)
    ∧ (∃ (s : State) (i : Fin 256) (e : Entry) (x : Nat) (g : Nat), ttGet s i.val = some e ∧ e.st = .waiting ∧ e.isLf = true ∧ e.periodic = false ∧ e.owner = .job g ∧ e.holdUntil = some x ∧ x ≤ s.elapsed ∧ vdrvInWindow s = false)
    ∧ (∃ (s : State), s.pwr.st = .run) :=
  ⟨⟨withEntry (jobEntry 1) runS, by decide +kernel⟩,
   ⟨{ runS with sup.vdrvOn := true, sup.vdrvStopAt := some 5 }, 5, by decide +kernel⟩,
   ⟨withEntry { jobEntry 1 with st := .waiting, holdUntil := some 5 } runS, 0, { jobEntry 1 with st := .waiting, holdUntil := some 5 }, 5, 5, by decide +kernel⟩,
   ⟨runS, by decide +kernel⟩⟩

theorem test_witness_ResetCommands :
    (∃ (mv : Nat) (vhold : Nat), mv < 2000 ∧ vhold < 2000)
    ∧ (∃ (mv : Nat) (vhold : Nat), mv ≤ 45000 ∧ (2000 ≤ mv ∨ 2000 ≤ vhold))
    ∧ (∃ (s : State) (ns : Nat), nrstDriven s = false ∧ 10000 ≤ ns)
    ∧ (∃ (ns : Nat), ns < 2000)
    ∧ (∃ (s : State), nrstDriven s = true)
    ∧ (∃ (s : State) (ns : Nat), nrstDriven s = false ∧ 2000 ≤ ns ∧ ns < 10000)
    ∧ (∃ (s : State) (w : Word), ppbOn s = true ∧ w.toNat / 65536 = 0x5EC7)
    ∧ (∃ (page : Fin 8) (w : Word), (page ≠ 1 ∨ w.toNat / 65536 ≠ 0x5EC7))
    ∧ (∃ (s : State) (x : Nat), s.pwr.st = .waitNoPair ∧ s.boot.retryAt = some x ∧ x ≤ s.elapsed) :=
  ⟨⟨1999, 1999, by decide +kernel⟩,
   ⟨1999, 2000, by decide +kernel⟩,
   ⟨runS, 10000, by decide +kernel⟩,
   ⟨1999, by decide +kernel⟩,
   ⟨State.reset, by decide +kernel⟩,
   ⟨runS, 5000, by decide +kernel⟩,
   ⟨runS, 0x5EC70000, by decide +kernel⟩,
   ⟨2, 0x5EC70000, by decide +kernel⟩,
   ⟨{ runS with pwr.st := .waitNoPair, boot.retryAt := some 5 }, 5, by decide +kernel⟩⟩

theorem test_witness_StartUpOutcome_1 :
    (∃ (s : State) (env : StartEnv), s.pwr.st = .startUp ∧ s.boot.step = 1 ∧ env.vbatMv ≤ 45000 ∧ ((s.boot.kinds.any (fun k => k == .pon || k == .bor)) = true → Config.vRtx ≤ env.vbatMv) ∧ Config.vRte ≤ env.vbatMv ∧ (env.pairOk0 = true ∨ env.pairOk1 = true ∨ env.pairOk2 = true) ∧ env.pinActive = 0 ∧ s.tmp.captured = [] ∧ s.ks.journal = none ∧ s.permit.latch = false)
    ∧ (∃ (s : State) (env : StartEnv), s.pwr.st = .startUp ∧ s.boot.step = 1 ∧ env.vbatMv ≤ 45000 ∧ ((s.boot.kinds.any (fun k => k == .pon || k == .bor)) = true → Config.vRtx ≤ env.vbatMv) ∧ Config.vRte ≤ env.vbatMv ∧ (env.pairOk0 = true ∨ env.pairOk1 = true ∨ env.pairOk2 = true) ∧ s.ks.journal.isSome = true ∧ s.permit.latch = false)
    ∧ (∃ (s : State) (env : StartEnv), s.pwr.st = .startUp ∧ s.boot.step = 1 ∧ env.vbatMv ≤ 45000 ∧ ((s.boot.kinds.any (fun k => k == .pon || k == .bor)) = true → Config.vRtx ≤ env.vbatMv) ∧ Config.vRte ≤ env.vbatMv ∧ (env.pairOk0 = true ∨ env.pairOk1 = true ∨ env.pairOk2 = true) ∧ s.ks.journal = none ∧ s.permit.latch = false)
    ∧ (∃ (s : State) (env : StartEnv), s.pwr.st = .startUp ∧ s.boot.step = 1 ∧ env.vbatMv ≤ 45000 ∧ ((s.boot.kinds.any (fun k => k == .pon || k == .bor)) = true → Config.vRtx ≤ env.vbatMv) ∧ Config.vRte ≤ env.vbatMv ∧ env.pairOk0 = false ∧ env.pairOk1 = false ∧ env.pairOk2 = false)
    ∧ (∃ (s : State) (env : StartEnv), s.pwr.st = .startUp ∧ s.boot.step = 1 ∧ (s.boot.kinds.any (fun k => k == .pon || k == .bor)) = true ∧ env.vbatMv < Config.vRtx)
    ∧ (∃ (s : State) (env : StartEnv), s.pwr.st = .startUp ∧ s.boot.step = 1 ∧ (s.boot.kinds.any (fun k => k == .pon || k == .bor)) = false ∧ env.vbatMv < Config.vRte)
    ∧ (∃ (s : State), s.rng.seeded = false ∧ s.rng.latched = false ∧ s.rng.recovering = false ∧ (s.pwr.st = .run ∨ s.pwr.st = .startUp))
    ∧ (∃ (s : State) (ns : Nat) (c : Nat), measuring s = true ∧ c = (if s.sup.vbat ≥ Config.vChx then 40 else 16) * ns / 1000000) :=
  ⟨⟨State.reset, { vbatMv := 12000, vholdMv := 15000, pairOk0 := true, pairOk1 := true, pairOk2 := true, seedFails := 0, pufFails := 0, flashAnswers := true, badReads := [], rtcRunning := true, tj := 25, tuning := [], pinActive := 0 }, by refine ⟨rfl, rfl, by decide, fun _ => ?_, ?_, .inl rfl, rfl, rfl, rfl, rfl⟩ <;> simp [Config.vRtx, Config.vRte] <;> omega⟩,
   ⟨{ State.reset with ks.journal := some { from_ := .blank, to_ := .factory, step := 2 } }, { vbatMv := 12000, vholdMv := 15000, pairOk0 := true, pairOk1 := true, pairOk2 := true, seedFails := 0, pufFails := 0, flashAnswers := true, badReads := [], rtcRunning := true, tj := 25, tuning := [], pinActive := 0 }, by refine ⟨rfl, rfl, by decide, fun _ => ?_, ?_, .inl rfl, rfl, rfl⟩ <;> simp [Config.vRtx, Config.vRte] <;> omega⟩,
   ⟨State.reset, { vbatMv := 12000, vholdMv := 15000, pairOk0 := true, pairOk1 := true, pairOk2 := true, seedFails := 0, pufFails := 0, flashAnswers := true, badReads := [], rtcRunning := true, tj := 25, tuning := [], pinActive := 0 }, by refine ⟨rfl, rfl, by decide, fun _ => ?_, ?_, .inl rfl, rfl, rfl⟩ <;> simp [Config.vRtx, Config.vRte] <;> omega⟩,
   ⟨State.reset, { vbatMv := 12000, vholdMv := 15000, pairOk0 := false, pairOk1 := false, pairOk2 := false, seedFails := 0, pufFails := 0, flashAnswers := true, badReads := [], rtcRunning := true, tj := 25, tuning := [], pinActive := 0 }, by refine ⟨rfl, rfl, by decide, fun _ => ?_, ?_, rfl, rfl, rfl⟩ <;> simp [Config.vRtx, Config.vRte] <;> omega⟩,
   ⟨State.reset, { vbatMv := 2000, vholdMv := 15000, pairOk0 := true, pairOk1 := true, pairOk2 := true, seedFails := 0, pufFails := 0, flashAnswers := true, badReads := [], rtcRunning := true, tj := 25, tuning := [], pinActive := 0 }, by refine ⟨rfl, rfl, rfl, ?_⟩; simp [Config.vRtx]; omega⟩,
   ⟨{ State.reset with boot.kinds := [.wfr] }, { vbatMv := 2000, vholdMv := 15000, pairOk0 := true, pairOk1 := true, pairOk2 := true, seedFails := 0, pufFails := 0, flashAnswers := true, badReads := [], rtcRunning := true, tj := 25, tuning := [], pinActive := 0 }, by refine ⟨rfl, rfl, rfl, ?_⟩; simp [Config.vRte]; omega⟩,
   ⟨{ runS with rng.seeded := false }, by exact ⟨rfl, rfl, rfl, .inl rfl⟩⟩,
   ⟨{ runS with sup.measured := false, sup.measureUntil := some 5000000000000 }, 4000000, _, by exact ⟨rfl, rfl⟩⟩⟩

theorem test_witness_StartUpOutcome_2 :
    (∃ (s : State) (x : Nat), s.sup.measured = false ∧ s.sup.measureUntil = some x ∧ x ≤ s.elapsed)
    ∧ (∃ (s : State) (vhold : Nat) (r : BitVec 256) (n : Nat), s.boot.swNext = some n ∧ s.boot.nvmReady = true ∧ s.ks.root = some r ∧ 232 * n < s.boot.staged.length ∧ energyOk false (copyGroups 240) { s with sup.vhold := vhold } = false)
    ∧ (∃ (s : State) (vhold : Nat) (r : BitVec 256) (n : Nat), s.boot.swNext = some n ∧ s.boot.nvmReady = true ∧ s.ks.root = some r ∧ 232 * n < s.boot.staged.length ∧ energyOk false (copyGroups 240) { s with sup.vhold := vhold } = true)
    ∧ (∃ (s : State) (r : BitVec 256) (n : Nat), s.boot.swNext = some n ∧ s.boot.nvmReady = true ∧ s.ks.root = some r ∧ s.boot.staged.length ≤ 232 * n)
    ∧ (∃ (s : State), s.boot.nvmReady = false) :=
  ⟨⟨{ runS with sup.measured := false, sup.measureUntil := some 5 }, 5, by decide +kernel⟩,
   ⟨{ runS with boot.swNext := some 0, boot.staged := [1], ks.root := some 7 }, 0, 7, 0, by decide +kernel⟩,
   ⟨{ runS with boot.swNext := some 0, boot.staged := [1], ks.root := some 7 }, 15000, 7, 0, by decide +kernel⟩,
   ⟨{ runS with boot.swNext := some 1, boot.staged := [1], ks.root := some 7 }, 7, 1, by decide +kernel⟩,
   ⟨State.reset, by decide +kernel⟩⟩

theorem test_witness_PowerStateCommands_1 :
    (∃ (s : State) (key : BitVec 16), s.boot.ready = true ∧ s.pwr.st = .run ∧ s.sup.region ≠ .ride ∧ key = 0xA5C3)
    ∧ (∃ (s : State) (key : BitVec 16), s.boot.ready = true ∧ s.pwr.st = .run ∧ s.sup.region ≠ .ride ∧ key ≠ 0xA5C3)
    ∧ (∃ (s : State), s.boot.ready = false)
    ∧ (∃ (page : Fin 8), page ≠ 1)
    ∧ (∃ (s : State) (key : BitVec 16), s.boot.ready = true ∧ s.pwr.st = .run ∧ s.sup.region ≠ .ride ∧ key = 0xA5C3)
    ∧ (∃ (s : State) (key : BitVec 16), s.boot.ready = true ∧ s.pwr.st = .run ∧ s.sup.region ≠ .ride ∧ key ≠ 0xA5C3)
    ∧ (∃ (s : State), s.boot.ready = false)
    ∧ (∃ (page : Fin 8), page ≠ 1) :=
  ⟨⟨runS, 0xA5C3, by decide +kernel⟩,
   ⟨runS, 0, by decide +kernel⟩,
   ⟨State.reset, by decide +kernel⟩,
   ⟨2, by decide +kernel⟩,
   ⟨runS, 0xA5C3, by decide +kernel⟩,
   ⟨runS, 0, by decide +kernel⟩,
   ⟨State.reset, by decide +kernel⟩,
   ⟨2, by decide +kernel⟩⟩

theorem test_witness_PowerStateCommands_2 :
    (∃ (s : State) (key : BitVec 16), s.boot.ready = true ∧ s.pwr.st = .run ∧ s.sup.region ≠ .ride ∧ key = 0xA5C3)
    ∧ (∃ (s : State) (key : BitVec 16), s.boot.ready = true ∧ s.pwr.st = .run ∧ s.sup.region ≠ .ride ∧ key ≠ 0xA5C3)
    ∧ (∃ (s : State), s.boot.ready = false)
    ∧ (∃ (page : Fin 8), page ≠ 1)
    ∧ (∃ (s : State), s.pwr.st = .run ∧ poIdle (policySec s) ≠ 0 ∧ s.pwr.req = 0 ∧ s.acc.seqn = none ∧ s.acc.round = none ∧ s.pwr.idleSince + tS (poIdle (policySec s)) ≤ s.elapsed)
    ∧ (∃ (s : State), s.pwr.st = .run ∧ s.pwr.req = 1 ∧ held s = false)
    ∧ (∃ (s : State), s.pwr.st = .run ∧ s.pwr.req = 2 ∧ held s = false ∧ rebuildable s = true)
    ∧ (∃ (s : State), s.pwr.st = .run ∧ s.pwr.req = 2 ∧ held s = false ∧ rebuildable s = false) :=
  ⟨⟨runS, 0xA5C3, by decide +kernel⟩,
   ⟨runS, 0, by decide +kernel⟩,
   ⟨State.reset, by decide +kernel⟩,
   ⟨2, by decide +kernel⟩,
   ⟨polS, by decide +kernel⟩,
   ⟨{ runS with pwr.req := 1 }, by decide +kernel⟩,
   ⟨{ runS with pwr.req := 2 }, by decide +kernel⟩,
   ⟨{ runS with pwr.req := 2, boot.src := 0 }, by decide +kernel⟩⟩

theorem test_witness_PowerStateCommands_3 :
    (∃ (s : State), s.pwr.st = .heath ∧ poHeathFallow (policySec s) ≠ 0 ∧ s.pwr.debounce = [] ∧ s.pwr.heathSince + tS (60 * poHeathFallow (policySec s)) ≤ s.elapsed ∧ rebuildable s = true)
    ∧ (∃ (s : State), s.pwr.st = .heath ∧ poHeathFallow (policySec s) ≠ 0 ∧ s.pwr.debounce = [] ∧ s.pwr.heathSince + tS (60 * poHeathFallow (policySec s)) ≤ s.elapsed ∧ rebuildable s = false)
    ∧ (∃ (s : State) (pin : Fin 8) (rising : Bool) (env : WakeEnv), env.vbatMv ≤ 45000 ∧ (asleep s = true ∧ wakeEnabled s pin.val = true ∨ s.pwr.st = .run) ∧ rising = !(poWakeEdge (policySec s)).testBit pin.val ∧ s.pwr.debounce.any (fun d => d.1 = pin.val) = false)
    ∧ (∃ (s : State) (pin : Fin 8) (rising : Bool) (env : WakeEnv), env.vbatMv ≤ 45000 ∧ rising = (poWakeEdge (policySec s)).testBit pin.val)
    ∧ (∃ (s : State) (pin : Fin 8) (x : Nat) (f : Nat), s.pwr.st = .heath ∧ (s.pwr.debounce.find? (fun d => d.1 = pin.val)) = some (pin.val, x, f) ∧ x ≤ s.elapsed ∧ wakeEnabled s pin.val = true ∧ Config.vChe ≤ s.sup.vbat)
    ∧ (∃ (s : State) (pin : Fin 8) (x : Nat) (f : Nat), asleep s = true ∧ wakeEnabled s pin.val = true ∧ (s.pwr.debounce.find? (fun d => d.1 = pin.val)) = some (pin.val, x, f) ∧ x ≤ s.elapsed)
    ∧ (∃ (s : State) (env : WakeEnv), s.pwr.st = .fallow ∧ wakeEnabled s 11 = true ∧ s.sup.vbat < Config.vChx ∧ Config.vChx ≤ env.vbatMv ∧ env.vbatMv ≤ 45000 ∧ 2 ≤ s.boot.src)
    ∧ (∃ (s : State) (env : WakeEnv), s.pwr.st = .fallow ∧ wakeEnabled s 11 = true ∧ s.sup.vbat < Config.vChx ∧ Config.vChx ≤ env.vbatMv ∧ env.vbatMv ≤ 45000) :=
  ⟨⟨{ polS with pwr.st := .heath }, by decide +kernel⟩,
   ⟨{ polS with pwr.st := .heath, boot.src := 0 }, by decide +kernel⟩,
   ⟨runS, 2, true, { pufFails := 0, vbatMv := 12000, tj := 25 }, by refine ⟨by decide, .inr rfl, by decide, rfl⟩⟩,
   ⟨runS, 2, false, { pufFails := 0, vbatMv := 12000, tj := 25 }, by decide +kernel⟩,
   ⟨{ heathS with pwr.debounce := [(3, 5, 0)], set.policy := policyB }, 3, 5, 0, by refine ⟨rfl, rfl, by decide, by decide, ?_⟩; simp [Config.vChe, heathS, runS, State.reset, Supply.reset]; omega⟩,
   ⟨{ heathS with pwr.debounce := [(3, 5, 0)], set.policy := policyB }, 3, 5, 0, by decide +kernel⟩,
   ⟨{ runS with pwr.st := .fallow, sup.vbat := 0, set.policy := policyB }, { pufFails := 0, vbatMv := 12000, tj := 25 }, by refine ⟨rfl, by decide, ?_, ?_, by decide, by decide⟩ <;> simp [Config.vChx] <;> omega⟩,
   ⟨{ runS with pwr.st := .fallow, sup.vbat := 0, boot.src := 0, set.policy := policyB }, { pufFails := 0, vbatMv := 12000, tj := 25 }, by refine ⟨rfl, by decide, ?_, ?_, by decide⟩ <;> simp [Config.vChx] <;> omega⟩⟩

theorem test_witness_SyncAndServo :
    (∃ (s : State) (d : Dom), slaveOn s d = true ∧ portCapable s (tiSlave s d) = true)
    ∧ (∃ (s : State) (d : Dom) (origin : Nat) (corr : Int) (o : Int), slaveOn s d = true ∧ portCapable s (tiSlave s d) = true ∧ o = syncOffset s (tiSlave s d) origin corr ∧ s.clk.sel = some d ∧ (domGet s d).st = .locked ∧ o.natAbs ≤ tiStep s ∧ o.natAbs ≤ 4 * tiLock s ∧ (∀ h, (domGet s d).hist.head? = some h → (o - h).natAbs ≤ 200) ∧ (d = .red → revertDue s = false))
    ∧ (∃ (s : State) (d : Dom), (slaveOn s d = false ∨ portCapable s (tiSlave s d) = false)) :=
  ⟨⟨timeS, .pri, by decide +kernel⟩,
   ⟨timeS, .pri, 0, 0, 0, by refine ⟨by decide +kernel, by decide +kernel, by decide +kernel, rfl, rfl, by decide, by decide, ?_, ?_⟩ <;> simp [timeS, domGet, Domain.reset]⟩,
   ⟨runS, .pri, by decide +kernel⟩⟩

theorem test_witness_DomainsAndPorts_1 :
    (∃ (s : State) (d : Dom), slaveOn s d = true ∧ portCapable s (tiSlave s d) = true)
    ∧ (∃ (s : State) (d : Dom), (slaveOn s d = false ∨ portCapable s (tiSlave s d) = false))
    ∧ (∃ (s : State) (p : Fin 6) (t2 : Nat) (t3 : Nat) (c2 : Int) (c3 : Int) (t1 : Int) (x : PortTime) (delay : Int), linkOn s p.val = true ∧ bit (tiPdelayOff s) p.val = false ∧ x = vget s.clk.ports p.val PortTime.reset ∧ x.t1 = some t1 ∧ x.prev = none ∧ delay = ((ingressNs s p.val - t1) * x.ratio / 65536 - (peerTime t3 c3 - peerTime t2 c2)) / 131072)
    ∧ (∃ (s : State) (p : Fin 6) (t3 : Nat) (c3 : Int) (a : Int) (t1 : Int) (b : Int) (x : PortTime), linkOn s p.val = true ∧ bit (tiPdelayOff s) p.val = false ∧ x = vget s.clk.ports p.val PortTime.reset ∧ x.t1 = some t1 ∧ x.prev = some (a, b) ∧ a < peerTime t3 c3 ∧ b < ingressNs s p.val)
    ∧ (∃ (s : State) (p : Fin 6), linkOn s p.val = true ∧ bit (tiPdelayOff s) p.val = false)
    ∧ (∃ (s : State) (p : Fin 8) (inst : Bool) (dom : BitVec 8), linkOn s p.val = true ∧ (inst = false ∨ dom = 0))
    ∧ (∃ (s : State) (p : Fin 8) (inst : Bool) (dom : BitVec 8), (linkOn s p.val = false ∨ (inst = true ∧ dom ≠ 0)))
    ∧ (∃ (s : State) (p : Fin 6), (linkOn s p.val = false ∨ bit (tiPdelayOff s) p.val = true)) :=
  ⟨⟨timeS, .pri, by decide +kernel⟩,
   ⟨runS, .pri, by decide +kernel⟩,
   ⟨{ timeS with set.time := [], clk.ports := vmod timeS.clk.ports 0 (fun x => { x with t1 := some 100 }) }, 0, 200, 300, 0, 0, 100, _, _, by exact ⟨by decide +kernel, by decide +kernel, rfl, by decide +kernel, by decide +kernel, rfl⟩⟩,
   ⟨{ timeS with set.time := [], clk.ports := vmod timeS.clk.ports 0 (fun x => { x with t1 := some 100, prev := some (1, -1000) }) }, 0, 300, 0, 1, 100, -1000, vget ({ timeS with set.time := [], clk.ports := vmod timeS.clk.ports 0 (fun x => { x with t1 := some 100, prev := some (1, -1000) }) }).clk.ports 0 PortTime.reset, by exact ⟨by decide +kernel, by decide +kernel, rfl, by decide +kernel, by decide +kernel, by decide, by decide +kernel⟩⟩,
   ⟨{ timeS with set.time := [] }, 0, by decide +kernel⟩,
   ⟨timeS, 0, true, 0, by decide +kernel⟩,
   ⟨timeS, 6, false, 0, by decide +kernel⟩,
   ⟨runS, 0, by decide +kernel⟩⟩

theorem test_witness_DomainsAndPorts_2 :
    (∃ (s : State) (p : Fin 6), (linkOn s p.val = false ∨ bit (tiPdelayOff s) p.val = true))
    ∧ (∃ (s : State) (d : Dom), domLive s d = true ∧ (domGet s d).st ≠ .rerouted ∧ (domGet s d).syncAt + tiTimeout s * syncTicks s ≤ s.elapsed)
    ∧ (∃ (s : State) (d : Dom) (x : Nat), (domGet s d).st = .suspect ∧ (domGet s d).noVerdict = true ∧ (domGet s d).suspectUntil = some x ∧ x ≤ s.elapsed)
    ∧ (∃ (s : State) (d : Dom), masterPorts s d ≠ [] ∧ tiRole s d = 2)
    ∧ (∃ (s : State) (d : Dom) (o : Nat) (c : Int) (a : Int), masterPorts s d ≠ [] ∧ tiRole s d ≠ 2 ∧ (domGet s d).last = some (o, c, a))
    ∧ (∃ (s : State) (d : Dom), masterPorts s d = [])
    ∧ (∃ (s : State) (d : Dom), masterPorts s d = [])
    ∧ (∃ (s : State) (d : Dom), masterPorts s d ≠ [] ∧ tiRole s d = 2) :=
  ⟨⟨runS, 0, by decide +kernel⟩,
   ⟨{ timeS with elapsed := 1000000000000 }, .pri, by decide +kernel⟩,
   ⟨{ timeS with clk.pri := { Domain.reset with st := .suspect, noVerdict := true, suspectUntil := some 5 } }, .pri, 5, by decide +kernel⟩,
   ⟨{ timeS with set.time := [0, 255, 2, 0, 255, 255, 1, 0, 0xFD, 0, 3, 1] ++ List.replicate 116 0, clk.ports := vmod timeS.clk.ports 0 (fun x => { x with capable := true }) }, .pri, by decide +kernel⟩,
   ⟨{ timeS with set.time := [0, 255, 1, 0, 1, 255, 1, 0, 0xFD, 0, 3, 1] ++ List.replicate 116 0, clk.ports := vmod timeS.clk.ports 0 (fun x => { x with capable := true }), clk.pri := { Domain.reset with st := .locked, gmSeen := true, last := some (5, 0, 0) } }, .pri, 5, 0, 0, by decide +kernel⟩,
   ⟨runS, .pri, by decide +kernel⟩,
   ⟨runS, .pri, by decide +kernel⟩,
   ⟨{ timeS with set.time := [0, 255, 2, 0, 255, 255, 1, 0, 0xFD, 0, 3, 1] ++ List.replicate 116 0, clk.ports := vmod timeS.clk.ports 0 (fun x => { x with capable := true }) }, .pri, by decide +kernel⟩⟩

theorem test_witness_DomainsAndPorts_3 :
    ∃ (s : State) (d : Dom), masterPorts s d ≠ [] ∧ tiRole s d ≠ 2 ∧ (domGet s d).gmSeen = true :=
  ⟨{ timeS with set.time := [0, 255, 1, 0, 1, 255, 1, 0, 0xFD, 0, 3, 1] ++ List.replicate 116 0, clk.ports := vmod timeS.clk.ports 0 (fun x => { x with capable := true }), clk.pri := { Domain.reset with st := .locked, gmSeen := true, last := some (5, 0, 0) } }, .pri, by decide +kernel⟩

theorem test_witness_ClockRegisters :
    (∃ (s : State) (tc : Int) (sum : Int) (since : Nat) (n : Nat), s.clk.learning = some (tc, since, sum, n) ∧ selLocked s = true ∧ -40 ≤ tc ∧ tc ≤ 150 ∧ n ≠ 0 ∧ since + tS 10 ≤ s.elapsed)
    ∧ (∃ (s : State) (c : Nat), s.pwr.st = .heath ∧ s.clk.rtcRunning = true ∧ s.clk.trimCycles + c < 4000000)
    ∧ (∃ (s : State) (c : Nat) (k : Nat), s.pwr.st = .heath ∧ s.clk.rtcRunning = true ∧ 4000000 ≤ s.clk.trimCycles + c ∧ 0 < s.clk.trimTicks + k)
    ∧ (∃ (s : State) (n : Fin 4) (w : Word), s.boot.ready = true ∧ s.pwr.st = .run ∧ s.sup.region ≠ .ride ∧ (tpoGet s n.val).en = false ∧ 0 < s48 (tpoGet s n.val).target (now48 s) ∧ s48 (tpoGet s n.val).target (now48 s) ≤ 2 ^ 46 ∧ (w.getLsbD 1 = false ∨ 8 * (w.toNat / 256) < (tpoGet s n.val).period) ∧ tpoNamed s n.val = false)
    ∧ (∃ (s : State) (n : Fin 4) (w : Word), s.boot.ready = true ∧ s.pwr.st = .run ∧ s.sup.region ≠ .ride ∧ (tpoGet s n.val).en = false ∧ tpoArms s n.val { tpoGet s n.val with periodic := w.getLsbD 1, width := w.toNat / 256 } = false)
    ∧ (∃ (page : Fin 8), page ≠ 1)
    ∧ (∃ (s : State) (n : Fin 4), (tpoGet s n.val).en = true ∧ swOn s = true ∧ s48 (tpoGet s n.val).target (now48 s) ≤ 0)
    ∧ (∃ (s : State) (n : Fin 4) (x : Nat), (tpoGet s n.val).activeUntil = some x ∧ x ≤ s.elapsed)
    ∧ (∃ (s : State), s.boot.ready = true ∧ s.pwr.st = .run ∧ s.sup.region ≠ .ride) :=
  ⟨⟨{ timeS with elapsed := 1000000000000, clk.learning := some (25, 0, 30, 3) }, 25, 30, 0, 3, by decide +kernel⟩,
   ⟨{ heathS with clk.rtcRunning := true }, 100, by decide +kernel⟩,
   ⟨{ heathS with clk.rtcRunning := true }, 4000000, 3277, by decide +kernel⟩,
   ⟨{ runS with clk.tpo := vmod runS.clk.tpo 0 (fun x => { x with target := 5000 }) }, 0, 0x501, by decide +kernel⟩,
   ⟨runS, 0, 0x501, by decide +kernel⟩,
   ⟨2, by decide +kernel⟩,
   ⟨{ runS with clk.tpo := vmod runS.clk.tpo 0 (fun x => { x with en := true }) }, 0, by decide +kernel⟩,
   ⟨{ runS with clk.tpo := vmod runS.clk.tpo 0 (fun x => { x with activeUntil := some 5 }) }, 0, 5, by decide +kernel⟩,
   ⟨runS, by decide +kernel⟩⟩

theorem test_witness_EntryDueStarts :
    (∃ (s : State) (i : Fin 256) (e : Entry), entryDueNow s i.val e = true ∧ entryFree s i.val e = true ∧ e.kind = 1 ∧ vdrvInWindow s = true ∧ frameDrives s e = true)
    ∧ (∃ (s : State) (i : Fin 256) (e : Entry), entryDueNow s i.val e = true ∧ entryFree s i.val e = true ∧ e.kind = 2 ∧ vdrvInWindow s = true ∧ nothingMapped s = false ∧ (pingDrive s e).kept ≠ [])
    ∧ (∃ (s : State) (i : Fin 256) (e : Entry), entryDueNow s i.val e = true ∧ entryFree s i.val e = true ∧ e.kind = 3 ∧ vdrvInWindow s = true ∧ nothingMapped s = false ∧ (scanNamed (scanBlock s e) = [] ∨ (scanNamed (scanBlock s e)).any (fun w => chInService s w.ch) = true))
    ∧ (∃ (s : State) (i : Fin 256) (e : Entry), entryDueNow s i.val e = true ∧ entryFree s i.val e = true ∧ e.kind = 4 ∧ e.st = .preparing)
    ∧ (∃ (s : State) (i : Fin 256) (e : Entry), entryDueNow s i.val e = true ∧ entryFree s i.val e = true ∧ e.kind = 5 ∧ e.st = .preparing)
    ∧ (∃ (s : State) (i : Fin 256) (e : Entry), entryDueNow s i.val e = true ∧ entryFree s i.val e = true ∧ e.kind = 6 ∧ e.st = .preparing ∧ b4Both s = true ∧ rangingSec s ≠ [])
    ∧ (∃ (s : State) (i : Fin 256) (e : Entry), entryDueNow s i.val e = true ∧ entryFree s i.val e = true ∧ e.kind = 7)
    ∧ (∃ (s : State) (i : Fin 256) (e : Entry), entryDueNow s i.val e = true ∧ entryFree s i.val e = true ∧ e.kind = 8 ∧ e.owner = .settings)
    ∧ (∃ (s : State) (i : Fin 256) (e : Entry), entryDueNow s i.val e = true ∧ entryFree s i.val e = true ∧ e.kind = 9) :=
  ⟨⟨withEntry { jobEntry 1 with block := frB } lfS, 0, { jobEntry 1 with block := frB }, by decide +kernel⟩,
   ⟨withEntry (setEntry 2) lfS, 0, setEntry 2, by decide +kernel⟩,
   ⟨withEntry { jobEntry 3 with block := [0,0,0,0,0xFF,0xFF,0,0] } lfS, 0, { jobEntry 3 with block := [0,0,0,0,0xFF,0xFF,0,0] }, by exact ⟨by decide +kernel, by decide +kernel, rfl, by decide +kernel, by decide +kernel, .inl (by decide +kernel)⟩⟩,
   ⟨withEntry { jobEntry 4 with st := .preparing } runS, 0, { jobEntry 4 with st := .preparing }, by decide +kernel⟩,
   ⟨withEntry { jobEntry 5 with st := .preparing } runS, 0, { jobEntry 5 with st := .preparing }, by decide +kernel⟩,
   ⟨withEntry { jobEntry 6 with st := .preparing } { runS with set.radio := [8, 8] ++ List.replicate 14 0, set.ranging := List.replicate 40 0 }, 0, { jobEntry 6 with st := .preparing }, by decide +kernel⟩,
   ⟨withEntry (setEntry 7) runS, 0, setEntry 7, by decide +kernel⟩,
   ⟨withEntry { setEntry 8 with ref := 2, unit := 4 } runS, 0, { setEntry 8 with ref := 2, unit := 4 }, by decide +kernel⟩,
   ⟨withEntry { setEntry 9 with ref := 125 } runS, 0, { setEntry 9 with ref := 125 }, by decide +kernel⟩⟩

theorem test_witness_EntryPreparesWaitsAndResumes_1 :
    (∃ (s : State) (i : Fin 256) (e : Entry), ttGet s i.val = some e ∧ mayPrepare s i.val e = true ∧ e.kind ≤ 9)
    ∧ (∃ (s : State) (i : Fin 256) (e : Entry), ttGet s i.val = some e ∧ mayPrepare s i.val e = true ∧ e.kind = 10)
    ∧ (∃ (s : State) (i : Fin 256) (e : Entry), entryDueNow s i.val e = true ∧ skipStatus s e = none ∧ (busy s i.val e = true ∨ keptBack s i.val e = true ∨ seqBlocks s e = true) ∧ e.st = .pending)
    ∧ (∃ (s : State) (i : Fin 256) (e : Entry) (st : Status) (g : Nat), entryDueNow s i.val e = true ∧ skipStatus s e = some st ∧ e.owner = .job g ∧ e.periodic = false ∧ e.kind ≠ 10)
    ∧ (∃ (s : State) (i : Fin 256) (e : Entry), ttGet s i.val = some e ∧ e.st = .waiting ∧ e.excluded s = false ∧ entryFree s i.val e = true ∧ e.kind = 7)
    ∧ (∃ (s : State) (i : Fin 256) (e : Entry), ttGet s i.val = some e ∧ e.st = .waiting ∧ e.excluded s = false ∧ entryFree s i.val e = true ∧ e.kind = 1 ∧ vdrvInWindow s = true ∧ frameDrives s e = true)
    ∧ (∃ (s : State) (i : Fin 256) (e : Entry), ttGet s i.val = some e ∧ e.st = .waiting ∧ e.excluded s = false ∧ entryFree s i.val e = true ∧ (e.kind = 4 ∨ e.kind = 5) ∧ e.trxs.all (fun n => (trxGet s n).lock = some ((bandOf (uhfFreq s e)).getD 4, uhfFreq s e)) = true)
    ∧ (∃ (s : State) (i : Fin 256) (e : Entry), ttGet s i.val = some e ∧ e.st = .waiting ∧ e.excluded s = false ∧ entryFree s i.val e = true ∧ e.kind = 9) :=
  ⟨⟨withEntry { jobEntry 1 with due := 1000 } runS, 0, { jobEntry 1 with due := 1000 }, by decide +kernel⟩,
   ⟨withEntry { jobEntry 10 with due := 1000 } runS, 0, { jobEntry 10 with due := 1000 }, by decide +kernel⟩,
   ⟨ttPut 1 (some { jobEntry 4 with st := .running }) (withEntry (jobEntry 4) runS), 0, jobEntry 4, by exact ⟨by decide +kernel, by decide +kernel, .inl (by decide +kernel), by decide +kernel⟩⟩,
   ⟨withEntry (jobEntry 1) { runS with sup.region := .overvolt }, 0, jobEntry 1, .lowEnergy, 5, by decide +kernel⟩,
   ⟨withEntry { setEntry 7 with st := .waiting } runS, 0, { setEntry 7 with st := .waiting }, by decide +kernel⟩,
   ⟨withEntry { jobEntry 1 with block := frB, st := .waiting } lfS, 0, { jobEntry 1 with block := frB, st := .waiting }, by decide +kernel⟩,
   ⟨withEntry { jobEntry 4 with st := .waiting } { runS with uhf.trx := runS.uhf.trx.map (fun x => { x with st := .synth, lock := some (4, 0) }) }, 0, { jobEntry 4 with st := .waiting }, by exact ⟨by decide +kernel, by decide +kernel, by decide +kernel, by decide +kernel, .inl rfl, by decide +kernel⟩⟩,
   ⟨withEntry { setEntry 9 with st := .waiting } runS, 0, { setEntry 9 with st := .waiting }, by decide +kernel⟩⟩

theorem test_witness_EntryPreparesWaitsAndResumes_2 :
    (∃ (s : State) (i : Fin 256) (e : Entry) (x : Nat), ttGet s i.val = some e ∧ e.st = .waiting ∧ e.kind = 2 ∧ e.holdUntil = some x ∧ s.sup.vdrvOn = true ∧ entryFree s i.val e = true ∧ nothingMapped s = false ∧ (pingDrive s e).kept ≠ [] ∧ s.sup.vdrvSet ≤ 255)
    ∧ (∃ (s : State) (i : Fin 256) (e : Entry) (x : Nat), ttGet s i.val = some e ∧ e.st = .waiting ∧ e.kind = 3 ∧ e.holdUntil = some x ∧ s.sup.vdrvOn = true ∧ entryFree s i.val e = true ∧ nothingMapped s = false ∧ (scanNamed (scanBlock s e) = [] ∨ (scanNamed (scanBlock s e)).any (fun w => chInService s w.ch) = true) ∧ s.sup.vdrvSet ≤ 255)
    ∧ (∃ (s : State) (i : Fin 256) (e : Entry) (x : Nat), ttGet s i.val = some e ∧ e.st = .waiting ∧ e.kind = 1 ∧ e.holdUntil = some x ∧ s.sup.vdrvOn = true ∧ entryFree s i.val e = true ∧ frameDrives s e = true ∧ s.sup.vdrvSet ≤ 255) :=
  ⟨⟨withEntry { setEntry 2 with st := .waiting, holdUntil := some 5 } lfS, 0, { setEntry 2 with st := .waiting, holdUntil := some 5 }, 5, by decide +kernel⟩,
   ⟨withEntry { jobEntry 3 with block := [0,0,0,0,0xFF,0xFF,0,0], st := .waiting, holdUntil := some 5 } lfS, 0, { jobEntry 3 with block := [0,0,0,0,0xFF,0xFF,0,0], st := .waiting, holdUntil := some 5 }, 5, by exact ⟨by decide +kernel, by decide +kernel, rfl, by decide +kernel, by decide +kernel, by decide +kernel, by decide +kernel, .inl (by decide +kernel), by decide +kernel⟩⟩,
   ⟨withEntry { jobEntry 1 with block := frB, st := .waiting, holdUntil := some 5 } lfS, 0, { jobEntry 1 with block := frB, st := .waiting, holdUntil := some 5 }, 5, by decide +kernel⟩⟩

theorem test_witness_LfActionsEnd :
    (∃ (s : State) (i : Fin 256) (e : Entry) (env : LfFrameEnv) (g : Nat), ttGet s i.val = some e ∧ e.kind = 1 ∧ e.st = .running ∧ e.owner = .job g ∧ e.periodic = false ∧ e.cut = none ∧ e.endAt ≤ s.xo ∧ frameClose s e env ≤ s.xo)
    ∧ (∃ (s : State) (i : Fin 256) (e : Entry), ttGet s i.val = some e ∧ e.kind = 3 ∧ e.st = .running ∧ e.cut = none ∧ e.endAt ≤ s.xo ∧ e.pats < scanCount (scanBlock s e))
    ∧ (∃ (s : State) (i : Fin 256) (e : Entry) (g : Nat), ttGet s i.val = some e ∧ e.kind = 3 ∧ e.st = .running ∧ e.owner = .job g ∧ e.periodic = false ∧ e.cut = none ∧ e.endAt ≤ s.xo ∧ scanCount (scanBlock s e) ≤ e.pats)
    ∧ (∃ (s : State) (i : Fin 256) (e : Entry), ttGet s i.val = some e ∧ e.kind = 2 ∧ e.st = .running ∧ e.owner = .settings ∧ e.cut = none ∧ e.endAt ≤ s.xo ∧ (chGet s (e.unit % 16)).base = none)
    ∧ (∃ (s : State) (i : Fin 256) (e : Entry) (re : Int) (im : Int) (b : Int × Int), ttGet s i.val = some e ∧ e.kind = 2 ∧ e.st = .running ∧ e.owner = .settings ∧ e.cut = none ∧ e.endAt ≤ s.xo ∧ (chGet s (e.unit % 16)).base = some b ∧ pingChange (pingSet s e) ((re * 1024).tdiv (max 1 e.k : Nat), (im * 1024).tdiv (max 1 e.k : Nat)) b = true)
    ∧ (∃ (s : State) (i : Fin 256) (e : Entry) (re : Int) (im : Int) (b : Int × Int), ttGet s i.val = some e ∧ e.kind = 2 ∧ e.st = .running ∧ e.owner = .settings ∧ e.cut = none ∧ e.endAt ≤ s.xo ∧ (chGet s (e.unit % 16)).base = some b ∧ pingChange (pingSet s e) ((re * 1024).tdiv (max 1 e.k : Nat), (im * 1024).tdiv (max 1 e.k : Nat)) b = false)
    ∧ (∃ (s : State), s.lf.round = true ∧ s48 s.lf.roundDue (now48 s) ≤ 0 ∧ (ttAll s).any (fun x => x.2.kind = 1 && x.2.st != .suspended && decide (x.2.due = s.lf.roundDue)) = false ∧ (ttAll s).any (fun x => x.2.isLf && x.2.st == .running) = false) :=
  ⟨⟨withEntry { jobEntry 1 with block := frB, st := .running } lfS, 0, { jobEntry 1 with block := frB, st := .running }, { units := [], sat := 0, limited := false }, 5, by decide +kernel⟩,
   ⟨withEntry { jobEntry 3 with block := [1,0,0,0,0xFF,0xFF,0,0,0,0,0,0], st := .running } lfS, 0, { jobEntry 3 with block := [1,0,0,0,0xFF,0xFF,0,0,0,0,0,0], st := .running }, by decide +kernel⟩,
   ⟨withEntry { jobEntry 3 with block := [0,0,0,0,0xFF,0xFF,0,0], st := .running } lfS, 0, { jobEntry 3 with block := [0,0,0,0,0xFF,0xFF,0,0], st := .running }, 5, by decide +kernel⟩,
   ⟨withEntry { setEntry 2 with st := .running } lfS, 0, { setEntry 2 with st := .running }, by decide +kernel⟩,
   ⟨withEntry { setEntry 2 with st := .running } { lfS with lf.ch := vmod lfS.lf.ch 0 (fun c => { c with base := some (1, 1) }) }, 0, { setEntry 2 with st := .running }, 1000, 2000, (1, 1), by decide +kernel⟩,
   ⟨withEntry { setEntry 2 with st := .running } { lfS with lf.ch := vmod lfS.lf.ch 0 (fun c => { c with base := some (1000, 2000) }) }, 0, { setEntry 2 with st := .running }, 1000, 2000, (1000, 2000), by decide +kernel⟩,
   ⟨drv0 { lfS with lf.round := true }, by decide +kernel⟩⟩

theorem test_witness_LfChannelFaults :
    (∃ (s : State) (ch : Fin 16), (chGet s ch.val).st = 1)
    ∧ (∃ (s : State) (ch : Fin 16) (coil : Nat) (set_ : Nat), (chGet s ch.val).st = 1 ∧ 4 * coil < set_ ∧ (drivenMask s).getLsbD ch.val = true)
    ∧ (∃ (s : State) (ch : Fin 16) (clean : Bool) (z : Nat), (chGet s ch.val).st = 2 ∧ (chGet s ch.val).retest = true ∧ (chGet s ch.val).retestAfter ≤ s.elapsed ∧ lfActive s = false ∧ vdrvAllowed s = true ∧ clean = true ∧ 2 * ((z : Int) - (chGet s ch.val).zmag).natAbs ≤ (chGet s ch.val).zmag)
    ∧ (∃ (s : State) (ch : Fin 16) (clean : Bool) (z : Nat), (chGet s ch.val).st = 2 ∧ (chGet s ch.val).retest = true ∧ (chGet s ch.val).retestAfter ≤ s.elapsed ∧ lfActive s = false ∧ vdrvAllowed s = true ∧ (clean = false ∨ (chGet s ch.val).zmag < 2 * ((z : Int) - (chGet s ch.val).zmag).natAbs)) :=
  ⟨⟨lfS, 0, by decide +kernel⟩,
   ⟨drv0 lfS, 0, 24, 100, by decide +kernel⟩,
   ⟨{ lfS with lf.ch := vmod lfS.lf.ch 0 (fun c => { c with st := 2, retest := true }) }, 0, true, 5000000, by decide +kernel⟩,
   ⟨{ lfS with lf.ch := vmod lfS.lf.ch 0 (fun c => { c with st := 2, retest := true }) }, 0, false, 5000000, by exact ⟨by decide +kernel, by decide +kernel, by decide +kernel, by decide +kernel, by decide +kernel, .inl rfl⟩⟩⟩

theorem test_witness_UhfActionsEnd :
    (∃ (s : State) (i : Fin 256) (e : Entry) (tels : List RxTelegram) (g : Nat) (f : RxFound), ttGet s i.val = some e ∧ e.kind = 4 ∧ e.st = .running ∧ e.owner = .job g ∧ e.periodic = false ∧ f = rxSearch (winMax (e.profile s)) (tels.filter (fun x => syncAccepted (e.profile s) x && syncInside e (winLen (e.profile s)) x)) { syncs := 0, crcs := 0, lens := 0, tel := none } ∧ (f.tel.isSome = true ∨ e.endAt ≤ s.xo))
    ∧ (∃ (s : State) (i : Fin 256) (e : Entry) (g : Nat), ttGet s i.val = some e ∧ e.kind = 5 ∧ e.st = .running ∧ e.owner = .job g ∧ e.periodic = false ∧ e.endAt ≤ s.xo)
    ∧ (∃ (s : State) (i : Fin 256) (e : Entry) (env : RangingEnv) (g : Nat), ttGet s i.val = some e ∧ e.kind = 6 ∧ e.st = .running ∧ e.owner = .job g ∧ e.periodic = false ∧ e.endAt - tUs 4956 + tNs (rangingEndNs env) ≤ s.xo ∧ rngServes s = true ∧ s.rng.latched = false)
    ∧ (∃ (s : State) (n : Fin 6) (chips : BitVec 64) (j : Nat) (e : Entry), (vget s.uhf.wrx n.val Wrx.reset).entry = some j ∧ ttGet s j = some e ∧ (vget s.uhf.wrx n.val Wrx.reset).on = true ∧ patMisses (patPlan s e) chips ≤ patMiss (patPlan s e) ∧ (trxGet s (n.val / 3)).blindUntil ≤ s.xo - patSpan (patPlan s e))
    ∧ (∃ (s : State) (n : Fin 6) (chips : BitVec 64) (j : Nat) (e : Entry), (vget s.uhf.wrx n.val Wrx.reset).entry = some j ∧ ttGet s j = some e ∧ (vget s.uhf.wrx n.val Wrx.reset).on = true ∧ patMisses (patPlan s e) chips ≤ patMiss (patPlan s e) ∧ s.xo - patSpan (patPlan s e) < (trxGet s (n.val / 3)).blindUntil)
    ∧ (∃ (s : State) (n : Fin 6) (i : Nat) (e : Entry), (vget s.uhf.wrx n.val Wrx.reset).entry = some i ∧ ttGet s i = some e ∧ e.kind = 7 ∧ e.st = .running ∧ e.owner = .settings ∧ e.endAt ≤ s.xo ∧ (e.periodic && (e.count = 0 || decide (1 < e.remain)) && e.sig.isNone && decide (s48 (nextDue e e.start).due (now48 s) ≤ 300000)) = false)
    ∧ (∃ (s : State) (n : Fin 6) (i : Nat) (e : Entry), (vget s.uhf.wrx n.val Wrx.reset).entry = some i ∧ (vget s.uhf.wrx n.val Wrx.reset).on = true ∧ ttGet s i = some e ∧ e.kind = 7 ∧ e.st = .running ∧ e.owner = .settings ∧ e.periodic = true ∧ (e.count = 0 ∨ 1 < e.remain) ∧ e.sig = none ∧ s48 (nextDue e e.start).due (now48 s) ≤ 300000) :=
  ⟨⟨withEntry { jobEntry 4 with st := .running } runS, 0, { jobEntry 4 with st := .running }, [], 5, _, by exact ⟨by decide +kernel, rfl, rfl, rfl, rfl, rfl, .inr (by decide)⟩⟩,
   ⟨withEntry { jobEntry 5 with st := .running } runS, 0, { jobEntry 5 with st := .running }, 5, by decide +kernel⟩,
   ⟨withEntry { jobEntry 6 with st := .running } runS, 0, { jobEntry 6 with st := .running }, noRanging, 5, by decide +kernel⟩,
   ⟨withEntry (setEntry 7) { runS with uhf.wrx := vmod runS.uhf.wrx 0 (fun w => { w with on := true, entry := some 0 }) }, 0, 0, 0, setEntry 7, by decide +kernel⟩,
   ⟨withEntry (setEntry 7) { runS with uhf.wrx := vmod runS.uhf.wrx 0 (fun w => { w with on := true, entry := some 0 }), uhf.trx := vmod runS.uhf.trx 0 (fun x => { x with blindUntil := 2000000000 }) }, 0, 0, 0, setEntry 7, by decide +kernel⟩,
   ⟨withEntry { setEntry 7 with st := .running } { runS with uhf.wrx := vmod runS.uhf.wrx 0 (fun w => { w with on := true, entry := some 0 }) }, 0, 0, { setEntry 7 with st := .running }, by decide +kernel⟩,
   ⟨withEntry { setEntry 7 with st := .running, period := 100 } { runS with uhf.wrx := vmod runS.uhf.wrx 0 (fun w => { w with on := true, entry := some 0 }) }, 0, 0, { setEntry 7 with st := .running, period := 100 }, by decide +kernel⟩⟩

theorem test_witness_TransceiverUpkeep :
    (∃ (s : State) (n : Fin 2) (x : Nat), (trxGet s n.val).st = .standby ∧ (trxGet s n.val).sleepAt = some x ∧ x ≤ s.xo ∧ trxWanted s n.val = false)
    ∧ (∃ (s : State) (n : Fin 2) (i : Nat) (e : Entry), trxPreparing s n.val = some (i, e) ∧ (trxGet s n.val).st = .synth ∧ (trxGet s n.val).retried = false)
    ∧ (∃ (s : State) (n : Fin 2) (i : Nat) (g : Nat) (e : Entry), trxPreparing s n.val = some (i, e) ∧ (trxGet s n.val).st = .synth ∧ (trxGet s n.val).retried = false ∧ e.owner = .job g ∧ e.periodic = false)
    ∧ (∃ (s : State) (n : Fin 2), (trxPreparing s n.val = none ∨ (trxGet s n.val).st ≠ .synth ∨ (trxGet s n.val).retried = true))
    ∧ (∃ (s : State) (n : Fin 2) (b : Fin 4), uhfOn s = true ∧ (trxGet s n.val).due.getLsbD b.val = true ∧ (trxGet s n.val).cal = none ∧ ((trxGet s n.val).st = .sleep ∨ (trxGet s n.val).st = .standby) ∧ prepSoon s n.val = false)
    ∧ (∃ (s : State) (n : Fin 2) (b : Nat) (x : Nat), (trxGet s n.val).cal = some (b, x) ∧ b < 4)
    ∧ (∃ (s : State) (w : Word), s.boot.ready = true ∧ ppbOn s = true ∧ w.toNat / 65536 = 0xCA1B)
    ∧ (∃ (page : Fin 8) (w : Word), (page ≠ 1 ∨ w.toNat / 65536 ≠ 0xCA1B)) :=
  ⟨⟨{ runS with uhf.trx := vmod runS.uhf.trx 0 (fun x => { x with st := .standby, sleepAt := some 5 }) }, 0, 5, by decide +kernel⟩,
   ⟨withEntry { jobEntry 4 with st := .preparing } { runS with uhf.trx := vmod runS.uhf.trx 0 (fun x => { x with st := .synth }) }, 0, 0, { jobEntry 4 with st := .preparing }, by decide +kernel⟩,
   ⟨withEntry { jobEntry 4 with st := .preparing } { runS with uhf.trx := vmod runS.uhf.trx 0 (fun x => { x with st := .synth }) }, 0, 0, 5, { jobEntry 4 with st := .preparing }, by decide +kernel⟩,
   ⟨runS, 0, by exact .inl (by decide +kernel)⟩,
   ⟨{ runS with uhf.trx := vmod runS.uhf.trx 0 (fun x => { x with due := 1 }) }, 0, 0, by exact ⟨by decide +kernel, by decide +kernel, by decide +kernel, .inl (by decide +kernel), by decide +kernel⟩⟩,
   ⟨{ runS with uhf.trx := vmod runS.uhf.trx 0 (fun x => { x with cal := some (2, 5) }) }, 0, 2, 5, by decide +kernel⟩,
   ⟨runS, 0xCA1B000F, by decide +kernel⟩,
   ⟨1, 15, by decide +kernel⟩⟩

theorem test_witness_AccessSequences :
    (∃ (s : State) (kind : Nat) (pin : Nat) (r : List (Nat × Nat)), s.acc.queue = (kind, pin) :: r ∧ accBusy s = false ∧ (kind = 1 ∨ kind = 2) ∧ preCheck s = none ∧ recUsable s (pfRec s.acc.profile pin) = true ∧ (freeIndex s 0).isSome = true)
    ∧ (∃ (s : State) (kind : Nat) (pin : Nat) (r : List (Nat × Nat)) (st : Status), s.acc.queue = (kind, pin) :: r ∧ accBusy s = false ∧ (kind = 1 ∨ kind = 2 ∨ kind = 3) ∧ preCheck s = some st)
    ∧ (∃ (s : State) (q : Seqn), s.acc.seqn = some q ∧ q.stage = .repeatGap ∧ (q.msgAt = 0 ∨ q.msgAt + tMs 12 ≤ s.elapsed) ∧ q.ids = [] ∧ (freeIndex s 0).isSome = true)
    ∧ (∃ (s : State) (mv : Nat) (q : Seqn), s.acc.seqn = some q ∧ q.stage = .fuse ∧ q.kind = 2 ∧ (fuse s q).fail = none ∧ s.sup.measured = true ∧ (grant (q.cred.getD 255) false (seeVhold mv s)).1 = .ok ∧ grantBarred s = false)
    ∧ (∃ (s : State) (q : Seqn), s.acc.seqn = some q ∧ q.stage = .fuse ∧ q.kind = 1 ∧ (fuse s q).fail = none ∧ s.sup.thermOff = false ∧ s.sup.measured = true ∧ (credGet s (q.cred.getD 255)).counter > 127)
    ∧ (∃ (s : State) (q : Seqn) (st : Status), s.acc.seqn = some q ∧ q.stage = .fuse ∧ q.kind = 1 ∧ s.sup.thermOff = false ∧ (fuse s q).fail = some st ∧ st.good = false ∧ pfMaxKeys s.acc.profile ≤ q.served.length)
    ∧ (∃ (s : State) (q : Seqn), s.acc.seqn = some q ∧ q.stage = .fuse ∧ q.kind = 2 ∧ (fuse s q).fail = none ∧ s.sup.measured = true ∧ s.sup.thermOff = false ∧ s.acc.sessOpen = true ∧ (credGet s (q.cred.getD 255)).counter > 127 ∧ grantBarred s = false)
    ∧ (∃ (s : State) (q : Seqn), s.acc.seqn = some q ∧ q.stage = .fuse ∧ q.kind ≠ 3 ∧ s.sup.thermOff = true)
    ∧ (∃ (s : State) (q : Seqn), s.acc.seqn = some q ∧ q.stage = .fuse ∧ (q.kind = 1 ∨ q.kind = 2) ∧ (fuse s q).fail = none ∧ s.sup.thermOff = false ∧ s.sup.measured = false) :=
  ⟨⟨{ accS with acc.queue := [(2, 0)] }, 2, 0, [], by exact ⟨by decide +kernel, by decide +kernel, .inr rfl, by decide +kernel, by decide +kernel, by decide +kernel⟩⟩,
   ⟨{ accS with acc.queue := [(1, 0)], tmp.latch := true }, 1, 0, [], .tamper, by exact ⟨by decide +kernel, by decide +kernel, .inl rfl, by decide +kernel⟩⟩,
   ⟨{ accS with acc.seqn := some { Seqn.fresh 2 0 0 with stage := .repeatGap } }, { Seqn.fresh 2 0 0 with stage := .repeatGap }, by exact ⟨by decide +kernel, rfl, .inl rfl, rfl, by decide +kernel⟩⟩,
   ⟨{ accS with acc.seqn := some fuseQ }, 15000, fuseQ, by decide +kernel⟩,
   ⟨{ accS with acc.seqn := some { fuseQ with kind := 1 }, set.zones := [1] ++ List.replicate 63 3 }, { fuseQ with kind := 1 }, by decide +kernel⟩,
   ⟨{ accS with acc.seqn := some { fuseQ with kind := 1, fix := none } }, { fuseQ with kind := 1, fix := none }, .outOfZone, by decide +kernel⟩,
   ⟨{ accS with acc.seqn := some fuseQ, acc.sessOpen := true, acc.session := 9, acc.creds := vset accS.acc.creds 3 { Cred.empty with counter := 255 } }, fuseQ, by decide +kernel⟩,
   ⟨{ accS with acc.seqn := some fuseQ, sup.thermOff := true }, fuseQ, by decide +kernel⟩,
   ⟨{ accS with acc.seqn := some fuseQ, sup.measured := false }, fuseQ, by exact ⟨by decide +kernel, by decide +kernel, .inr rfl, by decide +kernel, rfl, rfl⟩⟩⟩

theorem test_witness_PermitSession :
    (∃ (s : State) (e : Entry) (tok : Bytes), s.acc.slot = some e ∧ s48 e.due (now48 s) ≤ 500000 ∧ s.permit.latch = true ∧ denyLevel s = false ∧ s.acc.sessOpen = true ∧ s.permit.tokenAt + tUs 500 ≤ s.xo + tNs (s48 e.due (now48 s)).toNat ∧ tokenBytes s true e.due = some tok ∧ rngServes s = true)
    ∧ (∃ (s : State) (e : Entry) (tok : Bytes), s.acc.slot = some e ∧ s48 e.due (now48 s) ≤ 500000 ∧ s.permit.latch = false ∧ s.acc.sessOpen = false ∧ 0 < s.acc.denyLeft ∧ tokenBytes s false e.due = some tok ∧ tok ≠ s.acc.token ∧ rngServes s = true)
    ∧ (∃ (s : State), s.permit.latch = true ∧ s.permit.tokenAt + tMs 30 ≤ s.xo)
    ∧ (∃ (s : State) (x : Nat), s.acc.holdUntil = some x ∧ x ≤ s.elapsed ∧ s.acc.sessOpen = true)
    ∧ (∃ (s : State) (c : Fin 256), s.acc.resync.any (fun r => r.cred = c.val && decide (r.until_ ≤ s.elapsed)) = true) :=
  ⟨⟨{ rngS with acc.slot := some (slotEntry runS), permit.latch := true, acc.sessOpen := true, ks.slots := vset runS.ks.slots 0 { Slot.empty with key := some 5, attr := 0x101 }, ks.root := some 1, ks.classKey := vset runS.ks.classKey 0 (some 1) }, slotEntry runS, (tokenBytes { rngS with acc.slot := some (slotEntry runS), permit.latch := true, acc.sessOpen := true, ks.slots := vset runS.ks.slots 0 { Slot.empty with key := some 5, attr := 0x101 }, ks.root := some 1, ks.classKey := vset runS.ks.classKey 0 (some 1) } true (slotEntry runS).due).getD [], by decide +kernel⟩,
   ⟨{ rngS with acc.slot := some (slotEntry runS), acc.denyLeft := 3, ks.slots := vset runS.ks.slots 0 { Slot.empty with key := some 5, attr := 0x101 }, ks.root := some 1, ks.classKey := vset runS.ks.classKey 0 (some 1) }, slotEntry runS, (tokenBytes { rngS with acc.slot := some (slotEntry runS), acc.denyLeft := 3, ks.slots := vset runS.ks.slots 0 { Slot.empty with key := some 5, attr := 0x101 }, ks.root := some 1, ks.classKey := vset runS.ks.classKey 0 (some 1) } false (slotEntry runS).due).getD [], by decide +kernel⟩,
   ⟨{ runS with permit.latch := true, xo := 2000000000 }, by decide +kernel⟩,
   ⟨{ runS with permit.latch := true, acc.sessOpen := true, acc.holdUntil := some 5 }, 5, by decide +kernel⟩,
   ⟨{ runS with acc.resync := [{ cred := 3, kc := 9, until_ := 5 }] }, 3, by decide +kernel⟩⟩

theorem test_witness_RingSubmission_1 :
    (∃ (s : State) (page : Fin 8) (ring : Fin 32) (pi : BitVec 16), pageLive s page.val = true ∧ ringPage ring.val = page.val ∧ (ringGet s ring.val).en = true ∧ (pi - (ringGet s ring.val).fi).toNat ≤ depthOf (ringGet s ring.val).depth)
    ∧ (∃ (s : State) (page : Fin 8) (ring : Fin 32) (pi : BitVec 16), pageLive s page.val = true ∧ ringPage ring.val = page.val ∧ (ringGet s ring.val).en = true ∧ pi ≠ (ringGet s ring.val).pi ∧ depthOf (ringGet s ring.val).depth < (pi - (ringGet s ring.val).fi).toNat)
    ∧ (∃ (s : State) (page : Fin 8) (ring : Fin 32), pageLive s page.val = true ∧ ringPage ring.val ≠ page.val)
    ∧ (∃ (s : State) (page : Fin 8) (ring : Fin 32), pageLive s page.val = true ∧ ringPage ring.val = page.val ∧ (ringGet s ring.val).en = false)
    ∧ (∃ (s : State) (page : Fin 8) (ring : Fin 32), pageLive s page.val = true ∧ ((ringGet s ring.val).en = true ∨ ringPage ring.val ≠ page.val))
    ∧ (∃ (s : State) (page : Fin 8) (ring : Fin 32) (cfg : Word), pageLive s page.val = true ∧ ringPage ring.val = page.val ∧ (ringGet s ring.val).en = false ∧ inGrant s page.val (ringGet s ring.val).dbase (64 * depthOf (cfg.toNat % 8)) = true ∧ inGrant s page.val (ringGet s ring.val).cbase (32 * depthOf (cfg.toNat % 8)) = true)
    ∧ (∃ (s : State) (page : Fin 8) (ring : Fin 32) (cfg : Word), pageLive s page.val = true ∧ ringPage ring.val = page.val ∧ (ringGet s ring.val).en = false ∧ (inGrant s page.val (ringGet s ring.val).dbase (64 * depthOf (cfg.toNat % 8)) = false ∨ inGrant s page.val (ringGet s ring.val).cbase (32 * depthOf (cfg.toNat % 8)) = false))
    ∧ (∃ (s : State) (page : Fin 8) (ring : Fin 32), pageLive s page.val = true ∧ ringPage ring.val = page.val ∧ (ringGet s ring.val).en = true) :=
  ⟨⟨ringS, 0, 0, 5, by decide +kernel⟩,
   ⟨ringS, 0, 0, 17, by decide +kernel⟩,
   ⟨runS, 1, 0, by decide +kernel⟩,
   ⟨runS, 0, 0, by decide +kernel⟩,
   ⟨ringS, 0, 0, by exact ⟨by decide +kernel, .inl (by decide +kernel)⟩⟩,
   ⟨runS, 0, 0, 0x1, by decide +kernel⟩,
   ⟨runS, 1, 4, 0x1, by exact ⟨by decide +kernel, by decide +kernel, by decide +kernel, .inl (by decide +kernel)⟩⟩,
   ⟨ringS, 0, 0, by decide +kernel⟩⟩

theorem test_witness_RingSubmission_2 :
    (∃ (s : State) (page : Fin 8) (ring : Fin 32), pageLive s page.val = true ∧ ringPage ring.val = page.val ∧ (ringGet s ring.val).en = false)
    ∧ (∃ (page : Fin 8) (ring : Fin 32), ringPage ring.val ≠ page.val)
    ∧ (∃ (page : Fin 8) (ring : Fin 32), ringPage ring.val ≠ page.val)
    ∧ (∃ (s : State) (page : Fin 8) (ring : Fin 32), pageLive s page.val = true ∧ ringPage ring.val = page.val) :=
  ⟨⟨runS, 0, 0, by decide +kernel⟩,
   ⟨1, 0, by decide +kernel⟩,
   ⟨1, 0, by decide +kernel⟩,
   ⟨ringS, 0, 0, by decide +kernel⟩⟩

theorem test_witness_DescriptorFetch :
    (∃ (s : State) (ring : Fin 32), arbNext s ring.val = true ∧ seqCase (ringGet s ring.val) (dsSeq (descAt s ring.val)) = .accept ∧ descCheck s (ringPage ring.val) (descAt s ring.val) = none ∧ fillCheck (descAt s ring.val) = none)
    ∧ (∃ (s : State) (ring : Fin 32) (st : Status), arbNext s ring.val = true ∧ seqCase (ringGet s ring.val) (dsSeq (descAt s ring.val)) = .accept ∧ descCheck s (ringPage ring.val) (descAt s ring.val) = some st)
    ∧ (∃ (s : State) (ring : Fin 32) (st : Status), arbNext s ring.val = true ∧ seqCase (ringGet s ring.val) (dsSeq (descAt s ring.val)) = .accept ∧ descCheck s (ringPage ring.val) (descAt s ring.val) = none ∧ fillCheck (descAt s ring.val) = some st)
    ∧ (∃ (s : State) (ring : Fin 32), arbNext s ring.val = false)
    ∧ (∃ (s : State) (ring : Fin 32), arbNext s ring.val = true ∧ seqCase (ringGet s ring.val) (dsSeq (descAt s ring.val)) = .duplicate)
    ∧ (∃ (s : State) (ring : Fin 32), arbNext s ring.val = true ∧ seqCase (ringGet s ring.val) (dsSeq (descAt s ring.val)) = .ahead)
    ∧ (∃ (s : State) (ring : Fin 32), arbNext s ring.val = true) :=
  ⟨⟨ringS, 0, by decide +kernel⟩,
   ⟨{ ringS with win := [] }, 0, .badDesc, by decide +kernel⟩,
   ⟨{ ringS with win := memSetBytes 0 [] 0x1000 (dsc 4 0 0 0x3000 0 []) }, 0, .ok, by decide +kernel⟩,
   ⟨runS, 0, by decide +kernel⟩,
   ⟨ringMod 0 (fun r => { r with expect := some 2 }) ringS, 0, by decide +kernel⟩,
   ⟨ringMod 0 (fun r => { r with expect := some 0 }) ringS, 0, by decide +kernel⟩,
   ⟨ringS, 0, by decide +kernel⟩⟩

theorem test_witness_CompletionEntry :
    (∃ (s : State) (tag : Fin 512) (o : Op) (st : Status) (late : Bool) (out : Bytes), opFind s tag.val = some o ∧ o.result = some (st, late, out) ∧ o.ring < 32 ∧ o.desc.length = 64 ∧ 1 ≤ depthOf (ringGet s o.ring).depth)
    ∧ (∃ (s : State) (tag : Fin 512) (o : Op) (st : Status) (late : Bool) (out : Bytes), opFind s tag.val = some o ∧ o.result = some (st, late, out) ∧ o.ring < 32) :=
  ⟨⟨{ ringS with job.ops := [{ opOf (dsc 2 0 0 0x3000 64 [0, 3]) with result := some (.ok, false, [1, 2]) }] }, 5, { opOf (dsc 2 0 0 0x3000 64 [0, 3]) with result := some (.ok, false, [1, 2]) }, .ok, false, [1, 2], by decide +kernel⟩,
   ⟨{ ringS with job.ops := [{ opOf (dsc 2 0 0 0x3000 64 [0, 3]) with result := some (.ok, false, [1, 2]) }] }, 5, { opOf (dsc 2 0 0 0x3000 64 [0, 3]) with result := some (.ok, false, [1, 2]) }, .ok, false, [1, 2], by decide +kernel⟩⟩

theorem test_witness_EntryJobs_1 :
    (∃ (s : State) (tag : Fin 512) (o : Op) (blk : Bytes) (i : Nat), opLive s tag.val 6 = some o ∧ burinWaits s o = true ∧ engineNext (burinWaits s) s o = true ∧ 32 ≤ dsSrcLen o.desc ∧ sendZero s o (winRead s (dsSrc o.desc) 32) = false ∧ entryBlock s o (winRead s (dsSrc o.desc) 32) = some blk ∧ entryCheck s o.page (winRead s (dsSrc o.desc) 32) true = none ∧ freeIndex s o.page = some i)
    ∧ (∃ (s : State) (tag : Fin 512) (o : Op) (blk : Bytes) (i : Nat), opLive s tag.val 7 = some o ∧ burinWaits s o = true ∧ engineNext (burinWaits s) s o = true ∧ 32 ≤ dsSrcLen o.desc ∧ sendZero s o (winRead s (dsSrc o.desc) 32) = false ∧ entryBlock s o (winRead s (dsSrc o.desc) 32) = some blk ∧ entryCheck s o.page (winRead s (dsSrc o.desc) 32) true = none ∧ freeIndex s o.page = some i)
    ∧ (∃ (s : State) (tag : Fin 512) (o : Op) (blk : Bytes) (i : Nat), opLive s tag.val 8 = some o ∧ burinWaits s o = true ∧ engineNext (burinWaits s) s o = true ∧ 32 ≤ dsSrcLen o.desc ∧ sendZero s o (winRead s (dsSrc o.desc) 32) = false ∧ entryBlock s o (winRead s (dsSrc o.desc) 32) = some blk ∧ entryCheck s o.page (winRead s (dsSrc o.desc) 32) true = none ∧ freeIndex s o.page = some i)
    ∧ (∃ (s : State) (tag : Fin 512) (o : Op) (blk : Bytes) (i : Nat), opLive s tag.val 10 = some o ∧ burinWaits s o = true ∧ engineNext (burinWaits s) s o = true ∧ 32 ≤ dsSrcLen o.desc ∧ sendZero s o (winRead s (dsSrc o.desc) 32) = false ∧ entryBlock s o (winRead s (dsSrc o.desc) 32) = some blk ∧ entryCheck s o.page (winRead s (dsSrc o.desc) 32) true = none ∧ freeIndex s o.page = some i)
    ∧ (∃ (s : State) (tag : Fin 512) (o : Op), opLive s tag.val 6 = some o ∧ burinWaits s o = true ∧ engineNext (burinWaits s) s o = true ∧ dsSrcLen o.desc < 32)
    ∧ (∃ (s : State) (tag : Fin 512) (o : Op), opLive s tag.val 7 = some o ∧ burinWaits s o = true ∧ engineNext (burinWaits s) s o = true ∧ dsSrcLen o.desc < 32)
    ∧ (∃ (s : State) (tag : Fin 512) (o : Op), opLive s tag.val 8 = some o ∧ burinWaits s o = true ∧ engineNext (burinWaits s) s o = true ∧ dsSrcLen o.desc < 32)
    ∧ (∃ (s : State) (tag : Fin 512) (o : Op), opLive s tag.val 10 = some o ∧ burinWaits s o = true ∧ engineNext (burinWaits s) s o = true ∧ dsSrcLen o.desc < 32) :=
  ⟨⟨entS 6 1 0 0x80000140 wakeB, 5, opOf (dsc 6 0 64 0x3000 48 []), wakeB, 0, by decide +kernel⟩,
   ⟨{ entS 7 4 0 0 [] with set.radio := raB }, 5, opOf (dsc 7 0 64 0x3000 276 []), winPlan { entS 7 4 0 0 [] with set.radio := raB } 0, 0, by decide +kernel⟩,
   ⟨entS 8 6 0 0x80000140 (List.replicate 16 0), 5, opOf (dsc 8 0 64 0x3000 32 []), List.replicate 16 0, 0, by decide +kernel⟩,
   ⟨entS 10 10 0 0x80000140 ([36, 0, 7, 1] ++ List.replicate 40 0), 5, opOf (dsc 10 0 76 0x3000 0 []), [36, 0, 7, 1] ++ List.replicate 40 0, 0, by decide +kernel⟩,
   ⟨jobS (dsc 6 0 4 0x3000 0 []), 5, opOf (dsc 6 0 4 0x3000 0 []), by decide +kernel⟩,
   ⟨jobS (dsc 7 0 4 0x3000 0 []), 5, opOf (dsc 7 0 4 0x3000 0 []), by decide +kernel⟩,
   ⟨jobS (dsc 8 0 4 0x3000 0 []), 5, opOf (dsc 8 0 4 0x3000 0 []), by decide +kernel⟩,
   ⟨jobS (dsc 10 0 4 0x3000 0 []), 5, opOf (dsc 10 0 4 0x3000 0 []), by decide +kernel⟩⟩

theorem test_witness_EntryJobs_2 :
    (∃ (s : State) (tag : Fin 512) (o : Op), opLive s tag.val 10 = some o ∧ burinWaits s o = true ∧ engineNext (burinWaits s) s o = true ∧ 32 ≤ dsSrcLen o.desc ∧ sendZero s o (winRead s (dsSrc o.desc) 32) = true)
    ∧ (∃ (s : State) (tag : Fin 512) (o : Op) (st : Status), opLive s tag.val 6 = some o ∧ burinWaits s o = true ∧ engineNext (burinWaits s) s o = true ∧ 32 ≤ dsSrcLen o.desc ∧ sendZero s o (winRead s (dsSrc o.desc) 32) = false ∧ entryCheck s o.page (winRead s (dsSrc o.desc) 32) (entryBlock s o (winRead s (dsSrc o.desc) 32)).isSome = some st)
    ∧ (∃ (s : State) (tag : Fin 512) (o : Op) (st : Status), opLive s tag.val 7 = some o ∧ burinWaits s o = true ∧ engineNext (burinWaits s) s o = true ∧ 32 ≤ dsSrcLen o.desc ∧ sendZero s o (winRead s (dsSrc o.desc) 32) = false ∧ entryCheck s o.page (winRead s (dsSrc o.desc) 32) (entryBlock s o (winRead s (dsSrc o.desc) 32)).isSome = some st)
    ∧ (∃ (s : State) (tag : Fin 512) (o : Op) (st : Status), opLive s tag.val 8 = some o ∧ burinWaits s o = true ∧ engineNext (burinWaits s) s o = true ∧ 32 ≤ dsSrcLen o.desc ∧ sendZero s o (winRead s (dsSrc o.desc) 32) = false ∧ entryCheck s o.page (winRead s (dsSrc o.desc) 32) (entryBlock s o (winRead s (dsSrc o.desc) 32)).isSome = some st)
    ∧ (∃ (s : State) (tag : Fin 512) (o : Op) (st : Status), opLive s tag.val 10 = some o ∧ burinWaits s o = true ∧ engineNext (burinWaits s) s o = true ∧ 32 ≤ dsSrcLen o.desc ∧ sendZero s o (winRead s (dsSrc o.desc) 32) = false ∧ entryCheck s o.page (winRead s (dsSrc o.desc) 32) (entryBlock s o (winRead s (dsSrc o.desc) 32)).isSome = some st) :=
  ⟨⟨entS 10 10 0 0x80000140 ([0, 0, 7, 1] ++ List.replicate 40 0), 5, opOf (dsc 10 0 76 0x3000 0 []), by decide +kernel⟩,
   ⟨entS 6 9 0 0 [], 5, opOf (dsc 6 0 64 0x3000 48 []), .badEntry, by decide +kernel⟩,
   ⟨entS 7 9 0 0 [], 5, opOf (dsc 7 0 64 0x3000 276 []), .badEntry, by decide +kernel⟩,
   ⟨entS 8 9 0 0 [], 5, opOf (dsc 8 0 64 0x3000 32 []), .badEntry, by decide +kernel⟩,
   ⟨entS 10 9 0 0 [], 5, opOf (dsc 10 0 76 0x3000 0 []), .badEntry, by decide +kernel⟩⟩

theorem test_witness_SolverJob :
    (∃ (s : State) (tag : Fin 512) (o : Op), opLive s tag.val 9 = some o ∧ solverOn s = true ∧ engineNext (fun x => dsKind x.desc = 9) s o = true ∧ scanLen (winRead s (dsSrc o.desc) (dsSrcLen o.desc)) + 4 + 8 * u8 ((winRead s (dsSrc o.desc) (dsSrcLen o.desc)).drop (scanLen (winRead s (dsSrc o.desc) (dsSrcLen o.desc)))) 0 ≤ dsSrcLen o.desc ∧ 8 ≤ dsSrcLen o.desc ∧ scanOk s.set ((winRead s (dsSrc o.desc) (dsSrcLen o.desc)).take (scanLen (winRead s (dsSrc o.desc) (dsSrcLen o.desc)))) = true)
    ∧ (∃ (s : State) (tag : Fin 512) (o : Op), opLive s tag.val 9 = some o ∧ solverOn s = true ∧ engineNext (fun x => dsKind x.desc = 9) s o = true ∧ (dsSrcLen o.desc < 8 ∨ scanOk s.set ((winRead s (dsSrc o.desc) (dsSrcLen o.desc)).take (scanLen (winRead s (dsSrc o.desc) (dsSrcLen o.desc)))) = false))
    ∧ (∃ (s : State), solverOn s = false) :=
  ⟨⟨{ jobS (dsc 9 0 26 0x3000 48 []) with set.antenna := antB, win := memSetBytes 0 [] 0x100 (scanB ++ [1]) }, 5, opOf (dsc 9 0 26 0x3000 48 []), by decide +kernel⟩,
   ⟨jobS (dsc 9 0 4 0x3000 48 []), 5, opOf (dsc 9 0 4 0x3000 48 []), by exact ⟨by decide +kernel, by decide +kernel, by decide +kernel, .inl (by decide +kernel)⟩⟩,
   ⟨heathS, by decide +kernel⟩⟩

theorem test_witness_FrameLaunchEnds :
    ∃ (s : State) (i : Fin 256) (e : Entry) (g : Nat) (p : Nat) (c : Nat) (f : Frame), ttGet s i.val = some e ∧ e.kind = 10 ∧ e.st = .preparing ∧ s48 e.due (now48 s) ≤ 0 ∧ sendPermit e = false ∧ e.owner = .job g ∧ e.pats = 0 ∧ launchPorts s i.val = [p] ∧ p < 8 ∧ (portFrames (portGet s p)).filter (fun x => x.entry == some i.val) = [f] ∧ (List.range 8).find? (fun c => (vget (portGet s p).queues c []).any (fun x => x.entry == some i.val)) = some c ∧ gateLets s p c (frameNs f.bytes (portGet s p).rate) = true :=
  ⟨launchS, 0, launchE, 5, 0, 3, { bytes := List.replicate 60 0, launch := some 0, entry := some 0, permit := false, late := false }, by decide +kernel⟩

theorem test_witness_AesBlockJobs :
    (∃ (s : State) (tag : Fin 512) (o : Op) (key : BitVec 256), opFind s tag.val = some o ∧ o.result = none ∧ dsKind o.desc = 1 ∧ caFunc (dsParams o.desc) = 0 ∧ gateHeld s o = false ∧ o.page < 8 ∧ o.suspended = false ∧ o.blocks = 0 ∧ blockCheck s o = none ∧ caCount (dsParams o.desc) = 1 ∧ caX (dsParams o.desc) 1 = true ∧ caX (dsParams o.desc) 2 = false ∧ caX (dsParams o.desc) 3 = false ∧ caPost (dsParams o.desc) = 0 ∧ caDest (dsParams o.desc) = 0 ∧ s.rng.latched = false ∧ rngServes s = true ∧ aesTakes s o = true ∧ (o.cls ≠ 0 ∨ urgentWaits s o = false) ∧ jobKey s o = some key)
    ∧ (∃ (s : State) (tag : Fin 512) (o : Op) (key : BitVec 256), opFind s tag.val = some o ∧ o.result = none ∧ dsKind o.desc = 1 ∧ caFunc (dsParams o.desc) = 0 ∧ gateHeld s o = false ∧ o.page < 8 ∧ o.suspended = false ∧ o.blocks = 0 ∧ blockCheck s o = none ∧ caCount (dsParams o.desc) = 1 ∧ caX (dsParams o.desc) 1 = true ∧ caX (dsParams o.desc) 2 = false ∧ caX (dsParams o.desc) 3 = false ∧ caPost (dsParams o.desc) = 0 ∧ caDest (dsParams o.desc) = 1 ∧ s.rng.latched = false ∧ rngServes s = true ∧ aesTakes s o = true ∧ (o.cls ≠ 0 ∨ urgentWaits s o = false) ∧ jobKey s o = some key ∧ (pageGet s o.page).clearAt = none)
    ∧ (∃ (s : State) (tag : Fin 512) (o : Op) (key : BitVec 256), opFind s tag.val = some o ∧ o.result = none ∧ dsKind o.desc = 1 ∧ caFunc (dsParams o.desc) = 0 ∧ gateHeld s o = false ∧ o.page < 8 ∧ o.suspended = false ∧ o.blocks = 0 ∧ blockCheck s o = none ∧ caCount (dsParams o.desc) = 1 ∧ caX (dsParams o.desc) 1 = true ∧ caX (dsParams o.desc) 2 = false ∧ caX (dsParams o.desc) 3 = false ∧ caPost (dsParams o.desc) = 0 ∧ caDest (dsParams o.desc) = 2 ∧ s.rng.latched = false ∧ rngServes s = true ∧ aesTakes s o = true ∧ (o.cls ≠ 0 ∨ urgentWaits s o = false) ∧ jobKey s o = some key ∧ (pageGet s o.page).clearAt = none)
    ∧ (∃ (s : State) (tag : Fin 512) (o : Op) (x : Status), opFind s tag.val = some o ∧ o.result = none ∧ dsKind o.desc = 1 ∧ caFunc (dsParams o.desc) = 0 ∧ gateHeld s o = false ∧ o.page < 8 ∧ o.suspended = false ∧ blockCheck s o = some x)
    ∧ (∃ (s : State) (tag : Fin 512) (o : Op), opFind s tag.val = some o ∧ o.result = none ∧ dsKind o.desc = 1 ∧ caFunc (dsParams o.desc) = 0 ∧ gateHeld s o = false ∧ o.page < 8 ∧ o.suspended = false ∧ blockCheck s o = none ∧ 0 < caCount (dsParams o.desc) ∧ s.rng.latched = true)
    ∧ (∃ (s : State) (tag : Fin 512) (o : Op), opFind s tag.val = some o ∧ o.result = none ∧ dsKind o.desc = 1 ∧ caFunc (dsParams o.desc) = 0 ∧ gateHeld s o = false ∧ o.page < 8 ∧ o.suspended = false ∧ blockCheck s o = none ∧ 0 < caCount (dsParams o.desc) ∧ s.rng.latched = false ∧ rngServes s = true ∧ aesTakes s o = true ∧ jobKey s o = none)
    ∧ (∃ (s : State) (tag : Fin 512) (o : Op) (n : Nat) (key : BitVec 256), opFind s tag.val = some o ∧ o.result = none ∧ dsKind o.desc = 1 ∧ caFunc (dsParams o.desc) = 0 ∧ gateHeld s o = false ∧ o.page < 8 ∧ o.suspended = false ∧ o.blocks = 0 ∧ blockCheck s o = none ∧ 0 < n ∧ n < caCount (dsParams o.desc) ∧ s.rng.latched = false ∧ rngServes s = true ∧ aesTakes s o = true ∧ o.cls = 0 ∧ urgentWaits s o = true ∧ jobKey s o = some key)
    ∧ (∃ (s : State) (tag : Fin 512) (o : Op) (key : BitVec 256), opFind s tag.val = some o ∧ o.result = none ∧ dsKind o.desc = 1 ∧ o.suspended = true ∧ o.key = some key ∧ rngServes s = true ∧ aesNext s o = true ∧ urgentWaits s o = false) :=
  ⟨⟨ksS 0x100011B (jobS (dsc 1 60 16 0x3000 16 [0, 4, 1, 0, 0, 16, 1, 0])), 5, opOf (dsc 1 60 16 0x3000 16 [0, 4, 1, 0, 0, 16, 1, 0]), 5, by decide +kernel⟩,
   ⟨ksS 0x100011B (jobS (dsc 1 60 16 0x3000 16 [0, 4, 1, 0, 1, 16, 1, 0])), 5, opOf (dsc 1 60 16 0x3000 16 [0, 4, 1, 0, 1, 16, 1, 0]), 5, by decide +kernel⟩,
   ⟨ksS 0x100011B (jobS (dsc 1 60 16 0x3000 16 [0, 4, 1, 0, 2, 16, 1, 0])), 5, opOf (dsc 1 60 16 0x3000 16 [0, 4, 1, 0, 2, 16, 1, 0]), 5, by decide +kernel⟩,
   ⟨jobS (dsc 1 0 16 0x3000 16 []), 5, opOf (dsc 1 0 16 0x3000 16 []), .badDesc, by decide +kernel⟩,
   ⟨{ ksS 0x100011B (jobS (dsc 1 60 16 0x3000 16 [0, 4, 1, 0, 0, 16, 1, 0])) with rng.latched := true }, 5, opOf (dsc 1 60 16 0x3000 16 [0, 4, 1, 0, 0, 16, 1, 0]), by decide +kernel⟩,
   ⟨{ ksS 0x100011B (jobS (dsc 1 60 16 0x3000 16 [0, 4, 1, 0, 0, 16, 1, 0])) with ks.slots := vset rngS.ks.slots 60 { Slot.empty with attr := 0x100011B } }, 5, opOf (dsc 1 60 16 0x3000 16 [0, 4, 1, 0, 0, 16, 1, 0]), by decide +kernel⟩,
   ⟨yieldS, 5, { opOf yieldD with cls := 0, page := 0 }, 1, 5, by decide +kernel⟩,
   ⟨{ ksS 0x100011B (jobS yieldD) with job.ops := [{ opOf yieldD with cls := 0, suspended := true, wasSuspended := true, blocks := 1, key := some 5 }] }, 5, { opOf yieldD with cls := 0, suspended := true, wasSuspended := true, blocks := 1, key := some 5 }, 5, by decide +kernel⟩⟩

theorem test_witness_GateAndParity :
    (∃ (s : State) (tag : Fin 512) (o : Op), opFind s tag.val = some o ∧ o.result = none ∧ dsKind o.desc = 1 ∧ caFunc (dsParams o.desc) = 1 ∧ gateHeld s o = false ∧ aesNext s o = true ∧ o.page < 8 ∧ (pageGet s o.page).clearAt = none ∧ gateCheck s o = none ∧ (blockBytes (pageGet s o.page).th).take (dsSrcLen o.desc) = winRead s (dsSrc o.desc) (dsSrcLen o.desc) ∧ (pageGet s o.page).overrun = false ∧ 0 < caCount (dsParams o.desc) ∧ gateCovered (pageGet s o.page) (caCount (dsParams o.desc)) = true)
    ∧ (∃ (s : State) (tag : Fin 512) (o : Op), opFind s tag.val = some o ∧ o.result = none ∧ dsKind o.desc = 1 ∧ caFunc (dsParams o.desc) = 1 ∧ gateHeld s o = false ∧ aesNext s o = true ∧ o.page < 8 ∧ (pageGet s o.page).clearAt = none ∧ gateCheck s o = none ∧ (blockBytes (pageGet s o.page).th).take (dsSrcLen o.desc) ≠ winRead s (dsSrc o.desc) (dsSrcLen o.desc))
    ∧ (∃ (s : State) (tag : Fin 512) (o : Op), opFind s tag.val = some o ∧ o.result = none ∧ dsKind o.desc = 1 ∧ caFunc (dsParams o.desc) = 1 ∧ gateHeld s o = false ∧ aesNext s o = true ∧ o.page < 8 ∧ (pageGet s o.page).clearAt = none ∧ gateCheck s o = none ∧ (blockBytes (pageGet s o.page).th).take (dsSrcLen o.desc) = winRead s (dsSrc o.desc) (dsSrcLen o.desc) ∧ ((pageGet s o.page).overrun = true ∨ caCount (dsParams o.desc) = 0))
    ∧ (∃ (s : State) (tag : Fin 512) (o : Op), opFind s tag.val = some o ∧ o.result = none ∧ dsKind o.desc = 1 ∧ caFunc (dsParams o.desc) = 1 ∧ gateHeld s o = false ∧ aesNext s o = true ∧ o.page < 8 ∧ (pageGet s o.page).clearAt = none ∧ gateCheck s o = none ∧ (blockBytes (pageGet s o.page).th).take (dsSrcLen o.desc) = winRead s (dsSrc o.desc) (dsSrcLen o.desc) ∧ (pageGet s o.page).overrun = false ∧ 0 < caCount (dsParams o.desc) ∧ gateCovered (pageGet s o.page) (caCount (dsParams o.desc)) = false)
    ∧ (∃ (s : State) (page : Fin 8) (word : Word), word.getLsbD 0 = true ∧ s.job.ops.any (fun o => namesGate o && o.page = page.val && o.order < s.job.fetched && o.result.isNone) = false)
    ∧ (∃ (s : State) (o : Op), s.job.ops.find? (onEngine s) = some o ∧ opFind s o.tag = some o ∧ s.pwr.st = .startUp)
    ∧ (∃ (s : State) (o : Op), s.job.ops.find? (onEngine s) = some o ∧ s.pwr.st = .run ∧ ladderStep (policySec s) 7 (satInc 255 (vget s.tmp.count 7 0)) = 0) :=
  ⟨⟨{ jobS (dsc 1 0 8 0x3000 16 [1, 0, 0, 0, 0, 0, 16, 0]) with pages := vmod rngS.pages 0 (fun p => { p with hb := [(0, 7)], written := 1, covered := 1 }) }, 5, opOf (dsc 1 0 8 0x3000 16 [1, 0, 0, 0, 0, 0, 16, 0]), by decide +kernel⟩,
   ⟨{ jobS (dsc 1 0 8 0x3000 16 [1, 0, 0, 0, 0, 0, 16, 0]) with pages := vmod rngS.pages 0 (fun p => { p with hb := [(0, 7)], th := 1 <<< 64 }) }, 5, opOf (dsc 1 0 8 0x3000 16 [1, 0, 0, 0, 0, 0, 16, 0]), by decide +kernel⟩,
   ⟨{ jobS (dsc 1 0 8 0x3000 16 [1, 0, 0, 0, 0, 0, 16, 0]) with pages := vmod rngS.pages 0 (fun p => { p with hb := [(0, 7)], overrun := true }) }, 5, opOf (dsc 1 0 8 0x3000 16 [1, 0, 0, 0, 0, 0, 16, 0]), by decide +kernel⟩,
   ⟨{ jobS (dsc 1 0 8 0x3000 16 [1, 0, 0, 0, 0, 0, 16, 0]) with pages := vmod rngS.pages 0 (fun p => { p with hb := [(0, 7)], written := 1 }) }, 5, opOf (dsc 1 0 8 0x3000 16 [1, 0, 0, 0, 0, 0, 16, 0]), by decide +kernel⟩,
   ⟨runS, 3, 1, by decide +kernel⟩,
   ⟨{ jobS (dsc 1 0 8 0x3000 16 [1, 0, 0, 0, 0, 0, 16, 0]) with pwr.st := .startUp, cip.running := some 5 }, opOf (dsc 1 0 8 0x3000 16 [1, 0, 0, 0, 0, 0, 16, 0]), by decide +kernel⟩,
   ⟨{ jobS (dsc 1 0 8 0x3000 16 [1, 0, 0, 0, 0, 0, 16, 0]) with cip.running := some 5, set.policy := List.replicate 64 0 }, opOf (dsc 1 0 8 0x3000 16 [1, 0, 0, 0, 0, 0, 16, 0]), by decide +kernel⟩⟩

theorem test_witness_HashAndPublicKeyJobs :
    (∃ (s : State) (tag : Fin 512) (o : Op), hpkStart s tag.val 2 (fun _ => true) = some o ∧ opFind s tag.val = some o ∧ hashBad s o = false ∧ bit (u8 (dsParams o.desc) 1) 0 = true ∧ bit (u8 (dsParams o.desc) 1) 1 = true)
    ∧ (∃ (s : State) (tag : Fin 512) (o : Op), hpkStart s tag.val 2 (fun _ => true) = some o ∧ opFind s tag.val = some o ∧ hashBad s o = false ∧ bit (u8 (dsParams o.desc) 1) 0 = true ∧ bit (u8 (dsParams o.desc) 1) 1 = false ∧ o.page < 8)
    ∧ (∃ (s : State) (tag : Fin 512) (o : Op) (h : List (BitVec 64)) (n : Nat), hpkStart s tag.val 2 (fun _ => true) = some o ∧ opFind s tag.val = some o ∧ hashBad s o = false ∧ bit (u8 (dsParams o.desc) 1) 0 = false ∧ bit (u8 (dsParams o.desc) 1) 1 = true ∧ o.page < 8 ∧ (pageGet s o.page).hash = some (h, n))
    ∧ (∃ (s : State) (tag : Fin 512) (o : Op), hpkStart s tag.val 3 (fun p => rsOp p = 0 || rsOp p > 3) = some o ∧ opFind s tag.val = some o ∧ rsaCheck s o = none)
    ∧ (∃ (s : State) (tag : Fin 512) (o : Op), hpkStart s tag.val 3 (fun p => rsOp p = 1) = some o ∧ opFind s tag.val = some o ∧ rsaCheck s o = none)
    ∧ (∃ (s : State) (tag : Fin 512) (o : Op) (x : Status), hpkStart s tag.val 3 (fun p => rsOp p = 0 || rsOp p > 3) = some o ∧ opFind s tag.val = some o ∧ rsaCheck s o = some x)
    ∧ (∃ (s : State) (tag : Fin 512) (o : Op) (id : CrtKey × Bytes), hpkStart s tag.val 3 (fun p => rsOp p = 2) = some o ∧ opFind s tag.val = some o ∧ rsaFields s o = none ∧ s.ks.identity = some id ∧ s.boot.pufFail = false ∧ s.ks.root.isSome = true ∧ s.rng.latched = false ∧ 6 ≤ s.rng.queue.length)
    ∧ (∃ (s : State) (tag : Fin 512) (o : Op), hpkStart s tag.val 3 (fun p => rsOp p = 2) = some o ∧ opFind s tag.val = some o ∧ rsaFields s o = none ∧ s.ks.identity = none)
    ∧ (∃ (s : State) (tag : Fin 512) (o : Op) (id : CrtKey × Bytes), hpkStart s tag.val 3 (fun p => rsOp p = 3) = some o ∧ opFind s tag.val = some o ∧ rsaFields s o = none ∧ s.ks.identity = some id)
    ∧ (∃ (s : State) (tag : Fin 512) (o : Op), hpkStart s tag.val 3 (fun p => rsOp p = 3) = some o ∧ opFind s tag.val = some o ∧ rsaFields s o = none ∧ s.ks.identity = none) :=
  ⟨⟨jobS (dsc 2 0 3 0x3000 64 [0, 3]), 5, opOf (dsc 2 0 3 0x3000 64 [0, 3]), by decide +kernel⟩,
   ⟨jobS (dsc 2 0 128 0x3000 64 [0, 1]), 5, opOf (dsc 2 0 128 0x3000 64 [0, 1]), by decide +kernel⟩,
   ⟨{ jobS (dsc 2 0 3 0x3000 64 [0, 2]) with pages := vmod rngS.pages 0 (fun p => { p with hash := some (shaInit, 0) }) }, 5, opOf (dsc 2 0 3 0x3000 64 [0, 2]), shaInit, 0, by decide +kernel⟩,
   ⟨{ jobS (dsc 3 0 16 0x3000 672 ([0, 0, 0, 0] ++ leBytes 4 0x10000 ++ leBytes 4 0x20000 ++ leBytes 4 0x30000)) with win := memSetBytes 0 [] 0x10000 [3, 0, 0, 0, 0x80] }, 5, opOf (dsc 3 0 16 0x3000 672 ([0, 0, 0, 0] ++ leBytes 4 0x10000 ++ leBytes 4 0x20000 ++ leBytes 4 0x30000)), by decide +kernel⟩,
   ⟨{ jobS (dsc 3 0 64 0x3000 672 ([1, 0, 0, 0] ++ leBytes 4 0x10000 ++ leBytes 4 0x20000 ++ leBytes 4 0x30000)) with win := memSetBytes 0 [] 0x10000 [3, 0, 0, 0, 0x80] }, 5, opOf (dsc 3 0 64 0x3000 672 ([1, 0, 0, 0] ++ leBytes 4 0x10000 ++ leBytes 4 0x20000 ++ leBytes 4 0x30000)), by decide +kernel⟩,
   ⟨jobS (dsc 3 0 16 0x3000 672 ([0, 0, 0, 0] ++ leBytes 4 0x10000 ++ leBytes 4 0x20000 ++ leBytes 4 0x30000)), 5, opOf (dsc 3 0 16 0x3000 672 ([0, 0, 0, 0] ++ leBytes 4 0x10000 ++ leBytes 4 0x20000 ++ leBytes 4 0x30000)), .badDesc, by decide +kernel⟩,
   ⟨{ jobS (dsc 3 0 0 0x3000 672 ([2, 0, 0, 0] ++ leBytes 4 0x10000 ++ leBytes 4 0x20000 ++ leBytes 4 0x30000)) with ks.identity := some ({ p := 3, q := 5, dP := 1, dQ := 1, qInv := 2 }, [0x30, 0x82]), ks.root := some 1 }, 5, opOf (dsc 3 0 0 0x3000 672 ([2, 0, 0, 0] ++ leBytes 4 0x10000 ++ leBytes 4 0x20000 ++ leBytes 4 0x30000)), ({ p := 3, q := 5, dP := 1, dQ := 1, qInv := 2 }, [0x30, 0x82]), by decide +kernel⟩,
   ⟨jobS (dsc 3 0 0 0x3000 672 ([2, 0, 0, 0] ++ leBytes 4 0x10000 ++ leBytes 4 0x20000 ++ leBytes 4 0x30000)), 5, opOf (dsc 3 0 0 0x3000 672 ([2, 0, 0, 0] ++ leBytes 4 0x10000 ++ leBytes 4 0x20000 ++ leBytes 4 0x30000)), by decide +kernel⟩,
   ⟨{ jobS (dsc 3 0 0 0x3000 672 ([3, 0, 0, 0] ++ leBytes 4 0x10000 ++ leBytes 4 0x20000 ++ leBytes 4 0x30000)) with ks.identity := some ({ p := 3, q := 5, dP := 1, dQ := 1, qInv := 2 }, [0x30, 0x82]), ks.root := some 1 }, 5, opOf (dsc 3 0 0 0x3000 672 ([3, 0, 0, 0] ++ leBytes 4 0x10000 ++ leBytes 4 0x20000 ++ leBytes 4 0x30000)), ({ p := 3, q := 5, dP := 1, dQ := 1, qInv := 2 }, [0x30, 0x82]), by decide +kernel⟩,
   ⟨jobS (dsc 3 0 0 0x3000 672 ([3, 0, 0, 0] ++ leBytes 4 0x10000 ++ leBytes 4 0x20000 ++ leBytes 4 0x30000)), 5, opOf (dsc 3 0 0 0x3000 672 ([3, 0, 0, 0] ++ leBytes 4 0x10000 ++ leBytes 4 0x20000 ++ leBytes 4 0x30000)), by decide +kernel⟩⟩

theorem test_witness_RecordJobs :
    (∃ (s : State) (tag : Fin 512) (o : Op), nvStart s tag.val (fun k => k = 0 || k > 4) = some o ∧ nvCheck s o = none ∧ opFind s tag.val = some o ∧ select s (nvId (dsParams o.desc)) = .absent)
    ∧ (∃ (s : State) (tag : Fin 512) (o : Op) (c : Copy) (u : Bool), nvStart s tag.val (fun k => k = 0 || k > 4) = some o ∧ nvCheck s o = none ∧ opFind s tag.val = some o ∧ select s (nvId (dsParams o.desc)) = .copy c u false)
    ∧ (∃ (s : State) (tag : Fin 512) (o : Op) (c : Copy) (u : Bool), nvStart s tag.val (fun k => k = 0 || k > 4) = some o ∧ nvCheck s o = none ∧ opFind s tag.val = some o ∧ select s (nvId (dsParams o.desc)) = .copy c u true)
    ∧ (∃ (s : State) (tag : Fin 512) (o : Op), nvStart s tag.val (fun k => k = 0 || k > 4) = some o ∧ nvCheck s o = none ∧ opFind s tag.val = some o ∧ select s (nvId (dsParams o.desc)) = .bad)
    ∧ (∃ (s : State) (tag : Fin 512) (o : Op) (mv : Nat), nvStart (seeVhold mv s) tag.val (· = 1) = some o ∧ nvCheck (seeVhold mv s) o = none ∧ opFind s tag.val = some o ∧ energyOk false (copyGroups (winRead s (dsSrc o.desc) (dsSrcLen o.desc)).length) (noteSel (select s (nvId (dsParams o.desc))) (seeVhold mv s)) = false)
    ∧ (∃ (s : State) (tag : Fin 512) (o : Op) (mv : Nat) (f : Nat), nvStart (seeVhold mv s) tag.val (· = 1) = some o ∧ nvCheck (seeVhold mv s) o = none ∧ opFind s tag.val = some o ∧ select s (nvId (dsParams o.desc)) = .absent ∧ energyOk false (copyGroups (winRead s (dsSrc o.desc) (dsSrcLen o.desc)).length) (seeVhold mv s) = true ∧ findRun s.nvm.lower s.nvm.freeLower (copyFrames (winRead s (dsSrc o.desc) (dsSrcLen o.desc)).length) = some f) :=
  ⟨⟨{ nvS (dsc 5 0 0 0x3000 248 ([0, 0] ++ leBytes 2 49152 ++ leBytes 4 0)) with job.ops := [{ opOf (dsc 5 0 0 0x3000 248 ([0, 0] ++ leBytes 2 49152 ++ leBytes 4 0)) with page := 1 }] }, 5, { opOf (dsc 5 0 0 0x3000 248 ([0, 0] ++ leBytes 2 49152 ++ leBytes 4 0)) with page := 1 }, by decide +kernel⟩,
   ⟨{ { nvS (dsc 5 0 0 0x3000 248 ([0, 0] ++ leBytes 2 49152 ++ leBytes 4 0)) with job.ops := [{ opOf (dsc 5 0 0 0x3000 248 ([0, 0] ++ leBytes 2 49152 ++ leBytes 4 0)) with page := 1 }] } with nvm.lower := [cpy 0xC000] }, 5, { opOf (dsc 5 0 0 0x3000 248 ([0, 0] ++ leBytes 2 49152 ++ leBytes 4 0)) with page := 1 }, cpy 0xC000, false, by decide +kernel⟩,
   ⟨{ { nvS (dsc 5 0 0 0x3000 248 ([0, 0] ++ leBytes 2 49152 ++ leBytes 4 0)) with job.ops := [{ opOf (dsc 5 0 0 0x3000 248 ([0, 0] ++ leBytes 2 49152 ++ leBytes 4 0)) with page := 1 }] } with nvm.lower := [cpy 0xC000], nvm.upper := [{ cpy 0xC000 with data := [9] }] }, 5, { opOf (dsc 5 0 0 0x3000 248 ([0, 0] ++ leBytes 2 49152 ++ leBytes 4 0)) with page := 1 }, cpy 0xC000, false, by decide +kernel⟩,
   ⟨{ { nvS (dsc 5 0 0 0x3000 248 ([0, 0] ++ leBytes 2 49152 ++ leBytes 4 0)) with job.ops := [{ opOf (dsc 5 0 0 0x3000 248 ([0, 0] ++ leBytes 2 49152 ++ leBytes 4 0)) with page := 1 }] } with nvm.lower := [{ cpy 0xC000 with ok := false }] }, 5, { opOf (dsc 5 0 0 0x3000 248 ([0, 0] ++ leBytes 2 49152 ++ leBytes 4 0)) with page := 1 }, by decide +kernel⟩,
   ⟨{ nvS (dsc 5 0 4 0x3000 248 ([1, 0] ++ leBytes 2 49152 ++ leBytes 4 0)) with job.ops := [{ opOf (dsc 5 0 4 0x3000 248 ([1, 0] ++ leBytes 2 49152 ++ leBytes 4 0)) with page := 1 }] }, 5, { opOf (dsc 5 0 4 0x3000 248 ([1, 0] ++ leBytes 2 49152 ++ leBytes 4 0)) with page := 1 }, 4000, by decide +kernel⟩,
   ⟨{ nvS (dsc 5 0 4 0x3000 248 ([1, 0] ++ leBytes 2 49152 ++ leBytes 4 0)) with job.ops := [{ opOf (dsc 5 0 4 0x3000 248 ([1, 0] ++ leBytes 2 49152 ++ leBytes 4 0)) with page := 1 }] }, 5, { opOf (dsc 5 0 4 0x3000 248 ([1, 0] ++ leBytes 2 49152 ++ leBytes 4 0)) with page := 1 }, 15000, 0, by decide +kernel⟩⟩

theorem test_witness_CounterJobs :
    (∃ (s : State) (tag : Fin 512) (o : Op), nvStart s tag.val (· = 2) = some o ∧ nvCheck s o = none ∧ opFind s tag.val = some o ∧ (ctrGet s (nvId (dsParams o.desc))).readable = true)
    ∧ (∃ (s : State) (tag : Fin 512) (o : Op), nvStart s tag.val (· = 2) = some o ∧ nvCheck s o = none ∧ opFind s tag.val = some o ∧ (ctrGet s (nvId (dsParams o.desc))).readable = false)
    ∧ (∃ (s : State) (tag : Fin 512) (o : Op) (mv : Nat) (v : Nat), nvStart (seeVhold mv s) tag.val (· = 3) = some o ∧ nvCheck (seeVhold mv s) o = none ∧ opFind s tag.val = some o ∧ (ctrRead (nvId (dsParams o.desc)) (seeVhold mv s)).1 = some v ∧ energyOk false 1 (ctrRead (nvId (dsParams o.desc)) (seeVhold mv s)).2 = true ∧ v < 2 ^ 32 - 1)
    ∧ (∃ (s : State) (tag : Fin 512) (o : Op) (mv : Nat) (v : Nat), nvStart (seeVhold mv s) tag.val (· = 3) = some o ∧ nvCheck (seeVhold mv s) o = none ∧ opFind s tag.val = some o ∧ (ctrRead (nvId (dsParams o.desc)) (seeVhold mv s)).1 = some v ∧ energyOk false 1 (ctrRead (nvId (dsParams o.desc)) (seeVhold mv s)).2 = true ∧ 2 ^ 32 - 1 ≤ v)
    ∧ (∃ (s : State) (tag : Fin 512) (o : Op) (mv : Nat) (v : Nat), nvStart (seeVhold mv s) tag.val (· = 3) = some o ∧ nvCheck (seeVhold mv s) o = none ∧ opFind s tag.val = some o ∧ (ctrRead (nvId (dsParams o.desc)) (seeVhold mv s)).1 = some v ∧ energyOk false 1 (ctrRead (nvId (dsParams o.desc)) (seeVhold mv s)).2 = false)
    ∧ (∃ (s : State) (tag : Fin 512) (o : Op) (mv : Nat), nvStart (seeVhold mv s) tag.val (· = 3) = some o ∧ nvCheck (seeVhold mv s) o = none ∧ opFind s tag.val = some o ∧ (ctrGet s (nvId (dsParams o.desc))).readable = false)
    ∧ (∃ (s : State) (tag : Fin 512) (o : Op) (mv : Nat) (v : Nat), nvStart (seeVhold mv s) tag.val (· = 4) = some o ∧ nvCheck (seeVhold mv s) o = none ∧ opFind s tag.val = some o ∧ (ctrRead (nvId (dsParams o.desc)) (seeVhold mv s)).1 = some v ∧ nvValue (dsParams o.desc) ≤ v)
    ∧ (∃ (s : State) (tag : Fin 512) (o : Op) (mv : Nat) (v : Nat), nvStart (seeVhold mv s) tag.val (· = 4) = some o ∧ nvCheck (seeVhold mv s) o = none ∧ opFind s tag.val = some o ∧ (ctrRead (nvId (dsParams o.desc)) (seeVhold mv s)).1 = some v ∧ energyOk false 1 (ctrRead (nvId (dsParams o.desc)) (seeVhold mv s)).2 = false ∧ v < nvValue (dsParams o.desc))
    ∧ (∃ (s : State) (tag : Fin 512) (o : Op) (mv : Nat) (v : Nat), nvStart (seeVhold mv s) tag.val (· = 4) = some o ∧ nvCheck (seeVhold mv s) o = none ∧ opFind s tag.val = some o ∧ (ctrRead (nvId (dsParams o.desc)) (seeVhold mv s)).1 = some v ∧ energyOk false 1 (ctrRead (nvId (dsParams o.desc)) (seeVhold mv s)).2 = true) :=
  ⟨⟨{ nvS (dsc 5 0 0 0x3000 8 ([2, 0] ++ leBytes 2 3 ++ leBytes 4 0)) with job.ops := [{ opOf (dsc 5 0 0 0x3000 8 ([2, 0] ++ leBytes 2 3 ++ leBytes 4 0)) with page := 0 }] }, 5, { opOf (dsc 5 0 0 0x3000 8 ([2, 0] ++ leBytes 2 3 ++ leBytes 4 0)) with page := 0 }, by decide +kernel⟩,
   ⟨{ { nvS (dsc 5 0 0 0x3000 8 ([2, 0] ++ leBytes 2 3 ++ leBytes 4 0)) with job.ops := [{ opOf (dsc 5 0 0 0x3000 8 ([2, 0] ++ leBytes 2 3 ++ leBytes 4 0)) with page := 0 }] } with nvm.ctrs := vset rngS.nvm.ctrs 3 { Ctr.fresh with v0 := false, v1 := false } }, 5, { opOf (dsc 5 0 0 0x3000 8 ([2, 0] ++ leBytes 2 3 ++ leBytes 4 0)) with page := 0 }, by decide +kernel⟩,
   ⟨{ nvS (dsc 5 0 0 0x3000 8 ([3, 0] ++ leBytes 2 3 ++ leBytes 4 0)) with job.ops := [{ opOf (dsc 5 0 0 0x3000 8 ([3, 0] ++ leBytes 2 3 ++ leBytes 4 0)) with page := 0 }] }, 5, { opOf (dsc 5 0 0 0x3000 8 ([3, 0] ++ leBytes 2 3 ++ leBytes 4 0)) with page := 0 }, 15000, 0, by decide +kernel⟩,
   ⟨{ { nvS (dsc 5 0 0 0x3000 8 ([3, 0] ++ leBytes 2 3 ++ leBytes 4 0)) with job.ops := [{ opOf (dsc 5 0 0 0x3000 8 ([3, 0] ++ leBytes 2 3 ++ leBytes 4 0)) with page := 0 }] } with nvm.ctrs := vset rngS.nvm.ctrs 3 { Ctr.fresh with b0 := 4294967295 } }, 5, { opOf (dsc 5 0 0 0x3000 8 ([3, 0] ++ leBytes 2 3 ++ leBytes 4 0)) with page := 0 }, 15000, 4294967295, by decide +kernel⟩,
   ⟨{ nvS (dsc 5 0 0 0x3000 8 ([3, 0] ++ leBytes 2 3 ++ leBytes 4 0)) with job.ops := [{ opOf (dsc 5 0 0 0x3000 8 ([3, 0] ++ leBytes 2 3 ++ leBytes 4 0)) with page := 0 }] }, 5, { opOf (dsc 5 0 0 0x3000 8 ([3, 0] ++ leBytes 2 3 ++ leBytes 4 0)) with page := 0 }, 4000, 0, by decide +kernel⟩,
   ⟨{ { nvS (dsc 5 0 0 0x3000 8 ([3, 0] ++ leBytes 2 3 ++ leBytes 4 0)) with job.ops := [{ opOf (dsc 5 0 0 0x3000 8 ([3, 0] ++ leBytes 2 3 ++ leBytes 4 0)) with page := 0 }] } with nvm.ctrs := vset rngS.nvm.ctrs 3 { Ctr.fresh with v0 := false, v1 := false } }, 5, { opOf (dsc 5 0 0 0x3000 8 ([3, 0] ++ leBytes 2 3 ++ leBytes 4 0)) with page := 0 }, 15000, by decide +kernel⟩,
   ⟨{ { nvS (dsc 5 0 0 0x3000 8 ([4, 0] ++ leBytes 2 3 ++ leBytes 4 9)) with job.ops := [{ opOf (dsc 5 0 0 0x3000 8 ([4, 0] ++ leBytes 2 3 ++ leBytes 4 9)) with page := 0 }] } with nvm.ctrs := vset rngS.nvm.ctrs 3 { Ctr.fresh with b0 := 20 } }, 5, { opOf (dsc 5 0 0 0x3000 8 ([4, 0] ++ leBytes 2 3 ++ leBytes 4 9)) with page := 0 }, 4000, 20, by decide +kernel⟩,
   ⟨{ nvS (dsc 5 0 0 0x3000 8 ([4, 0] ++ leBytes 2 3 ++ leBytes 4 9)) with job.ops := [{ opOf (dsc 5 0 0 0x3000 8 ([4, 0] ++ leBytes 2 3 ++ leBytes 4 9)) with page := 0 }] }, 5, { opOf (dsc 5 0 0 0x3000 8 ([4, 0] ++ leBytes 2 3 ++ leBytes 4 9)) with page := 0 }, 4000, 0, by decide +kernel⟩,
   ⟨{ nvS (dsc 5 0 0 0x3000 8 ([4, 0] ++ leBytes 2 3 ++ leBytes 4 9)) with job.ops := [{ opOf (dsc 5 0 0 0x3000 8 ([4, 0] ++ leBytes 2 3 ++ leBytes 4 9)) with page := 0 }] }, 5, { opOf (dsc 5 0 0 0x3000 8 ([4, 0] ++ leBytes 2 3 ++ leBytes 4 9)) with page := 0 }, 15000, 0, by decide +kernel⟩⟩

theorem test_witness_RecordLayerBackground :
    (∃ (s : State) (n : Fin 128) (mv : Nat), nvmOn s = true ∧ s.sup.measured = true ∧ s.job.ops.any (fun o => dsKind o.desc = 5 && nvWrites o && o.result.isNone) = false ∧ (ctrGet s n.val).preclear.isSome = true ∧ energyOk false 16 (seeVhold mv s) = true)
    ∧ (∃ (s : State) (n : Fin 128) (mv : Nat), nvmOn s = true ∧ s.sup.measured = true ∧ s.job.ops.any (fun o => dsKind o.desc = 5 && nvWrites o && o.result.isNone) = false ∧ (ctrGet s n.val).preclear.isSome = true ∧ energyOk false 16 (seeVhold mv s) = false)
    ∧ (∃ (s : State) (mv : Nat) (rid : Nat) (u : Bool) (r : List (Nat × Bool)), nvmOn s = true ∧ s.sup.measured = true ∧ s.job.ops.any (fun o => dsKind o.desc = 5 && nvWrites o && o.result.isNone) = false ∧ s.nvm.refresh = (rid, u) :: r ∧ s.nvm.ledger = none ∧ energyOk false (match bankCopy (if u then s.nvm.upper else s.nvm.lower) rid with | some c => copyGroups c.data.length | none => 0) (seeVhold mv s) = true)
    ∧ (∃ (s : State) (mv : Nat) (rid : Nat) (u : Bool) (r : List (Nat × Bool)), nvmOn s = true ∧ s.sup.measured = true ∧ s.job.ops.any (fun o => dsKind o.desc = 5 && nvWrites o && o.result.isNone) = false ∧ s.nvm.refresh = (rid, u) :: r ∧ energyOk false (match bankCopy (if u then s.nvm.upper else s.nvm.lower) rid with | some c => copyGroups c.data.length | none => 0) (seeVhold mv s) = false)
    ∧ (∃ (s : State) (mv : Nat) (x : Bool × Nat × Nat × Nat) (r : List (Bool × Nat × Nat × Nat)), nvmOn s = true ∧ s.sup.measured = true ∧ s.job.ops.any (fun o => dsKind o.desc = 5 && nvWrites o && o.result.isNone) = false ∧ s.nvm.freeing = x :: r ∧ energyOk false x.2.2.1 (seeVhold mv s) = false)
    ∧ (∃ (s : State) (mv : Nat) (x : Bool × Nat × Nat × Nat) (r : List (Bool × Nat × Nat × Nat)), nvmOn s = true ∧ s.sup.measured = true ∧ s.job.ops.any (fun o => dsKind o.desc = 5 && nvWrites o && o.result.isNone) = false ∧ s.nvm.freeing = x :: r ∧ energyOk false x.2.2.1 (seeVhold mv s) = true) :=
  ⟨⟨{ nvS [] with job.ops := [], nvm.ctrs := vset rngS.nvm.ctrs 3 { Ctr.fresh with b0 := 20, t1 := 16, preclear := some 1 } }, 3, 15000, by decide +kernel⟩,
   ⟨{ nvS [] with job.ops := [], nvm.ctrs := vset rngS.nvm.ctrs 3 { Ctr.fresh with b0 := 20, t1 := 16, preclear := some 1 } }, 3, 4000, by decide +kernel⟩,
   ⟨{ nvS [] with job.ops := [], nvm.lower := [cpy 0xC000], nvm.refresh := [(0xC000, false)] }, 15000, 0xC000, false, [], by decide +kernel⟩,
   ⟨{ nvS [] with job.ops := [], nvm.lower := [cpy 0xC000], nvm.refresh := [(0xC000, false)] }, 4000, 0xC000, false, [], by decide +kernel⟩,
   ⟨{ nvS [] with job.ops := [], nvm.freeing := [(false, 7, 2, 30)] }, 4000, (false, 7, 2, 30), [], by decide +kernel⟩,
   ⟨{ nvS [] with job.ops := [], nvm.freeing := [(false, 7, 2, 30)] }, 15000, (false, 7, 2, 30), [], by decide +kernel⟩⟩

theorem test_witness_GeneratorQueue :
    (∃ (s : State) (tag : Fin 512) (o : Op), opLive s tag.val 4 = some o ∧ opFind s tag.val = some o ∧ engineNext (fun x => dsKind x.desc = 4) s o = true ∧ rngFails s = false ∧ (dsDstLen o.desc + 15) / 16 ≤ s.rng.queue.length)
    ∧ (∃ (s : State) (tag : Fin 512) (o : Op), opLive s tag.val 4 = some o ∧ opFind s tag.val = some o ∧ engineNext (fun x => dsKind x.desc = 4) s o = true ∧ rngFails s = true)
    ∧ (∃ (s : State), secOn s = true ∧ rngServes s = true ∧ s.rng.queue.length ≤ 56)
    ∧ (∃ (s : State), 65536 ≤ s.rng.requests ∧ s.rng.seeded = true ∧ s.rng.recovering = false ∧ s.rng.reinst = false ∧ s.rng.latched = false ∧ secOn s = true ∧ s.acc.seqn = none ∧ s.acc.remotes = [])
    ∧ (∃ (s : State) (page : Fin 8) (w : BitVec 128) (q : List (BitVec 128)), pageLive s page.val = true ∧ page = 1 ∧ s.rng.queue = w :: q)
    ∧ (∃ (s : State) (page : Fin 8), pageLive s page.val = true ∧ page = 1 ∧ s.rng.queue = [])
    ∧ (∃ (s : State) (page : Fin 8), pageLive s page.val = true ∧ page = 1)
    ∧ (∃ (s : State) (page : Fin 8), pageLive s page.val = true ∧ page ≠ 1) :=
  ⟨⟨jobS (dsc 4 0 0 0x3000 20 []), 5, opOf (dsc 4 0 0 0x3000 20 []), by decide +kernel⟩,
   ⟨{ jobS (dsc 4 0 0 0x3000 20 []) with rng.latched := true }, 5, opOf (dsc 4 0 0 0x3000 20 []), by decide +kernel⟩,
   ⟨rngS, by decide +kernel⟩,
   ⟨{ rngS with rng.requests := 65536 }, by decide +kernel⟩,
   ⟨rngS, 1, 1, [2, 3, 4, 5, 6, 7, 8, 9, 10], by decide +kernel⟩,
   ⟨runS, 1, by decide +kernel⟩,
   ⟨{ rngS with rng.data := 0x123456789ABCDEF }, 1, by decide +kernel⟩,
   ⟨rngS, 2, by decide +kernel⟩⟩

theorem test_witness_GeneratorFailures :
    (∃ (s : State), secOn s = true ∧ s.acc.seqn = none ∧ s.acc.remotes = [] ∧ s.rng.latched = false ∧ s.rng.sourceOn = true ∧ s.rng.failRun < 2)
    ∧ (∃ (s : State), secOn s = true ∧ s.acc.seqn = none ∧ s.acc.remotes = [] ∧ s.rng.latched = false ∧ s.rng.sourceOn = true ∧ 2 ≤ s.rng.failRun)
    ∧ (∃ (s : State), secOn s = true ∧ s.acc.seqn = none ∧ s.acc.remotes = [] ∧ s.rng.latched = false ∧ s.rng.recovering = true)
    ∧ (∃ (s : State), secOn s = true ∧ s.acc.seqn = none ∧ s.acc.remotes = [] ∧ s.rng.latched = false ∧ s.rng.reinst = true) :=
  ⟨⟨rngS, by decide +kernel⟩,
   ⟨{ rngS with rng.failRun := 2 }, by decide +kernel⟩,
   ⟨{ rngS with rng.recovering := true }, by decide +kernel⟩,
   ⟨{ rngS with rng.reinst := true }, by decide +kernel⟩⟩

theorem test_witness_TamperWatch_1 :
    (∃ (s : State) (pin : Fin 4), (vget s.tmp.mode pin.val 0 = 1 ∨ vget s.tmp.mode pin.val 0 = 2 ∨ (vget s.tmp.mode pin.val 0 = 4 ∧ s.pwr.st = .fallow)) ∧ s.tmp.onset.getLsbD pin.val = false ∧ s.pwr.st ≠ .startUp ∧ s.pwr.st ≠ .waitNoPair ∧ ladderStep (policySec s) pin.val (satInc 255 (vget s.tmp.count pin.val 0)) = 0)
    ∧ (∃ (s : State) (pin : Fin 4), (vget s.tmp.mode pin.val 0 = 1 ∨ vget s.tmp.mode pin.val 0 = 2 ∨ (vget s.tmp.mode pin.val 0 = 4 ∧ s.pwr.st = .fallow)) ∧ s.tmp.onset.getLsbD pin.val = false ∧ s.pwr.st ≠ .startUp ∧ s.pwr.st ≠ .waitNoPair ∧ ladderStep (policySec s) pin.val (satInc 255 (vget s.tmp.count pin.val 0)) = 4 ∧ poAction (policySec s) pin.val % 4 = 0)
    ∧ (∃ (s : State) (pin : Fin 4), (vget s.tmp.mode pin.val 0 = 1 ∨ vget s.tmp.mode pin.val 0 = 2 ∨ (vget s.tmp.mode pin.val 0 = 4 ∧ s.pwr.st = .fallow)) ∧ s.tmp.onset.getLsbD pin.val = false ∧ (s.pwr.st = .startUp ∨ s.pwr.st = .waitNoPair))
    ∧ (∃ (s : State) (pin : Fin 4), s.tmp.onset.getLsbD pin.val = true)
    ∧ (∃ (s : State) (pair : Fin 2), vget s.tmp.mode (2 * pair.val) 0 = 3 ∧ s.pwr.st = .run ∧ vget s.tmp.diff pair.val 0 = 0)
    ∧ (∃ (s : State) (pair : Fin 2), vget s.tmp.mode (2 * pair.val) 0 = 3 ∧ s.pwr.st = .run ∧ 1 ≤ vget s.tmp.diff pair.val 0 ∧ s.tmp.onset.getLsbD (2 * pair.val + 1) = false ∧ ladderStep (policySec s) (2 * pair.val + 1) (satInc 255 (vget s.tmp.count (2 * pair.val + 1) 0)) = 0)
    ∧ (∃ (s : State) (pair : Fin 2), vget s.tmp.mode (2 * pair.val) 0 = 3 ∧ s.pwr.st = .run)
    ∧ (∃ (s : State), s.tmp.onset.getLsbD 4 = false ∧ (s.pwr.st = .startUp ∨ s.pwr.st = .waitNoPair)) :=
  ⟨⟨{ rngS with set.policy := polT 0, tmp.mode := Vector.replicate 4 1 }, 2, by decide +kernel⟩,
   ⟨{ rngS with set.policy := polT 4, tmp.mode := Vector.replicate 4 1 }, 1, by decide +kernel⟩,
   ⟨{ rngS with pwr.st := .startUp, tmp.mode := Vector.replicate 4 1 }, 1, by exact ⟨by decide +kernel, by decide +kernel, .inl rfl⟩⟩,
   ⟨{ rngS with tmp.onset := 255 }, 1, by decide +kernel⟩,
   ⟨{ rngS with tmp.mode := Vector.replicate 4 3 }, 1, by decide +kernel⟩,
   ⟨{ rngS with tmp.mode := Vector.replicate 4 3, tmp.diff := Vector.replicate 2 1, set.policy := polT 0 }, 1, by decide +kernel⟩,
   ⟨{ rngS with tmp.mode := Vector.replicate 4 3 }, 1, by decide +kernel⟩,
   ⟨{ rngS with pwr.st := .startUp }, by decide +kernel⟩⟩

theorem test_witness_TamperWatch_2 :
    (∃ (s : State), s.tmp.onset.getLsbD 4 = true)
    ∧ (∃ (s : State), s.tmp.onset.getLsbD 4 = false ∧ s.pwr.st ≠ .startUp ∧ s.pwr.st ≠ .waitNoPair ∧ poAction (policySec s) 4 % 4 = 0)
    ∧ (∃ (s : State), s.tmp.onset.getLsbD 4 = false ∧ s.pwr.st ≠ .startUp ∧ s.pwr.st ≠ .waitNoPair ∧ ladderStep (policySec s) 4 (satInc 255 (vget s.tmp.count 4 0)) = 1 ∧ poAction (policySec s) 4 % 4 = 0)
    ∧ (∃ (s : State), s.tmp.onset.getLsbD 5 = false ∧ monitored s = true ∧ s.pwr.st ≠ .startUp ∧ s.pwr.st ≠ .waitNoPair ∧ ladderStep (policySec s) 5 (satInc 255 (vget s.tmp.count 5 0)) = 0)
    ∧ (∃ (s : State), (monitored s = false ∨ (s.pwr.st = .startUp ∧ s.boot.step < 3)))
    ∧ (∃ (s : State), monitored s = false)
    ∧ (∃ (s : State), s.pwr.st = .startUp ∧ 3 ≤ s.boot.step ∧ s.tmp.onset.getLsbD 5 = false)
    ∧ (∃ (s : State) (tj : Int), s.tmp.onset.getLsbD 6 = false ∧ monitored s = true ∧ s.pwr.st ≠ .startUp ∧ s.pwr.st ≠ .waitNoPair ∧ ladderStep (policySec s) 6 (satInc 255 (vget s.tmp.count 6 0)) = 0 ∧ (tj < -55 ∨ 170 < tj)) :=
  ⟨⟨{ rngS with tmp.onset := 255 }, by decide +kernel⟩,
   ⟨{ rngS with set.policy := polT 2, tmp.mode := Vector.replicate 4 1 }, by decide +kernel⟩,
   ⟨{ rngS with set.policy := polT 1, tmp.mode := Vector.replicate 4 1 }, by decide +kernel⟩,
   ⟨{ rngS with set.policy := polT 0, tmp.mode := Vector.replicate 4 1 }, by decide +kernel⟩,
   ⟨{ rngS with pwr.st := .fallow }, by decide +kernel⟩,
   ⟨{ rngS with pwr.st := .fallow }, by decide +kernel⟩,
   ⟨{ rngS with pwr.st := .startUp }, by decide +kernel⟩,
   ⟨{ rngS with set.policy := polT 0, tmp.mode := Vector.replicate 4 1 }, 171, by decide +kernel⟩⟩

theorem test_witness_TamperWatch_3 :
    (∃ (s : State) (tj : Int), monitored s = true ∧ -55 ≤ tj ∧ tj ≤ 170)
    ∧ (∃ (ns : Nat), 1000000 ≤ ns)
    ∧ (∃ (ns : Nat), ns < 1000000)
    ∧ (∃ (s : State) (mv : Nat), s.pwr.st ≠ .startUp ∧ s.pwr.st ≠ .waitNoPair ∧ s.tmp.erasePending = 0 ∧ s.tmp.heldLatch = true ∧ s.tmp.heldLog = [] ∧ (latchWrite (seeVhold mv s)).1 = true)
    ∧ (∃ (s : State) (mv : Nat) (c : Fin 4), s.pwr.st ≠ .startUp ∧ s.pwr.st ≠ .waitNoPair ∧ s.tmp.erasePending = onBit 4 c.val ∧ s.tmp.heldLatch = false ∧ s.tmp.heldLog = [] ∧ (classErase c.val (seeVhold mv s)).1 = true) :=
  ⟨⟨rngS, -55, by decide +kernel⟩,
   ⟨1000000, by decide +kernel⟩,
   ⟨999999, by decide +kernel⟩,
   ⟨{ nvS [] with tmp.heldLatch := true }, 15000, by decide +kernel⟩,
   ⟨{ nvS [] with tmp.erasePending := 4 }, 15000, 2, by decide +kernel⟩⟩

theorem test_witness_FrameForwarding :
    (∃ (s : State) (port : Fin 9) (bytes : Bytes), swOn s = true ∧ ((port.val = 8 ∨ (portGet s port.val).rate ≠ 0)) ∧ (bytes.length < 4 ∨ fcs (bytes.take (bytes.length - 4)) ≠ bytes.drop (bytes.length - 4)))
    ∧ (∃ (s : State) (port : Fin 9) (bytes : Bytes), swOn s = true ∧ ((port.val = 8 ∨ (portGet s port.val).rate ≠ 0)) ∧ 4 ≤ bytes.length ∧ fcs (bytes.take (bytes.length - 4)) = bytes.drop (bytes.length - 4) ∧ (bytes.length < 64 ∨ 1522 < bytes.length))
    ∧ (∃ (s : State) (port : Fin 9) (bytes : Bytes), let f := bytes.take (bytes.length - 4); swOn s = true ∧ ((port.val = 8 ∨ (portGet s port.val).rate ≠ 0)) ∧ 64 ≤ bytes.length ∧ bytes.length ≤ 1522 ∧ fcs f = bytes.drop (bytes.length - 4) ∧ macReserved (frDa f) = true)
    ∧ (∃ (s : State) (port : Fin 9) (bytes : Bytes), let f := bytes.take (bytes.length - 4);
    let vid := if frVid f = 0 then pvidOf s port.val else frVid f; swOn s = true ∧ ((port.val = 8 ∨ (portGet s port.val).rate ≠ 0)) ∧ 64 ≤ bytes.length ∧ bytes.length ≤ 1522 ∧ fcs f = bytes.drop (bytes.length - 4) ∧ macReserved (frDa f) = false ∧ (vlanOf (netSec s) vid = none ∨ (vlanOf (netSec s) vid).any (fun v => v.1.testBit port.val) = false))
    ∧ (∃ (s : State) (port : Fin 9) (bytes : Bytes) (member : Nat) (untag : Nat) (q : Nat), let f := bytes.take (bytes.length - 4);
    let vid := if frVid f = 0 then pvidOf s port.val else frVid f; swOn s = true ∧ ((port.val = 8 ∨ (portGet s port.val).rate ≠ 0)) ∧ 64 ≤ bytes.length ∧ bytes.length ≤ 1522 ∧ fcs f = bytes.drop (bytes.length - 4) ∧ macReserved (frDa f) = false ∧ vlanOf (netSec s) vid = some (member, untag) ∧ member.testBit port.val = true ∧ (flowMatch (netSec s) port.val (frDa f) (frSa f) vid = none ∨ port.val = 8) ∧ q < 8 ∧ q ≠ port.val ∧ egressMask (learn port.val vid (frSa f) s) port.val vid member (frDa f) = 2 ^ q ∧ (portGet s q).rate ≠ 0 ∧ admits s q (classOf (netSec s) port.val (if frVid f = 0 then defPcp (netSec s) port.val else frPcp f)) (if untag.testBit q then frUntag f else frTag f (if frVid f = 0 then defPcp (netSec s) port.val else frPcp f) vid) = true)
    ∧ (∃ (s : State) (port : Fin 9), (swOn s = false ∨ (port.val < 8 ∧ (portGet s port.val).rate = 0)))
    ∧ (∃ (s : State) (port : Fin 9) (bytes : Bytes) (member : Nat) (untag : Nat), let f := bytes.take (bytes.length - 4);
    let vid := if frVid f = 0 then pvidOf s port.val else frVid f; swOn s = true ∧ ((port.val = 8 ∨ (portGet s port.val).rate ≠ 0)) ∧ 64 ≤ bytes.length ∧ bytes.length ≤ 1522 ∧ fcs f = bytes.drop (bytes.length - 4) ∧ macReserved (frDa f) = false ∧ vlanOf (netSec s) vid = some (member, untag) ∧ member.testBit port.val = true ∧ (flowMatch (netSec s) port.val (frDa f) (frSa f) vid = none ∨ port.val = 8) ∧ egressMask (learn port.val vid (frSa f) s) port.val vid member (frDa f) = 256 ∧ (5 < (classOf (netSec s) port.val (if frVid f = 0 then defPcp (netSec s) port.val else frPcp f)) ∨ (meterRun 256 (nwP8Rate (netSec s) * 10 ^ 6) 0 16384 0 ((if untag.testBit 8 then frUntag f else frTag f (if frVid f = 0 then defPcp (netSec s) port.val else frPcp f) vid).length + 4) s).1 = true))
    ∧ (∃ (s : State) (port : Fin 9) (bytes : Bytes) (member : Nat) (untag : Nat) (i : Nat) (r : Bytes), let f := bytes.take (bytes.length - 4);
    let vid := if frVid f = 0 then pvidOf s port.val else frVid f; swOn s = true ∧ ((port.val = 8 ∨ (portGet s port.val).rate ≠ 0)) ∧ 64 ≤ bytes.length ∧ bytes.length ≤ 1522 ∧ fcs f = bytes.drop (bytes.length - 4) ∧ macReserved (frDa f) = false ∧ port.val < 8 ∧ vlanOf (netSec s) vid = some (member, untag) ∧ member.testBit port.val = true ∧ flowMatch (netSec s) port.val (frDa f) (frSa f) vid = some (i, r) ∧ ((flowGet s i).blocked = true ∨ bit (u8 r 1) 1 = true))
    ∧ (∃ (s : State) (port : Fin 9) (bytes : Bytes) (member : Nat) (untag : Nat), let f := bytes.take (bytes.length - 4);
    let vid := if frVid f = 0 then pvidOf s port.val else frVid f; swOn s = true ∧ ((port.val = 8 ∨ (portGet s port.val).rate ≠ 0)) ∧ 64 ≤ bytes.length ∧ bytes.length ≤ 1522 ∧ fcs f = bytes.drop (bytes.length - 4) ∧ macReserved (frDa f) = false ∧ vlanOf (netSec s) vid = some (member, untag) ∧ member.testBit port.val = true ∧ (flowMatch (netSec s) port.val (frDa f) (frSa f) vid = none ∨ port.val = 8)) :=
  ⟨⟨netS, 2, List.replicate 64 0, by exact ⟨by decide +kernel, .inr (by decide +kernel), .inr (by decide +kernel)⟩⟩,
   ⟨netS, 2, List.replicate 20 0 ++ fcs (List.replicate 20 0), by exact ⟨by decide +kernel, .inr (by decide +kernel), by decide +kernel, by decide +kernel, .inl (by decide +kernel)⟩⟩,
   ⟨netS, 2, netFrame [1, 0x80, 0xC2, 0, 0, 3], by exact ⟨by decide +kernel, .inr (by decide +kernel), by decide +kernel, by decide +kernel, by decide +kernel, by decide +kernel⟩⟩,
   ⟨netS, 2, netFrameV 5 [2, 0, 0, 0, 0, 9], by exact ⟨by decide +kernel, .inr (by decide +kernel), by decide +kernel, by decide +kernel, by decide +kernel, by decide +kernel, .inl (by decide +kernel)⟩⟩,
   ⟨{ netS with sw.learnt := [{ mac := 0x020000000009, vid := 1, port := 3, seen := 0 }] }, 2, netFrame [2, 0, 0, 0, 0, 9], 0x13C, 0x13C, 3, by exact ⟨by decide +kernel, .inr (by decide +kernel), by decide +kernel, by decide +kernel, by decide +kernel, by decide +kernel, by decide +kernel, by decide +kernel, .inl (by decide +kernel), by decide +kernel, by decide +kernel, by decide +kernel, by decide +kernel, by decide +kernel⟩⟩,
   ⟨runS, 2, by exact .inr (by decide +kernel)⟩,
   ⟨netS, 2, netFrame [2, 0, 0, 0, 0, 1], 0x13C, 0x13C, by exact ⟨by decide +kernel, .inr (by decide +kernel), by decide +kernel, by decide +kernel, by decide +kernel, by decide +kernel, by decide +kernel, by decide +kernel, .inl (by decide +kernel), by decide +kernel, .inr (by decide +kernel)⟩⟩,
   ⟨flowS, 2, netFrame [2, 0, 0, 0, 0, 9], 0x13C, 0x13C, 0, flowRec, by exact ⟨by decide +kernel, .inr (by decide +kernel), by decide +kernel, by decide +kernel, by decide +kernel, by decide +kernel, by decide +kernel, by decide +kernel, by decide +kernel, by decide +kernel, .inr (by decide +kernel)⟩⟩,
   ⟨netS, 2, netFrame [2, 0, 0, 0, 0, 9], 0x13C, 0x13C, by exact ⟨by decide +kernel, .inr (by decide +kernel), by decide +kernel, by decide +kernel, by decide +kernel, by decide +kernel, by decide +kernel, by decide +kernel, .inl (by decide +kernel)⟩⟩⟩

theorem test_witness_PortsAndQueues_1 :
    (∃ (s : State) (port : Fin 8) (rate : Fin 5), swOn s = true ∧ nwPortEn (netSec s) port.val = true ∧ portShed s port.val = false ∧ rateFits (netSec s) port.val rate.val = true ∧ (portGet s port.val).rate ≠ rate.val)
    ∧ (∃ (s : State) (port : Fin 8), (portGet s port.val).rate ≠ 0)
    ∧ (∃ (s : State) (port : Fin 8) (rate : Fin 5), (swOn s = false ∨ nwPortEn (netSec s) port.val = false ∨ portShed s port.val = true ∨ rateFits (netSec s) port.val rate.val = false))
    ∧ (∃ (s : State) (port : Fin 8), (portGet s port.val).rate = 0)
    ∧ (∃ (s : State) (port : Fin 9) (cls : Fin 8) (f : Frame) (r : List Frame), swOn s = true ∧ (portGet s port.val).rate ≠ 0 ∧ vget (portGet s port.val).queues cls.val [] = f :: r ∧ f.launch = none ∧ gateNever s port.val cls.val (frameNs f.bytes (portGet s port.val).rate) = true)
    ∧ (∃ (s : State) (port : Fin 9) (cls : Fin 8), (swOn s = false ∨ (portGet s port.val).rate = 0 ∨ vget (portGet s port.val).queues cls.val [] = []))
    ∧ (∃ (s : State) (port : Fin 9) (cls : Fin 8) (f : Frame) (r : List Frame), swOn s = true ∧ (portGet s port.val).rate ≠ 0 ∧ vget (portGet s port.val).queues cls.val [] = f :: r ∧ f.launch = none ∧ gateNever s port.val cls.val (frameNs f.bytes (portGet s port.val).rate) = false ∧ gateLets s port.val cls.val (frameNs f.bytes (portGet s port.val).rate) = true ∧ higherReady s port.val cls.val = false)
    ∧ (∃ (s : State) (mac : BitVec 48) (vid : BitVec 12), ((∀ l ∈ s.sw.learnt, l.mac = mac → l.vid = vid → l.seen + tS (nwAge (netSec s)) ≤ s.elapsed))) :=
  ⟨⟨{ netS with sw.ports := vmod netS.sw.ports 4 (fun p => { p with rate := 0 }) }, 4, 2, by decide +kernel⟩,
   ⟨netS, 3, by decide +kernel⟩,
   ⟨heathS, 4, 2, by decide +kernel⟩,
   ⟨runS, 3, by decide +kernel⟩,
   ⟨gateS, 3, 2, fr1, [], by decide +kernel⟩,
   ⟨netS, 3, 2, by exact .inr (.inr (by decide +kernel))⟩,
   ⟨{ netS with sw.ports := vmod netS.sw.ports 3 (fun p => { p with queues := vset p.queues 2 [fr1] }) }, 3, 2, fr1, [], by decide +kernel⟩,
   ⟨{ netS with sw.learnt := [{ mac := 9, vid := 1, port := 3, seen := 0 }], elapsed := 64000000000 * 301 }, 9, 1, by decide +kernel⟩⟩

theorem test_witness_PortsAndQueues_2 :
    (∃ (s : State) (fn : Fin 16), fn.val < (netDir (netSec s) 7).2 ∧ (vget s.sw.frer fn.val Frer.reset).recv.isSome = true ∧ (vget s.sw.frer fn.val Frer.reset).passedAt + tMs (10 * u8 (netRec (netSec s) 7 8 fn.val) 3) ≤ s.elapsed)
    ∧ (∃ (s : State) (port : Fin 2), (portGet s (6 + port.val)).plca = true)
    ∧ (∃ (s : State) (port : Fin 2), (portGet s (6 + port.val)).rate ≠ 0 ∧ plcaId s (6 + port.val) ≠ 255)
    ∧ (∃ (s : State) (page : Fin 8) (word : Word), pageLive s page.val = true ∧ page = 1 ∧ word.toNat / 65536 = 0x5B1E)
    ∧ (∃ (s : State) (page : Fin 8) (word : Word), pageLive s page.val = true ∧ (page ≠ 1 ∨ word.toNat / 65536 ≠ 0x5B1E)) :=
  ⟨⟨{ netS with set.network := netB.take 58 ++ [1, 0] ++ netB.drop 60, sw.frer := vmod netS.sw.frer 0 (fun f => { f with recv := some 3 }), elapsed := 64000000 * 3000 }, 0, by decide +kernel⟩,
   ⟨{ netS with sw.ports := vmod netS.sw.ports 6 (fun p => { p with plca := true }) }, 0, by decide +kernel⟩,
   ⟨{ netS with set.network := netB.take 284 ++ [1, 1] ++ netB.drop 286, sw.ports := vmod netS.sw.ports 6 (fun p => { p with rate := 1 }) }, 0, by decide +kernel⟩,
   ⟨netS, 1, 0x5B1E0003, by decide +kernel⟩,
   ⟨netS, 1, 0x5B1F0003, by decide +kernel⟩⟩

theorem test_witness_CanControllers_1 :
    (∃ (s : State) (ctl : Fin 2) (k : Bytes), canLive s ctl.val = true ∧ (canGet s ctl.val).token = some k)
    ∧ (∃ (s : State) (ctl : Fin 2), (canLive s ctl.val = false ∨ (canGet s ctl.val).token = none))
    ∧ (∃ (s : State) (ctl : Fin 2), canLive s ctl.val = false)
    ∧ (∃ (s : State) (ctl : Fin 2), canLive s ctl.val = true)
    ∧ (∃ (s : State) (ctl : Fin 2), canLive s ctl.val = true ∧ 256 ≤ (canGet s ctl.val).tec)
    ∧ (∃ (s : State) (ctl : Fin 2), (canGet s ctl.val).busOff = true ∧ swOn s = true)
    ∧ (∃ (s : State) (ctl : Fin 2) (id : BitVec 29) (d : Bytes), canLive s ctl.val = true ∧ canDiag s ctl.val = true ∧ bit (dgCan (diagSec s)) 3 = false ∧ d.length ≤ 8 ∧ id.toNat = dgReqId (diagSec s) ∧ u8 d 0 / 16 = 0 ∧ 1 ≤ u8 d 0 % 16 ∧ u8 d 0 % 16 < d.length)
    ∧ (∃ (s : State) (ctl : Fin 2) (id : BitVec 29), canLive s ctl.val = true ∧ id.toNat ≠ dgReqId (diagSec s) ∧ id.toNat ≠ dgFuncId (diagSec s)) :=
  ⟨⟨canS, 0, [7], by decide +kernel⟩,
   ⟨runS, 0, by decide +kernel⟩,
   ⟨runS, 0, by decide +kernel⟩,
   ⟨canS, 0, by decide +kernel⟩,
   ⟨{ canS with can := vmod canS.can 0 (fun c => { c with tec := 256 }) }, 0, by decide +kernel⟩,
   ⟨{ canS with can := vmod canS.can 0 (fun c => { c with busOff := true }) }, 0, by decide +kernel⟩,
   ⟨canS, 0, 0x7A0, [2, 0x10, 1, 0xCC], by decide +kernel⟩,
   ⟨canS, 0, 0x123, by decide +kernel⟩⟩

theorem test_witness_CanControllers_2 :
    (∃ (s : State) (ctl : Fin 2) (id : BitVec 29) (ext : Bool) (d : Bytes), canLive s ctl.val = true ∧ canDiag s ctl.val = true ∧ ext = bit (dgCan (diagSec s)) 3 ∧ (d.length ≤ 8 ∨ (bit (dgCan (diagSec s)) 2 = true ∧ d.length ≤ 64)) ∧ id.toNat = dgReqId (diagSec s) ∧ u8 d 0 / 16 = 1 ∧ u8 d 0 % 16 * 256 + u8 d 1 ≠ 0)
    ∧ (∃ (s : State) (ctl : Fin 2) (id : BitVec 29) (ext : Bool) (d : Bytes) (b : Bytes) (len : Nat) (at_ : Nat), canLive s ctl.val = true ∧ canDiag s ctl.val = true ∧ ext = bit (dgCan (diagSec s)) 3 ∧ (d.length ≤ 8 ∨ (bit (dgCan (diagSec s)) 2 = true ∧ d.length ≤ 64)) ∧ id.toNat = dgReqId (diagSec s) ∧ (connGet s 2).isoTp = some (b, len, at_, u8 d 0 % 16) ∧ u8 d 0 / 16 = 2 ∧ len ≤ (b ++ d.drop 1).length)
    ∧ (∃ (s : State) (ctl : Fin 2) (id : BitVec 29) (ext : Bool) (d : Bytes) (b : Bytes) (len : Nat) (at_ : Nat), canLive s ctl.val = true ∧ canDiag s ctl.val = true ∧ ext = bit (dgCan (diagSec s)) 3 ∧ (d.length ≤ 8 ∨ (bit (dgCan (diagSec s)) 2 = true ∧ d.length ≤ 64)) ∧ id.toNat = dgReqId (diagSec s) ∧ (connGet s 2).isoTp = some (b, len, at_, u8 d 0 % 16) ∧ u8 d 0 / 16 = 2 ∧ (b ++ d.drop 1).length < len)
    ∧ (∃ (s : State) (ctl : Fin 2), canLive s ctl.val = false)
    ∧ (∃ (s : State) (x : Bytes × Nat × Nat × Nat), (connGet s 2).isoTp = some x ∧ x.2.2.1 + tMs 1000 ≤ s.elapsed) :=
  ⟨⟨canS, 0, 0x7A0, false, [0x10, 12, 1, 2, 3, 4, 5, 6], by exact ⟨by decide +kernel, by decide +kernel, by decide +kernel, .inl (by decide +kernel), by decide +kernel, by decide +kernel, by decide +kernel⟩⟩,
   ⟨{ canS with diag.conns := vmod canS.diag.conns 2 (fun c => { c with isoTp := some ([1], 3, 0, 1) }) }, 0, 0x7A0, false, [0x21, 2, 3], [1], 3, 0, by exact ⟨by decide +kernel, by decide +kernel, by decide +kernel, .inl (by decide +kernel), by decide +kernel, by decide +kernel, by decide +kernel, by decide +kernel⟩⟩,
   ⟨{ canS with diag.conns := vmod canS.diag.conns 2 (fun c => { c with isoTp := some ([1], 9, 0, 1) }) }, 0, 0x7A0, false, [0x21, 2, 3], [1], 9, 0, by exact ⟨by decide +kernel, by decide +kernel, by decide +kernel, .inl (by decide +kernel), by decide +kernel, by decide +kernel, by decide +kernel, by decide +kernel⟩⟩,
   ⟨runS, 0, by decide +kernel⟩,
   ⟨{ canS with diag.conns := vmod canS.diag.conns 2 (fun c => { c with isoTp := some ([1], 20, 0, 1) }), elapsed := 64000000 * 1000 }, ([1], 20, 0, 1), by decide +kernel⟩⟩

theorem test_witness_InterfaceAnswers :
    (∃ (s : State) (tip : BitVec 32), beBytes 4 tip.toNat ≠ ownIp s)
    ∧ (∃ (s : State) (port : Fin 9) (mac : BitVec 48) (ip : BitVec 32) (tip : BitVec 32) (g : Bytes), beBytes 4 tip.toNat = ownIp s ∧ aspOn s = true ∧ (frameIn port.val (padTo 60 (List.replicate 6 0xFF ++ beBytes 6 mac.toNat ++ [0x08, 0x06] ++ arpPacket 1 (beBytes 6 mac.toNat) (beBytes 4 ip.toNat) (List.replicate 6 0) (beBytes 4 tip.toNat)) ++ fcs (padTo 60 (List.replicate 6 0xFF ++ beBytes 6 mac.toNat ++ [0x08, 0x06] ++ arpPacket 1 (beBytes 6 mac.toNat) (beBytes 4 ip.toNat) (List.replicate 6 0) (beBytes 4 tip.toNat)))) { s with sw.toPairs := [] }).sw.toPairs = [g])
    ∧ (∃ (s : State) (dst : BitVec 32) (data : Bytes), aspOn s = true ∧ swOn s = true ∧ beBytes 4 dst.toNat = ownIp s ∧ data.length ≤ 1472 ∧ (nwDevMac (netSec s)).length = 6)
    ∧ (∃ (s : State) (dst : BitVec 32), beBytes 4 dst.toNat ≠ ownIp s)
    ∧ (∃ (s : State), aspOn s = true)
    ∧ (∃ (s : State), aspOn s = false) :=
  ⟨⟨ipS, 0x0A000003, by decide +kernel⟩,
   ⟨ipS, 2, 0x020000000007, 0x0A000001, 0x0A000002, padTo 60 (List.replicate 6 0xFF ++ [2, 0, 0, 0, 0, 7] ++ [0x08, 0x06] ++ arpPacket 1 [2, 0, 0, 0, 0, 7] [10, 0, 0, 1] (List.replicate 6 0) [10, 0, 0, 2]), by decide +kernel⟩,
   ⟨ipS, 0x0A000002, [5], by decide +kernel⟩,
   ⟨ipS, 0x0A000003, by decide +kernel⟩,
   ⟨ipS, by decide +kernel⟩,
   ⟨heathS, by decide +kernel⟩⟩

theorem test_witness_SpiTransactions_1 :
    (∃ (s : State), ppbOn s = false)
    ∧ (∃ (s : State) (addr : BitVec 24) (len : BitVec 16) (hcrc : BitVec 16), ppbOn s = true ∧ crc16 (spiHead 1 addr len) ≠ hcrc.toNat)
    ∧ (∃ (s : State) (addr : BitVec 24) (len : BitVec 16) (hcrc : BitVec 16), ppbOn s = true ∧ crc16 (spiHead 1 addr len) = hcrc.toNat ∧ (len = 0 ∨ 64 < len.toNat ∨ addr.toNat % 4 ≠ 0))
    ∧ (∃ (s : State), ppbOn s = false)
    ∧ (∃ (s : State), ppbOn s = false)
    ∧ (∃ (s : State), ppbOn s = false)
    ∧ (∃ (s : State) (addr : BitVec 24) (len : BitVec 16) (hcrc : BitVec 16) (data : Bytes), ppbOn s = true ∧ data.length = 4 * len.toNat ∧ crc16 (spiHead 2 addr len) ≠ hcrc.toNat)
    ∧ (∃ (s : State) (addr : BitVec 24) (len : BitVec 16) (hcrc : BitVec 16) (data : Bytes), ppbOn s = true ∧ data.length = len.toNat ∧ crc16 (spiHead 3 addr len) ≠ hcrc.toNat) :=
  ⟨⟨heathS, by decide +kernel⟩,
   ⟨rngS, 0xA0, 1, 0, by decide +kernel⟩,
   ⟨rngS, 0xA2, 1, BitVec.ofNat 16 (crc16 (spiHead 1 0xA2 1)), by decide +kernel⟩,
   ⟨heathS, by decide +kernel⟩,
   ⟨heathS, by decide +kernel⟩,
   ⟨heathS, by decide +kernel⟩,
   ⟨rngS, 0, 20, 0, List.replicate 80 0, by decide +kernel⟩,
   ⟨rngS, 0, 20, 0, List.replicate 20 0, by decide +kernel⟩⟩

theorem test_witness_SpiTransactions_2 :
    (∃ (s : State) (addr : BitVec 24) (len : BitVec 16) (hcrc : BitVec 16), ppbOn s = true ∧ crc16 (spiHead 4 addr len) ≠ hcrc.toNat)
    ∧ (∃ (s : State) (addr : BitVec 24) (len : BitVec 16) (hcrc : BitVec 16) (data : Bytes), ppbOn s = true ∧ data.length = 4 * len.toNat ∧ crc16 (spiHead 2 addr len) = hcrc.toNat ∧ (len = 0 ∨ 64 < len.toNat ∨ addr.toNat % 4 ≠ 0))
    ∧ (∃ (s : State) (addr : BitVec 24) (len : BitVec 16) (hcrc : BitVec 16) (data : Bytes), ppbOn s = true ∧ data.length = len.toNat ∧ crc16 (spiHead 3 addr len) = hcrc.toNat ∧ (len.toNat < 20 ∨ 1044 < len.toNat ∨ addr.toNat % 4 ≠ 0))
    ∧ (∃ (s : State) (addr : BitVec 24) (len : BitVec 16) (hcrc : BitVec 16), ppbOn s = true ∧ crc16 (spiHead 4 addr len) = hcrc.toNat ∧ (len.toNat < 2 ∨ 1046 < len.toNat ∨ addr.toNat % 4 ≠ 0))
    ∧ (∃ (s : State) (addr : BitVec 24) (hcrc : BitVec 16), ppbOn s = true ∧ crc16 (spiHead 1 addr 1) = hcrc.toNat ∧ addr.toNat % 4 = 0)
    ∧ (∃ (s : State) (addr : BitVec 24) (hcrc : BitVec 16) (i : Nat), ppbOn s = true ∧ crc16 (spiHead 1 addr 1) = hcrc.toNat ∧ i < 8 ∧ addr.toNat = 0xA0 + 4 * i)
    ∧ (∃ (s : State) (len : BitVec 16) (data : Bytes) (ended : Bool), ppbOn s = true ∧ (ended = false ∨ data.length ≠ 4 * len.toNat))
    ∧ (∃ (s : State) (addr : BitVec 24) (len : BitVec 16) (hcrc : BitVec 16) (data : Bytes) (dcrc : BitVec 16), ppbOn s = true ∧ data.length = 4 * len.toNat ∧ crc16 (spiHead 2 addr len) = hcrc.toNat ∧ len ≠ 0 ∧ len.toNat ≤ 64 ∧ addr.toNat % 4 = 0 ∧ crc16 data ≠ dcrc.toNat) :=
  ⟨⟨rngS, 0, 20, 0, by decide +kernel⟩,
   ⟨rngS, 0xA2, 1, BitVec.ofNat 16 (crc16 (spiHead 2 0xA2 1)), List.replicate 4 0, by decide +kernel⟩,
   ⟨rngS, 0xA2, 1, BitVec.ofNat 16 (crc16 (spiHead 3 0xA2 1)), List.replicate 1 0, by decide +kernel⟩,
   ⟨rngS, 0xA2, 1, BitVec.ofNat 16 (crc16 (spiHead 4 0xA2 1)), by decide +kernel⟩,
   ⟨rngS, 0x10, BitVec.ofNat 16 (crc16 (spiHead 1 0x10 1)), by decide +kernel⟩,
   ⟨rngS, 0xA4, BitVec.ofNat 16 (crc16 (spiHead 1 0xA4 1)), 1, by decide +kernel⟩,
   ⟨rngS, 1, [1, 2, 3], true, by decide +kernel⟩,
   ⟨rngS, 0xA0, 1, BitVec.ofNat 16 (crc16 (spiHead 2 0xA0 1)), [1, 2, 3, 4], 0, by decide +kernel⟩⟩

theorem test_witness_SpiTransactions_3 :
    (∃ (s : State) (addr : BitVec 24) (hcrc : BitVec 16) (dcrc : BitVec 16) (w : Word) (i : Nat), ppbOn s = true ∧ s.spi.lock = false ∧ crc16 (spiHead 2 addr 1) = hcrc.toNat ∧ crc16 (leBytes 4 w.toNat) = dcrc.toNat ∧ i < 8 ∧ addr.toNat = 0xA0 + 4 * i)
    ∧ (∃ (s : State) (addr : BitVec 24) (hcrc : BitVec 16) (dcrc : BitVec 16) (w : Word), ppbOn s = true ∧ crc16 (spiHead 2 addr 1) = hcrc.toNat ∧ crc16 (leBytes 4 w.toNat) = dcrc.toNat ∧ addr.toNat % 4 = 0 ∧ addr.toNat ≠ 8)
    ∧ (∃ (s : State) (addr : BitVec 24) (hcrc : BitVec 16) (dcrc : BitVec 16) (w : Word), ppbOn s = true ∧ crc16 (spiHead 2 addr 1) = hcrc.toNat ∧ crc16 (leBytes 4 w.toNat) = dcrc.toNat ∧ addr.toNat = 8 ∧ w.toNat / 65536 = 0x5EC7)
    ∧ (∃ (s : State) (len : BitVec 16) (data : Bytes) (ended : Bool), ppbOn s = true ∧ (ended = false ∨ data.length ≠ len.toNat))
    ∧ (∃ (s : State) (addr : BitVec 24) (len : BitVec 16) (hcrc : BitVec 16) (data : Bytes) (dcrc : BitVec 16), ppbOn s = true ∧ data.length = len.toNat ∧ crc16 (spiHead 3 addr len) = hcrc.toNat ∧ 20 ≤ len.toNat ∧ len.toNat ≤ 1044 ∧ addr.toNat % 4 = 0 ∧ crc16 data ≠ dcrc.toNat)
    ∧ (∃ (s : State) (addr : BitVec 24) (len : BitVec 16) (hcrc : BitVec 16) (data : Bytes) (dcrc : BitVec 16), ppbOn s = true ∧ data.length = len.toNat ∧ crc16 (spiHead 3 addr len) = hcrc.toNat ∧ 20 ≤ len.toNat ∧ len.toNat ≤ 1044 ∧ addr.toNat % 4 = 0 ∧ crc16 data = dcrc.toNat ∧ s.boot.ready = true ∧ (pageGet s 1).inQ.length < 4 ∧ u8 data 1 ≠ 1)
    ∧ (∃ (s : State) (addr : BitVec 24) (len : BitVec 16) (hcrc : BitVec 16) (data : Bytes) (dcrc : BitVec 16), ppbOn s = true ∧ data.length = len.toNat ∧ crc16 (spiHead 3 addr len) = hcrc.toNat ∧ 20 ≤ len.toNat ∧ len.toNat ≤ 1044 ∧ addr.toNat % 4 = 0 ∧ crc16 data = dcrc.toNat ∧ s.boot.ready = true ∧ (pageGet s 1).inQ.length < 4 ∧ u8 data 1 = 1)
    ∧ (∃ (s : State) (addr : BitVec 24) (len : BitVec 16) (hcrc : BitVec 16) (data : Bytes) (dcrc : BitVec 16), ppbOn s = true ∧ data.length = len.toNat ∧ crc16 (spiHead 3 addr len) = hcrc.toNat ∧ 20 ≤ len.toNat ∧ len.toNat ≤ 1044 ∧ addr.toNat % 4 = 0 ∧ crc16 data = dcrc.toNat ∧ (s.boot.ready = false ∨ 4 ≤ (pageGet s 1).inQ.length)) :=
  ⟨⟨rngS, 0xA4, BitVec.ofNat 16 (crc16 (spiHead 2 0xA4 1)), BitVec.ofNat 16 (crc16 (leBytes 4 0x12345678)), 0x12345678, 1, by decide +kernel⟩,
   ⟨rngS, 0xA4, BitVec.ofNat 16 (crc16 (spiHead 2 0xA4 1)), BitVec.ofNat 16 (crc16 (leBytes 4 0x12345678)), 0x12345678, by decide +kernel⟩,
   ⟨rngS, 8, BitVec.ofNat 16 (crc16 (spiHead 2 8 1)), BitVec.ofNat 16 (crc16 (leBytes 4 0x5EC70000)), 0x5EC70000, by decide +kernel⟩,
   ⟨rngS, 20, [1, 2, 3], true, by exact ⟨by decide +kernel, .inr (by decide +kernel)⟩⟩,
   ⟨rngS, 0, 20, BitVec.ofNat 16 (crc16 (spiHead 3 0 20)), 1 :: 1 :: List.replicate 18 0, 0, by decide +kernel⟩,
   ⟨rngS, 0, 20, BitVec.ofNat 16 (crc16 (spiHead 3 0 20)), 1 :: 2 :: List.replicate 18 0, BitVec.ofNat 16 (crc16 (1 :: 2 :: List.replicate 18 0)), by decide +kernel⟩,
   ⟨rngS, 0, 20, BitVec.ofNat 16 (crc16 (spiHead 3 0 20)), 1 :: 1 :: List.replicate 18 0, BitVec.ofNat 16 (crc16 (1 :: 1 :: List.replicate 18 0)), by decide +kernel⟩,
   ⟨{ rngS with pages := vmod rngS.pages 1 (fun p => { p with inQ := List.replicate 4 msg0 }) }, 0, 20, BitVec.ofNat 16 (crc16 (spiHead 3 0 20)), 1 :: 1 :: List.replicate 18 0, BitVec.ofNat 16 (crc16 (1 :: 1 :: List.replicate 18 0)), by exact ⟨by decide +kernel, by decide +kernel, by decide +kernel, by decide +kernel, by decide +kernel, by decide +kernel, by decide +kernel, .inr (by decide +kernel)⟩⟩⟩

theorem test_witness_SpiTransactions_4 :
    (∃ (s : State) (addr : BitVec 24) (len : BitVec 16) (hcrc : BitVec 16), ppbOn s = true ∧ crc16 (spiHead 4 addr len) = hcrc.toNat ∧ 2 ≤ len.toNat ∧ len.toNat ≤ 1046 ∧ addr.toNat % 4 = 0 ∧ s.boot.ready = true ∧ (pageGet s 1).outQ = [])
    ∧ (∃ (s : State) (addr : BitVec 24) (len : BitVec 16) (hcrc : BitVec 16), ppbOn s = true ∧ crc16 (spiHead 4 addr len) = hcrc.toNat ∧ 2 ≤ len.toNat ∧ len.toNat ≤ 1046 ∧ addr.toNat % 4 = 0 ∧ s.boot.ready = false)
    ∧ (∃ (s : State) (addr : BitVec 24) (len : BitVec 16) (hcrc : BitVec 16) (m : AspMsg) (r : List AspMsg), ppbOn s = true ∧ crc16 (spiHead 4 addr len) = hcrc.toNat ∧ 2 ≤ len.toNat ∧ len.toNat ≤ 1046 ∧ addr.toNat % 4 = 0 ∧ s.boot.ready = true ∧ (pageGet s 1).outQ = m :: r ∧ m.bytes.length + 2 ≤ len.toNat)
    ∧ (∃ (s : State) (addr : BitVec 24) (len : BitVec 16) (hcrc : BitVec 16) (clk : Bool) (m : AspMsg) (r : List AspMsg), ppbOn s = true ∧ crc16 (spiHead 4 addr len) = hcrc.toNat ∧ 2 ≤ len.toNat ∧ len.toNat ≤ 1046 ∧ addr.toNat % 4 = 0 ∧ s.boot.ready = true ∧ (pageGet s 1).outQ = m :: r ∧ (len.toNat < m.bytes.length + 2 ∨ clk = false)) :=
  ⟨⟨rngS, 0, 4, BitVec.ofNat 16 (crc16 (spiHead 4 0 4)), by decide +kernel⟩,
   ⟨{ rngS with boot.ready := false }, 0, 4, BitVec.ofNat 16 (crc16 (spiHead 4 0 4)), by decide +kernel⟩,
   ⟨{ rngS with pages := vmod rngS.pages 1 (fun p => { p with outQ := [msg0] }) }, 0, 4, BitVec.ofNat 16 (crc16 (spiHead 4 0 4)), msg0, [], by decide +kernel⟩,
   ⟨{ rngS with pages := vmod rngS.pages 1 (fun p => { p with outQ := [msg0] }) }, 0, 4, BitVec.ofNat 16 (crc16 (spiHead 4 0 4)), false, msg0, [], by decide +kernel⟩⟩

theorem test_witness_RegisterWrites_1 :
    (∃ (s : State) (page : Fin 8), regLive s page.val = false)
    ∧ (∃ (s : State) (page : Fin 8), regLive s page.val = false)
    ∧ (∃ (s : State) (page : Fin 8), regLive s page.val = false)
    ∧ (∃ (s : State) (page : Fin 8) (addr : BitVec 24), regLive s page.val = true ∧ s.boot.ready = false ∧ 0x10000 ≤ addr.toNat)
    ∧ (∃ (s : State) (page : Fin 8) (addr : BitVec 24), regLive s page.val = true ∧ (s.boot.ready = true ∨ addr.toNat < 0x10000) ∧ (addr.toNat ≠ 8 ∨ page ≠ 1))
    ∧ (∃ (s : State) (page : Fin 8) (addr : BitVec 24), regLive s page.val = true ∧ s.boot.ready = true ∧ addr.toNat = 0x010008 ∧ page = 1)
    ∧ (∃ (s : State) (page : Fin 8) (addr : BitVec 24), regLive s page.val = true ∧ s.boot.ready = true ∧ addr.toNat = 0x020004 ∧ page = 1)
    ∧ (∃ (s : State) (page : Fin 8) (addr : BitVec 24), regLive s page.val = true ∧ s.boot.ready = true ∧ addr.toNat = 0x030008 ∧ page = 1) :=
  ⟨⟨heathS, 2, by decide +kernel⟩,
   ⟨heathS, 2, by decide +kernel⟩,
   ⟨heathS, 2, by decide +kernel⟩,
   ⟨{ rngS with boot.ready := false }, 1, 0x20004, by decide +kernel⟩,
   ⟨rngS, 1, 0xA8, by exact ⟨by decide +kernel, .inl (by decide +kernel), .inl (by decide +kernel)⟩⟩,
   ⟨rngS, 1, 0x010008, by decide +kernel⟩,
   ⟨rngS, 1, 0x020004, by decide +kernel⟩,
   ⟨rngS, 1, 0x030008, by decide +kernel⟩⟩

theorem test_witness_RegisterWrites_2 :
    (∃ (s : State) (page : Fin 8) (addr : BitVec 24), regLive s page.val = true ∧ s.boot.ready = true ∧ addr.toNat = 0x040004 ∧ page = 1)
    ∧ (∃ (s : State) (page : Fin 8) (addr : BitVec 24), regLive s page.val = true ∧ s.boot.ready = true ∧ addr.toNat = 0x05000C ∧ page = 1)
    ∧ (∃ (s : State) (page : Fin 8) (addr : BitVec 24), regLive s page.val = true ∧ s.boot.ready = true ∧ addr.toNat = 0x060004 ∧ page = 1)
    ∧ (∃ (s : State) (page : Fin 8) (addr : BitVec 24), regLive s page.val = true ∧ s.boot.ready = true ∧ addr.toNat = 0x070004 ∧ page = 1)
    ∧ (∃ (s : State) (page : Fin 8) (addr : BitVec 24), regLive s page.val = true ∧ s.boot.ready = true ∧ addr.toNat = 0x080004 ∧ page = 1)
    ∧ (∃ (s : State) (page : Fin 8) (addr : BitVec 24), regLive s page.val = true ∧ s.boot.ready = true ∧ addr.toNat = 0x0A0004 ∧ page = 1)
    ∧ (∃ (s : State) (page : Fin 8) (addr : BitVec 24), regLive s page.val = true ∧ s.boot.ready = true ∧ addr.toNat = 0x0A8004 ∧ page = 1)
    ∧ (∃ (s : State) (page : Fin 8) (addr : BitVec 24), regLive s page.val = true ∧ s.boot.ready = true ∧ addr.toNat = 0x0B0004 ∧ page = 1) :=
  ⟨⟨rngS, 1, 0x040004, by decide +kernel⟩,
   ⟨rngS, 1, 0x05000C, by decide +kernel⟩,
   ⟨rngS, 1, 0x060004, by decide +kernel⟩,
   ⟨rngS, 1, 0x070004, by decide +kernel⟩,
   ⟨rngS, 1, 0x080004, by decide +kernel⟩,
   ⟨rngS, 1, 0x0A0004, by decide +kernel⟩,
   ⟨rngS, 1, 0x0A8004, by decide +kernel⟩,
   ⟨rngS, 1, 0x0B0004, by decide +kernel⟩⟩

theorem test_witness_RegisterWrites_3 :
    (∃ (s : State) (page : Fin 8) (addr : BitVec 24), regLive s page.val = true ∧ s.boot.ready = true ∧ addr.toNat = 0x0C0010 ∧ page = 1)
    ∧ (∃ (s : State) (page : Fin 8) (addr : BitVec 24), regLive s page.val = true ∧ s.boot.ready = true ∧ addr.toNat = 0x0D0004 ∧ page = 1)
    ∧ (∃ (s : State) (page : Fin 8) (addr : BitVec 24), regLive s page.val = true ∧ s.boot.ready = true ∧ addr.toNat = 0x0E0004 ∧ page = 1)
    ∧ (∃ (s : State) (page : Fin 8) (addr : BitVec 24), regLive s page.val = true ∧ s.boot.ready = true ∧ addr.toNat = 0x0F0004 ∧ page = 1)
    ∧ (∃ (s : State) (page : Fin 8) (addr : BitVec 24), regLive s page.val = true ∧ s.boot.ready = true ∧ addr.toNat = 0x100020 ∧ page = 1)
    ∧ (∃ (s : State) (page : Fin 8) (addr : BitVec 24), regLive s page.val = true ∧ s.boot.ready = true ∧ addr.toNat = 0x120004 ∧ page = 1)
    ∧ (∃ (s : State) (page : Fin 8) (addr : BitVec 24), regLive s page.val = true ∧ s.boot.ready = true ∧ addr.toNat = 0x010040 ∧ page = 1)
    ∧ (∃ (s : State) (page : Fin 8) (addr : BitVec 24), regLive s page.val = true ∧ s.boot.ready = true ∧ addr.toNat % 4 ≠ 0) :=
  ⟨⟨rngS, 1, 0x0C0010, by decide +kernel⟩,
   ⟨rngS, 1, 0x0D0004, by decide +kernel⟩,
   ⟨rngS, 1, 0x0E0004, by decide +kernel⟩,
   ⟨rngS, 1, 0x0F0004, by decide +kernel⟩,
   ⟨rngS, 1, 0x100020, by decide +kernel⟩,
   ⟨rngS, 1, 0x120004, by decide +kernel⟩,
   ⟨rngS, 1, 0x010040, by decide +kernel⟩,
   ⟨rngS, 1, 0xA2, by decide +kernel⟩⟩

theorem test_witness_RegisterWrites_4 :
    (∃ (s : State) (page : Fin 8) (addr : BitVec 24), regLive s page.val = true ∧ s.boot.ready = true ∧ addr.toNat % 4 = 0 ∧ 0x200000 ≤ addr.toNat ∧ addr.toNat + 4 ≤ 0x600000 ∧ inGrant s page.val (addr.toNat - 0x200000) 4 = true)
    ∧ (∃ (s : State) (page : Fin 8) (addr : BitVec 24), regLive s page.val = true ∧ s.boot.ready = true ∧ addr.toNat % 4 = 0 ∧ 0x200000 ≤ addr.toNat ∧ addr.toNat ≤ 0x9FFFFF ∧ inGrant s page.val (addr.toNat - 0x200000) 4 = false)
    ∧ (∃ (s : State) (page : Fin 8) (addr : BitVec 24) (i : Nat), regLive s page.val = true ∧ i < 8 ∧ addr.toNat = 0xA0 + 4 * i ∧ page = 1 ∧ s.spi.lock = false)
    ∧ (∃ (s : State) (page : Fin 8) (addr : BitVec 24) (i : Nat), regLive s page.val = true ∧ i < 8 ∧ addr.toNat = 0xA0 + 4 * i ∧ (page ≠ 1 ∨ s.spi.lock = true))
    ∧ (∃ (s : State) (page : Fin 8) (addr : BitVec 24), regLive s page.val = true ∧ s.boot.ready = true ∧ addr.toNat = 0x130004 ∧ page = 1)
    ∧ (∃ (s : State) (page : Fin 8) (addr : BitVec 24), regLive s page.val = true ∧ s.boot.ready = true ∧ addr.toNat = 0x130004 ∧ page ≠ 1)
    ∧ (∃ (s : State) (page : Fin 8), regLive s page.val = true ∧ page = 1)
    ∧ (∃ (s : State) (page : Fin 8), regLive s page.val = true ∧ page ≠ 1) :=
  ⟨⟨rngS, 0, 0x200010, by decide +kernel⟩,
   ⟨rngS, 1, 0x200010, by decide +kernel⟩,
   ⟨rngS, 1, 0xA8, 2, by decide +kernel⟩,
   ⟨{ rngS with spi.lock := true }, 1, 0xA8, 2, by decide +kernel⟩,
   ⟨rngS, 1, 0x130004, by decide +kernel⟩,
   ⟨rngS, 6, 0x130004, by decide +kernel⟩,
   ⟨rngS, 1, by decide +kernel⟩,
   ⟨rngS, 2, by decide +kernel⟩⟩

theorem test_witness_RegisterWrites_5 :
    (∃ (s : State) (page : Fin 8), regLive s page.val = true ∧ page = 1 ∧ s.spi.lock = false)
    ∧ (∃ (s : State) (page : Fin 8), regLive s page.val = true ∧ (page ≠ 1 ∨ s.spi.lock = true)) :=
  ⟨⟨rngS, 1, by decide +kernel⟩,
   ⟨{ rngS with spi.lock := true }, 1, by decide +kernel⟩⟩

theorem test_witness_AspSessions :
    (∃ (s : State) (page : Fin 8) (m : AspMsg) (r : List AspMsg) (key : BitVec 128) (kp : BitVec 128) (w : BitVec 128) (q : List (BitVec 128)), (pageGet s page.val).inQ = m :: r ∧ aspOn s = true ∧ (page = 1 → (pageGet s 1).outQ.length < 16) ∧ pageShut s page.val = false ∧ msOk page.val m.bytes = true ∧ msType m.bytes = 1 ∧ page ≠ 0 ∧ page.val ≤ 5 ∧ (msBody m.bytes).length = 16 ∧ pairKey s page.val = some kp ∧ msAuth kp m.bytes = true ∧ s.rng.queue = w :: q ∧ key = sessionKey kp page.val (msBody m.bytes) (blockBytes w) ∧ (pageGet s page.val).outQ.any (fun x => aspKeyOf x.bytes = (page.val, 1, 3, msSeq m.bytes)) = false)
    ∧ (∃ (s : State) (page : Fin 8) (m : AspMsg) (r : List AspMsg) (kp : BitVec 128), (pageGet s page.val).inQ = m :: r ∧ aspOn s = true ∧ (page = 1 → (pageGet s 1).outQ.length < 16) ∧ pageShut s page.val = false ∧ msOk page.val m.bytes = true ∧ msType m.bytes = 1 ∧ page ≠ 0 ∧ page.val ≤ 5 ∧ (msBody m.bytes).length = 16 ∧ pairKey s page.val = some kp ∧ msAuth kp m.bytes = false)
    ∧ (∃ (s : State) (page : Fin 8) (m : AspMsg) (r : List AspMsg) (key : BitVec 128), (pageGet s page.val).inQ = m :: r ∧ aspOn s = true ∧ (page = 1 → (pageGet s 1).outQ.length < 16) ∧ pageShut s page.val = false ∧ msOk page.val m.bytes = true ∧ msType m.bytes = 2 ∧ (pageGet s page.val).aspKey = some key ∧ msAuth key m.bytes = true ∧ 0 < (msSeq m.bytes - (pageGet s page.val).aspLast).toInt ∧ (pageGet s page.val).delivered.contains (page.val, 2, 3, msSeq m.bytes) = false ∧ (pageGet s page.val).outQ.any (fun x => aspKeyOf x.bytes = (page.val, 2, 3, msSeq m.bytes)) = false ∧ msBody m.bytes = [])
    ∧ (∃ (s : State) (page : Fin 8) (m : AspMsg) (r : List AspMsg) (key : BitVec 128), (pageGet s page.val).inQ = m :: r ∧ aspOn s = true ∧ (page = 1 → (pageGet s 1).outQ.length < 16) ∧ pageShut s page.val = false ∧ msOk page.val m.bytes = true ∧ msType m.bytes = 16 ∧ (pageGet s page.val).aspKey = some key ∧ msAuth key m.bytes = false)
    ∧ (∃ (s : State) (page : Fin 8) (m : AspMsg) (r : List AspMsg) (key : BitVec 128), (pageGet s page.val).inQ = m :: r ∧ aspOn s = true ∧ (page = 1 → (pageGet s 1).outQ.length < 16) ∧ pageShut s page.val = false ∧ msOk page.val m.bytes = true ∧ msType m.bytes = 19 ∧ (pageGet s page.val).aspKey = some key ∧ msAuth key m.bytes = true ∧ (msSeq m.bytes - (pageGet s page.val).aspLast).toInt ≤ 0)
    ∧ (∃ (s : State) (page : Fin 8) (m : AspMsg) (r : List AspMsg) (key : BitVec 128), (pageGet s page.val).inQ = m :: r ∧ aspOn s = true ∧ (page = 1 → (pageGet s 1).outQ.length < 16) ∧ pageShut s page.val = false ∧ msOk page.val m.bytes = true ∧ msType m.bytes = 48 ∧ (pageGet s page.val).aspKey = some key ∧ msAuth key m.bytes = true ∧ 0 < (msSeq m.bytes - (pageGet s page.val).aspLast).toInt ∧ (pageGet s page.val).delivered.contains (page.val, 48, 3, msSeq m.bytes) = false ∧ (pageGet s page.val).outQ.any (fun x => aspKeyOf x.bytes = (page.val, 48, 3, msSeq m.bytes)) = false ∧ (msBody m.bytes).length = 4)
    ∧ (∃ (s : State) (page : Fin 8) (cls : Fin 19) (key : BitVec 128) (v : Nat) (first : Nat) (ti : BitVec 48), (pageGet s page.val).aspKey = some key ∧ (pageGet s page.val).evPend.find? (fun e => e.1 = cls.val) = some (cls.val, v, first, ti) ∧ aspOn s = true ∧ first + tMs 1 ≤ s.elapsed ∧ (page = 1 → (pageGet s 1).outQ.length < 16) ∧ (pageGet s page.val).delivered.contains (page.val, 0x31, 5, (pageGet s page.val).evtSeq + 1) = false ∧ (pageGet s page.val).outQ.any (fun x => aspKeyOf x.bytes = (page.val, 0x31, 5, (pageGet s page.val).evtSeq + 1)) = false ∧ s.evLog = []) :=
  ⟨⟨openS, 1, openM, [], sessionKey aspK 1 (List.replicate 16 0) (blockBytes 1), aspK, 1, [2, 3, 4, 5, 6, 7, 8, 9, 10], by refine ⟨rfl, ?_, ?_, ?_, ?_, ?_, ?_, ?_, ?_, ?_, ?_, ?_, rfl, ?_⟩ <;> decide +kernel⟩,
   ⟨{ openS with pages := vmod openS.pages 1 (fun p => { p with inQ := [{ openM with bytes := openM.bytes.take 28 ++ List.replicate 8 0 }] }) }, 1, { openM with bytes := openM.bytes.take 28 ++ List.replicate 8 0 }, [], aspK, by decide +kernel⟩,
   ⟨aspS 2 [], 1, msg1 2 [], [], aspK, by decide +kernel⟩,
   ⟨{ aspS 0x10 [] with pages := vmod rngS.pages 1 (fun p => { p with aspKey := some 1, inQ := [msg1 0x10 []] }) }, 1, msg1 0x10 [], [], 1, by decide +kernel⟩,
   ⟨{ aspS 0x13 [] with pages := vmod (aspS 0x13 []).pages 1 (fun p => { p with aspLast := 9 }) }, 1, msg1 0x13 [], [], aspK, by decide +kernel⟩,
   ⟨aspS 48 [0, 7, 255, 255], 1, msg1 48 [0, 7, 255, 255], [], aspK, by decide +kernel⟩,
   ⟨{ aspS 0 [] with pages := vmod rngS.pages 1 (fun p => { p with aspKey := some aspK, evPend := [(3, 1, 0, 5)] }) }, 1, 3, aspK, 1, 0, 5, by decide +kernel⟩⟩

theorem test_witness_AspRequests_1 :
    (∃ (s : State) (page : Fin 8) (m : AspMsg) (r : List AspMsg) (key : BitVec 128) (i : Nat), (pageGet s page.val).inQ = m :: r ∧ aspOn s = true ∧ (page = 1 → (pageGet s 1).outQ.length < 16) ∧ pageShut s page.val = false ∧ msOk page.val m.bytes = true ∧ msType m.bytes = 16 ∧ (pageGet s page.val).aspKey = some key ∧ msAuth key m.bytes = true ∧ 0 < (msSeq m.bytes - (pageGet s page.val).aspLast).toInt ∧ (pageGet s page.val).delivered.contains (page.val, 16, 3, msSeq m.bytes) = false ∧ (pageGet s page.val).outQ.any (fun x => aspKeyOf x.bytes = (page.val, 16, 3, msSeq m.bytes)) = false ∧ page = 1 ∧ i < 8 ∧ (msBody m.bytes) = [0, 0, BitVec.ofNat 8 (0xA0 + 4 * i), 1])
    ∧ (∃ (s : State) (page : Fin 8) (m : AspMsg) (r : List AspMsg) (key : BitVec 128), (pageGet s page.val).inQ = m :: r ∧ aspOn s = true ∧ (page = 1 → (pageGet s 1).outQ.length < 16) ∧ pageShut s page.val = false ∧ msOk page.val m.bytes = true ∧ msType m.bytes = 16 ∧ (pageGet s page.val).aspKey = some key ∧ msAuth key m.bytes = true ∧ 0 < (msSeq m.bytes - (pageGet s page.val).aspLast).toInt ∧ (pageGet s page.val).delivered.contains (page.val, 16, 3, msSeq m.bytes) = false ∧ (pageGet s page.val).outQ.any (fun x => aspKeyOf x.bytes = (page.val, 16, 3, msSeq m.bytes)) = false ∧ (msBody m.bytes) = [0, 0, 0x10, 1])
    ∧ (∃ (s : State) (page : Fin 8) (m : AspMsg) (r : List AspMsg) (key : BitVec 128), (pageGet s page.val).inQ = m :: r ∧ aspOn s = true ∧ (page = 1 → (pageGet s 1).outQ.length < 16) ∧ pageShut s page.val = false ∧ msOk page.val m.bytes = true ∧ msType m.bytes = 16 ∧ (pageGet s page.val).aspKey = some key ∧ msAuth key m.bytes = true ∧ 0 < (msSeq m.bytes - (pageGet s page.val).aspLast).toInt ∧ (pageGet s page.val).delivered.contains (page.val, 16, 3, msSeq m.bytes) = false ∧ (pageGet s page.val).outQ.any (fun x => aspKeyOf x.bytes = (page.val, 16, 3, msSeq m.bytes)) = false ∧ (msBody m.bytes) = [0x0B, 0x00, 0x10, 1])
    ∧ (∃ (s : State) (page : Fin 8) (m : AspMsg) (r : List AspMsg) (key : BitVec 128) (i : Nat) (w : Word), (pageGet s page.val).inQ = m :: r ∧ aspOn s = true ∧ (page = 1 → (pageGet s 1).outQ.length < 16) ∧ pageShut s page.val = false ∧ msOk page.val m.bytes = true ∧ msType m.bytes = 17 ∧ (pageGet s page.val).aspKey = some key ∧ msAuth key m.bytes = true ∧ 0 < (msSeq m.bytes - (pageGet s page.val).aspLast).toInt ∧ (pageGet s page.val).delivered.contains (page.val, 17, 3, msSeq m.bytes) = false ∧ (pageGet s page.val).outQ.any (fun x => aspKeyOf x.bytes = (page.val, 17, 3, msSeq m.bytes)) = false ∧ page = 1 ∧ i < 8 ∧ s.spi.lock = false ∧ (msBody m.bytes) = [0, 0, BitVec.ofNat 8 (0xA0 + 4 * i), 1] ++ leBytes 4 w.toNat)
    ∧ (∃ (s : State) (page : Fin 8) (m : AspMsg) (r : List AspMsg) (key : BitVec 128) (a : BitVec 24) (w : Word), (pageGet s page.val).inQ = m :: r ∧ aspOn s = true ∧ (page = 1 → (pageGet s 1).outQ.length < 16) ∧ pageShut s page.val = false ∧ msOk page.val m.bytes = true ∧ msType m.bytes = 17 ∧ (pageGet s page.val).aspKey = some key ∧ msAuth key m.bytes = true ∧ 0 < (msSeq m.bytes - (pageGet s page.val).aspLast).toInt ∧ (pageGet s page.val).delivered.contains (page.val, 17, 3, msSeq m.bytes) = false ∧ (pageGet s page.val).outQ.any (fun x => aspKeyOf x.bytes = (page.val, 17, 3, msSeq m.bytes)) = false ∧ 0x200000 ≤ a.toNat ∧ a.toNat % 4 = 0 ∧ winHas s page.val (a.toNat - 0x200000) 4 = true ∧ (msBody m.bytes) = beBytes 3 a.toNat ++ [1] ++ leBytes 4 w.toNat)
    ∧ (∃ (s : State) (page : Fin 8) (m : AspMsg) (r : List AspMsg) (key : BitVec 128), (pageGet s page.val).inQ = m :: r ∧ aspOn s = true ∧ (page = 1 → (pageGet s 1).outQ.length < 16) ∧ pageShut s page.val = false ∧ msOk page.val m.bytes = true ∧ msType m.bytes = 17 ∧ (pageGet s page.val).aspKey = some key ∧ msAuth key m.bytes = true ∧ 0 < (msSeq m.bytes - (pageGet s page.val).aspLast).toInt ∧ (pageGet s page.val).delivered.contains (page.val, 17, 3, msSeq m.bytes) = false ∧ (pageGet s page.val).outQ.any (fun x => aspKeyOf x.bytes = (page.val, 17, 3, msSeq m.bytes)) = false ∧ page ≠ 1 ∧ (msBody m.bytes).length = 8 ∧ u8 (msBody m.bytes) 3 = 1 ∧ lockWord (beNat ((msBody m.bytes).take 3)) = true ∧ beNat ((msBody m.bytes).take 3) % 4 = 0)
    ∧ (∃ (s : State) (page : Fin 8) (m : AspMsg) (r : List AspMsg) (key : BitVec 128) (off : Nat) (n : Nat), (pageGet s page.val).inQ = m :: r ∧ aspOn s = true ∧ (page = 1 → (pageGet s 1).outQ.length < 16) ∧ pageShut s page.val = false ∧ msOk page.val m.bytes = true ∧ msType m.bytes = 18 ∧ (pageGet s page.val).aspKey = some key ∧ msAuth key m.bytes = true ∧ 0 < (msSeq m.bytes - (pageGet s page.val).aspLast).toInt ∧ (pageGet s page.val).delivered.contains (page.val, 18, 3, msSeq m.bytes) = false ∧ (pageGet s page.val).outQ.any (fun x => aspKeyOf x.bytes = (page.val, 18, 3, msSeq m.bytes)) = false ∧ (msBody m.bytes).length = 6 ∧ beNat ((msBody m.bytes).take 4) = off ∧ beNat (sl (msBody m.bytes) 4 2) = n ∧ 1 ≤ n ∧ n ≤ 1008 ∧ winHas s page.val off n = true)
    ∧ (∃ (s : State) (page : Fin 8) (m : AspMsg) (r : List AspMsg) (key : BitVec 128) (off : Nat) (n : Nat), (pageGet s page.val).inQ = m :: r ∧ aspOn s = true ∧ (page = 1 → (pageGet s 1).outQ.length < 16) ∧ pageShut s page.val = false ∧ msOk page.val m.bytes = true ∧ msType m.bytes = 18 ∧ (pageGet s page.val).aspKey = some key ∧ msAuth key m.bytes = true ∧ 0 < (msSeq m.bytes - (pageGet s page.val).aspLast).toInt ∧ (pageGet s page.val).delivered.contains (page.val, 18, 3, msSeq m.bytes) = false ∧ (pageGet s page.val).outQ.any (fun x => aspKeyOf x.bytes = (page.val, 18, 3, msSeq m.bytes)) = false ∧ (msBody m.bytes).length = 6 ∧ beNat ((msBody m.bytes).take 4) = off ∧ beNat (sl (msBody m.bytes) 4 2) = n ∧ 1 ≤ n ∧ n ≤ 1008 ∧ winHas s page.val off n = false) :=
  ⟨⟨aspS 16 [0, 0, 0xA4, 1], 1, msg1 16 [0, 0, 0xA4, 1], [], aspK, 1, by decide +kernel⟩,
   ⟨aspS 16 [0, 0, 0x10, 1], 1, msg1 16 [0, 0, 0x10, 1], [], aspK, by decide +kernel⟩,
   ⟨aspS 16 [0x0B, 0, 0x10, 1], 1, msg1 16 [0x0B, 0, 0x10, 1], [], aspK, by decide +kernel⟩,
   ⟨aspS 17 ([0, 0, 0xA4, 1] ++ leBytes 4 5), 1, msg1 17 ([0, 0, 0xA4, 1] ++ leBytes 4 5), [], aspK, 1, 5, by decide +kernel⟩,
   ⟨(grant1 (aspS 17 ([0x20, 0, 0x10, 1] ++ leBytes 4 5))), 1, msg1 17 ([0x20, 0, 0x10, 1] ++ leBytes 4 5), [], aspK, 0x200010, 5, by decide +kernel⟩,
   ⟨{ rngS with flt.role := #v[0, 1, 2], pages := vmod rngS.pages 2 (fun p => { p with aspKey := some aspK, aspLast := 4, inQ := [{ msg0 with bytes := msMake aspK 2 17 0 5 ([0, 0, 0xA4, 1] ++ leBytes 4 5) }] }) }, 2, { msg0 with bytes := msMake aspK 2 0x11 0 5 ([0, 0, 0xA4, 1] ++ leBytes 4 5) }, [], aspK, by decide +kernel⟩,
   ⟨(grant1 (aspS 18 [0, 0, 0, 0x10, 0, 2])), 1, msg1 18 [0, 0, 0, 0x10, 0, 2], [], aspK, 0x10, 2, by decide +kernel⟩,
   ⟨aspS 18 [0, 0, 0, 0x10, 0, 2], 1, msg1 18 [0, 0, 0, 0x10, 0, 2], [], aspK, 0x10, 2, by decide +kernel⟩⟩

theorem test_witness_AspRequests_2 :
    (∃ (s : State) (page : Fin 8) (m : AspMsg) (r : List AspMsg) (key : BitVec 128) (off : Nat) (n : Nat), (pageGet s page.val).inQ = m :: r ∧ aspOn s = true ∧ (page = 1 → (pageGet s 1).outQ.length < 16) ∧ pageShut s page.val = false ∧ msOk page.val m.bytes = true ∧ msType m.bytes = 19 ∧ (pageGet s page.val).aspKey = some key ∧ msAuth key m.bytes = true ∧ 0 < (msSeq m.bytes - (pageGet s page.val).aspLast).toInt ∧ (pageGet s page.val).delivered.contains (page.val, 19, 3, msSeq m.bytes) = false ∧ (pageGet s page.val).outQ.any (fun x => aspKeyOf x.bytes = (page.val, 19, 3, msSeq m.bytes)) = false ∧ (msBody m.bytes).length = 6 + n ∧ beNat ((msBody m.bytes).take 4) = off ∧ beNat (sl (msBody m.bytes) 4 2) = n ∧ 1 ≤ n ∧ winHas s page.val off n = true)
    ∧ (∃ (s : State) (page : Fin 8) (m : AspMsg) (r : List AspMsg) (key : BitVec 128) (off : Nat) (n : Nat), (pageGet s page.val).inQ = m :: r ∧ aspOn s = true ∧ (page = 1 → (pageGet s 1).outQ.length < 16) ∧ pageShut s page.val = false ∧ msOk page.val m.bytes = true ∧ msType m.bytes = 19 ∧ (pageGet s page.val).aspKey = some key ∧ msAuth key m.bytes = true ∧ 0 < (msSeq m.bytes - (pageGet s page.val).aspLast).toInt ∧ (pageGet s page.val).delivered.contains (page.val, 19, 3, msSeq m.bytes) = false ∧ (pageGet s page.val).outQ.any (fun x => aspKeyOf x.bytes = (page.val, 19, 3, msSeq m.bytes)) = false ∧ (msBody m.bytes).length = 6 + n ∧ beNat ((msBody m.bytes).take 4) = off ∧ beNat (sl (msBody m.bytes) 4 2) = n ∧ 1 ≤ n ∧ winHas s page.val off n = false)
    ∧ (∃ (s : State) (page : Fin 8) (m : AspMsg) (r : List AspMsg) (key : BitVec 128) (n : Nat), (pageGet s page.val).inQ = m :: r ∧ aspOn s = true ∧ (page = 1 → (pageGet s 1).outQ.length < 16) ∧ pageShut s page.val = false ∧ msOk page.val m.bytes = true ∧ msType m.bytes = 32 ∧ (pageGet s page.val).aspKey = some key ∧ msAuth key m.bytes = true ∧ 0 < (msSeq m.bytes - (pageGet s page.val).aspLast).toInt ∧ (pageGet s page.val).delivered.contains (page.val, 32, 3, msSeq m.bytes) = false ∧ (pageGet s page.val).outQ.any (fun x => aspKeyOf x.bytes = (page.val, 32, 3, msSeq m.bytes)) = false ∧ (msBody m.bytes).length = 2 + 64 * n ∧ u8 (msBody m.bytes) 1 = n ∧ 1 ≤ n ∧ n ≤ 15 ∧ u8 (msBody m.bytes) 0 < 32 ∧ ringPage (u8 (msBody m.bytes) 0) = page.val ∧ (ringGet s (u8 (msBody m.bytes) 0)).en = true ∧ ((ringGet s (u8 (msBody m.bytes) 0)).pi - (ringGet s (u8 (msBody m.bytes) 0)).fi).toNat + n ≤ depthOf (ringGet s (u8 (msBody m.bytes) 0)).depth)
    ∧ (∃ (s : State) (page : Fin 8) (m : AspMsg) (r : List AspMsg) (key : BitVec 128) (n : Nat), (pageGet s page.val).inQ = m :: r ∧ aspOn s = true ∧ (page = 1 → (pageGet s 1).outQ.length < 16) ∧ pageShut s page.val = false ∧ msOk page.val m.bytes = true ∧ msType m.bytes = 32 ∧ (pageGet s page.val).aspKey = some key ∧ msAuth key m.bytes = true ∧ 0 < (msSeq m.bytes - (pageGet s page.val).aspLast).toInt ∧ (pageGet s page.val).delivered.contains (page.val, 32, 3, msSeq m.bytes) = false ∧ (pageGet s page.val).outQ.any (fun x => aspKeyOf x.bytes = (page.val, 32, 3, msSeq m.bytes)) = false ∧ (msBody m.bytes).length = 2 + 64 * n ∧ u8 (msBody m.bytes) 1 = n ∧ 1 ≤ n ∧ n ≤ 15 ∧ u8 (msBody m.bytes) 0 < 32 ∧ ringPage (u8 (msBody m.bytes) 0) = page.val ∧ (ringGet s (u8 (msBody m.bytes) 0)).en = true ∧ depthOf (ringGet s (u8 (msBody m.bytes) 0)).depth < ((ringGet s (u8 (msBody m.bytes) 0)).pi - (ringGet s (u8 (msBody m.bytes) 0)).fi).toNat + n)
    ∧ (∃ (s : State) (page : Fin 8) (m : AspMsg) (r : List AspMsg) (key : BitVec 128) (n : Nat), (pageGet s page.val).inQ = m :: r ∧ aspOn s = true ∧ (page = 1 → (pageGet s 1).outQ.length < 16) ∧ pageShut s page.val = false ∧ msOk page.val m.bytes = true ∧ msType m.bytes = 32 ∧ (pageGet s page.val).aspKey = some key ∧ msAuth key m.bytes = true ∧ 0 < (msSeq m.bytes - (pageGet s page.val).aspLast).toInt ∧ (pageGet s page.val).delivered.contains (page.val, 32, 3, msSeq m.bytes) = false ∧ (pageGet s page.val).outQ.any (fun x => aspKeyOf x.bytes = (page.val, 32, 3, msSeq m.bytes)) = false ∧ (msBody m.bytes).length = 2 + 64 * n ∧ u8 (msBody m.bytes) 1 = n ∧ 1 ≤ n ∧ n ≤ 15 ∧ (32 ≤ u8 (msBody m.bytes) 0 ∨ ringPage (u8 (msBody m.bytes) 0) ≠ page.val))
    ∧ (∃ (s : State) (page : Fin 8) (m : AspMsg) (r : List AspMsg) (key : BitVec 128), (pageGet s page.val).inQ = m :: r ∧ aspOn s = true ∧ (page = 1 → (pageGet s 1).outQ.length < 16) ∧ pageShut s page.val = false ∧ msOk page.val m.bytes = true ∧ msType m.bytes = 33 ∧ (pageGet s page.val).aspKey = some key ∧ msAuth key m.bytes = true ∧ 0 < (msSeq m.bytes - (pageGet s page.val).aspLast).toInt ∧ (pageGet s page.val).delivered.contains (page.val, 33, 3, msSeq m.bytes) = false ∧ (pageGet s page.val).outQ.any (fun x => aspKeyOf x.bytes = (page.val, 33, 3, msSeq m.bytes)) = false ∧ (msBody m.bytes).length = 4 ∧ 1 ≤ u8 (msBody m.bytes) 3 ∧ u8 (msBody m.bytes) 3 ≤ 31 ∧ u8 (msBody m.bytes) 0 < 32 ∧ ringPage (u8 (msBody m.bytes) 0) = page.val ∧ beNat (sl (msBody m.bytes) 1 2) = (ringGet s (u8 (msBody m.bytes) 0)).cqPi.toNat)
    ∧ (∃ (s : State) (page : Fin 8) (m : AspMsg) (r : List AspMsg) (key : BitVec 128) (a : BitVec 16), (pageGet s page.val).inQ = m :: r ∧ aspOn s = true ∧ (page = 1 → (pageGet s 1).outQ.length < 16) ∧ pageShut s page.val = false ∧ msOk page.val m.bytes = true ∧ msType m.bytes = 33 ∧ (pageGet s page.val).aspKey = some key ∧ msAuth key m.bytes = true ∧ 0 < (msSeq m.bytes - (pageGet s page.val).aspLast).toInt ∧ (pageGet s page.val).delivered.contains (page.val, 33, 3, msSeq m.bytes) = false ∧ (pageGet s page.val).outQ.any (fun x => aspKeyOf x.bytes = (page.val, 33, 3, msSeq m.bytes)) = false ∧ (msBody m.bytes).length = 4 ∧ 1 ≤ u8 (msBody m.bytes) 3 ∧ u8 (msBody m.bytes) 3 ≤ 31 ∧ u8 (msBody m.bytes) 0 < 32 ∧ ringPage (u8 (msBody m.bytes) 0) = page.val ∧ BitVec.ofNat 16 (beNat (sl (msBody m.bytes) 1 2)) = a ∧ (ringGet s (u8 (msBody m.bytes) 0)).cqPi = a + 1 ∧ (a - (ringGet s (u8 (msBody m.bytes) 0)).cqCi).toNat ≤ ((ringGet s (u8 (msBody m.bytes) 0)).cqPi - (ringGet s (u8 (msBody m.bytes) 0)).cqCi).toNat)
    ∧ (∃ (s : State) (page : Fin 8) (m : AspMsg) (r : List AspMsg) (key : BitVec 128), (pageGet s page.val).inQ = m :: r ∧ aspOn s = true ∧ (page = 1 → (pageGet s 1).outQ.length < 16) ∧ pageShut s page.val = false ∧ msOk page.val m.bytes = true ∧ msType m.bytes = 64 ∧ (pageGet s page.val).aspKey = some key ∧ msAuth key m.bytes = true ∧ 0 < (msSeq m.bytes - (pageGet s page.val).aspLast).toInt ∧ (pageGet s page.val).delivered.contains (page.val, 64, 3, msSeq m.bytes) = false ∧ (pageGet s page.val).outQ.any (fun x => aspKeyOf x.bytes = (page.val, 64, 3, msSeq m.bytes)) = false ∧ page = 1 ∧ (msBody m.bytes) = [1]) :=
  ⟨⟨(grant1 (aspS 19 ([0, 0, 0, 0x10, 0, 2] ++ [8, 9]))), 1, msg1 19 ([0, 0, 0, 0x10, 0, 2] ++ [8, 9]), [], aspK, 0x10, 2, by decide +kernel⟩,
   ⟨aspS 19 ([0, 0, 0, 0x10, 0, 2] ++ [8, 9]), 1, msg1 19 ([0, 0, 0, 0x10, 0, 2] ++ [8, 9]), [], aspK, 0x10, 2, by decide +kernel⟩,
   ⟨(ring4 (aspS 32 ([4, 1] ++ List.replicate 64 0))), 1, msg1 32 ([4, 1] ++ List.replicate 64 0), [], aspK, 1, by decide +kernel⟩,
   ⟨(full4 (aspS 32 ([4, 1] ++ List.replicate 64 0))), 1, msg1 32 ([4, 1] ++ List.replicate 64 0), [], aspK, 1, by decide +kernel⟩,
   ⟨aspS 32 ([0, 1] ++ List.replicate 64 0), 1, msg1 32 ([0, 1] ++ List.replicate 64 0), [], aspK, 1, by decide +kernel⟩,
   ⟨aspS 33 [4, 0, 0, 3], 1, msg1 33 [4, 0, 0, 3], [], aspK, by decide +kernel⟩,
   ⟨(col4 (aspS 33 [4, 0, 0, 3])), 1, msg1 33 [4, 0, 0, 3], [], aspK, 0, by decide +kernel⟩,
   ⟨aspS 64 [1], 1, msg1 64 [1], [], aspK, by decide +kernel⟩⟩

theorem test_witness_AspRequests_3 :
    (∃ (s : State) (page : Fin 8) (m : AspMsg) (r : List AspMsg) (key : BitVec 128), (pageGet s page.val).inQ = m :: r ∧ aspOn s = true ∧ (page = 1 → (pageGet s 1).outQ.length < 16) ∧ pageShut s page.val = false ∧ msOk page.val m.bytes = true ∧ msType m.bytes = 64 ∧ (pageGet s page.val).aspKey = some key ∧ msAuth key m.bytes = true ∧ 0 < (msSeq m.bytes - (pageGet s page.val).aspLast).toInt ∧ (pageGet s page.val).delivered.contains (page.val, 64, 3, msSeq m.bytes) = false ∧ (pageGet s page.val).outQ.any (fun x => aspKeyOf x.bytes = (page.val, 64, 3, msSeq m.bytes)) = false ∧ page = 1 ∧ (msBody m.bytes) = [2])
    ∧ (∃ (s : State) (page : Fin 8) (m : AspMsg) (r : List AspMsg) (key : BitVec 128), (pageGet s page.val).inQ = m :: r ∧ aspOn s = true ∧ (page = 1 → (pageGet s 1).outQ.length < 16) ∧ pageShut s page.val = false ∧ msOk page.val m.bytes = true ∧ msType m.bytes = 64 ∧ (pageGet s page.val).aspKey = some key ∧ msAuth key m.bytes = true ∧ 0 < (msSeq m.bytes - (pageGet s page.val).aspLast).toInt ∧ (pageGet s page.val).delivered.contains (page.val, 64, 3, msSeq m.bytes) = false ∧ (pageGet s page.val).outQ.any (fun x => aspKeyOf x.bytes = (page.val, 64, 3, msSeq m.bytes)) = false ∧ page = 1 ∧ (msBody m.bytes) = [3])
    ∧ (∃ (s : State) (page : Fin 8) (m : AspMsg) (r : List AspMsg) (key : BitVec 128), (pageGet s page.val).inQ = m :: r ∧ aspOn s = true ∧ (page = 1 → (pageGet s 1).outQ.length < 16) ∧ pageShut s page.val = false ∧ msOk page.val m.bytes = true ∧ msType m.bytes = 64 ∧ (pageGet s page.val).aspKey = some key ∧ msAuth key m.bytes = true ∧ 0 < (msSeq m.bytes - (pageGet s page.val).aspLast).toInt ∧ (pageGet s page.val).delivered.contains (page.val, 64, 3, msSeq m.bytes) = false ∧ (pageGet s page.val).outQ.any (fun x => aspKeyOf x.bytes = (page.val, 64, 3, msSeq m.bytes)) = false ∧ page ≠ 1)
    ∧ (∃ (s : State) (page : Fin 8) (m : AspMsg) (r : List AspMsg) (key : BitVec 128), (pageGet s page.val).inQ = m :: r ∧ aspOn s = true ∧ (page = 1 → (pageGet s 1).outQ.length < 16) ∧ pageShut s page.val = false ∧ msOk page.val m.bytes = true ∧ msType m.bytes = 65 ∧ (pageGet s page.val).aspKey = some key ∧ msAuth key m.bytes = true ∧ 0 < (msSeq m.bytes - (pageGet s page.val).aspLast).toInt ∧ (pageGet s page.val).delivered.contains (page.val, 65, 3, msSeq m.bytes) = false ∧ (pageGet s page.val).outQ.any (fun x => aspKeyOf x.bytes = (page.val, 65, 3, msSeq m.bytes)) = false ∧ page = 1 ∧ (msBody m.bytes) = [0x5E, 0xC7])
    ∧ (∃ (s : State) (page : Fin 8) (m : AspMsg) (r : List AspMsg) (key : BitVec 128), (pageGet s page.val).inQ = m :: r ∧ aspOn s = true ∧ (page = 1 → (pageGet s 1).outQ.length < 16) ∧ pageShut s page.val = false ∧ msOk page.val m.bytes = true ∧ msType m.bytes = 65 ∧ (pageGet s page.val).aspKey = some key ∧ msAuth key m.bytes = true ∧ 0 < (msSeq m.bytes - (pageGet s page.val).aspLast).toInt ∧ (pageGet s page.val).delivered.contains (page.val, 65, 3, msSeq m.bytes) = false ∧ (pageGet s page.val).outQ.any (fun x => aspKeyOf x.bytes = (page.val, 65, 3, msSeq m.bytes)) = false ∧ page ≠ 1)
    ∧ (∃ (s : State) (page : Fin 8) (m : AspMsg) (r : List AspMsg) (key : BitVec 128), (pageGet s page.val).inQ = m :: r ∧ aspOn s = true ∧ (page = 1 → (pageGet s 1).outQ.length < 16) ∧ pageShut s page.val = false ∧ msOk page.val m.bytes = true ∧ msType m.bytes = 66 ∧ (pageGet s page.val).aspKey = some key ∧ msAuth key m.bytes = true ∧ 0 < (msSeq m.bytes - (pageGet s page.val).aspLast).toInt ∧ (pageGet s page.val).delivered.contains (page.val, 66, 3, msSeq m.bytes) = false ∧ (pageGet s page.val).outQ.any (fun x => aspKeyOf x.bytes = (page.val, 66, 3, msSeq m.bytes)) = false ∧ page = 1 ∧ (msBody m.bytes).length = 2)
    ∧ (∃ (s : State) (page : Fin 8) (m : AspMsg) (r : List AspMsg) (key : BitVec 128), (pageGet s page.val).inQ = m :: r ∧ aspOn s = true ∧ (page = 1 → (pageGet s 1).outQ.length < 16) ∧ pageShut s page.val = false ∧ msOk page.val m.bytes = true ∧ msType m.bytes = 66 ∧ (pageGet s page.val).aspKey = some key ∧ msAuth key m.bytes = true ∧ 0 < (msSeq m.bytes - (pageGet s page.val).aspLast).toInt ∧ (pageGet s page.val).delivered.contains (page.val, 66, 3, msSeq m.bytes) = false ∧ (pageGet s page.val).outQ.any (fun x => aspKeyOf x.bytes = (page.val, 66, 3, msSeq m.bytes)) = false ∧ page ≠ 1)
    ∧ (∃ (s : State) (page : Fin 8) (m : AspMsg) (r : List AspMsg) (key : BitVec 128), (pageGet s page.val).inQ = m :: r ∧ aspOn s = true ∧ (page = 1 → (pageGet s 1).outQ.length < 16) ∧ pageShut s page.val = false ∧ msOk page.val m.bytes = true ∧ msType m.bytes = 80 ∧ (pageGet s page.val).aspKey = some key ∧ msAuth key m.bytes = true ∧ 0 < (msSeq m.bytes - (pageGet s page.val).aspLast).toInt ∧ (pageGet s page.val).delivered.contains (page.val, 80, 3, msSeq m.bytes) = false ∧ (pageGet s page.val).outQ.any (fun x => aspKeyOf x.bytes = (page.val, 80, 3, msSeq m.bytes)) = false ∧ (msBody m.bytes).length = 4 ∧ s.acc.sessOpen = true ∧ beNat (msBody m.bytes) = s.acc.session) :=
  ⟨⟨aspS 64 [2], 1, msg1 64 [2], [], aspK, by decide +kernel⟩,
   ⟨aspS 64 [3], 1, msg1 64 [3], [], aspK, by decide +kernel⟩,
   ⟨{ rngS with flt.role := #v[0, 1, 2], pages := vmod rngS.pages 2 (fun p => { p with aspKey := some aspK, aspLast := 4, inQ := [{ msg0 with bytes := msMake aspK 2 64 0 5 [1] }] }) }, 2, { msg0 with bytes := msMake aspK 2 64 0 5 [1] }, [], aspK, by decide +kernel⟩,
   ⟨aspS 65 [0x5E, 0xC7], 1, msg1 65 [0x5E, 0xC7], [], aspK, by decide +kernel⟩,
   ⟨{ rngS with flt.role := #v[0, 1, 2], pages := vmod rngS.pages 2 (fun p => { p with aspKey := some aspK, aspLast := 4, inQ := [{ msg0 with bytes := msMake aspK 2 65 0 5 [0x5E, 0xC7] }] }) }, 2, { msg0 with bytes := msMake aspK 2 65 0 5 [0x5E, 0xC7] }, [], aspK, by decide +kernel⟩,
   ⟨aspS 66 [3, 15], 1, msg1 66 [3, 15], [], aspK, by decide +kernel⟩,
   ⟨{ rngS with flt.role := #v[0, 1, 2], pages := vmod rngS.pages 2 (fun p => { p with aspKey := some aspK, aspLast := 4, inQ := [{ msg0 with bytes := msMake aspK 2 66 0 5 [3, 15] }] }) }, 2, { msg0 with bytes := msMake aspK 2 66 0 5 [3, 15] }, [], aspK, by decide +kernel⟩,
   ⟨(sess9 (aspS 80 [0, 0, 0, 9])), 1, msg1 80 [0, 0, 0, 9], [], aspK, by decide +kernel⟩⟩

theorem test_witness_AspRequests_4 :
    (∃ (s : State) (page : Fin 8) (m : AspMsg) (r : List AspMsg) (key : BitVec 128), (pageGet s page.val).inQ = m :: r ∧ aspOn s = true ∧ (page = 1 → (pageGet s 1).outQ.length < 16) ∧ pageShut s page.val = false ∧ msOk page.val m.bytes = true ∧ msType m.bytes = 80 ∧ (pageGet s page.val).aspKey = some key ∧ msAuth key m.bytes = true ∧ 0 < (msSeq m.bytes - (pageGet s page.val).aspLast).toInt ∧ (pageGet s page.val).delivered.contains (page.val, 80, 3, msSeq m.bytes) = false ∧ (pageGet s page.val).outQ.any (fun x => aspKeyOf x.bytes = (page.val, 80, 3, msSeq m.bytes)) = false ∧ (msBody m.bytes).length = 4 ∧ (s.acc.sessOpen = false ∨ beNat (msBody m.bytes) ≠ s.acc.session))
    ∧ (∃ (s : State) (page : Fin 8) (m : AspMsg) (r : List AspMsg) (key : BitVec 128), (pageGet s page.val).inQ = m :: r ∧ aspOn s = true ∧ (page = 1 → (pageGet s 1).outQ.length < 16) ∧ pageShut s page.val = false ∧ msOk page.val m.bytes = true ∧ msType m.bytes = 81 ∧ (pageGet s page.val).aspKey = some key ∧ msAuth key m.bytes = true ∧ 0 < (msSeq m.bytes - (pageGet s page.val).aspLast).toInt ∧ (pageGet s page.val).delivered.contains (page.val, 81, 3, msSeq m.bytes) = false ∧ (pageGet s page.val).outQ.any (fun x => aspKeyOf x.bytes = (page.val, 81, 3, msSeq m.bytes)) = false ∧ (msBody m.bytes).length = 4 ∧ s.acc.sessOpen = true ∧ beNat (msBody m.bytes) = s.acc.session)
    ∧ (∃ (s : State) (page : Fin 8) (m : AspMsg) (r : List AspMsg) (key : BitVec 128), (pageGet s page.val).inQ = m :: r ∧ aspOn s = true ∧ (page = 1 → (pageGet s 1).outQ.length < 16) ∧ pageShut s page.val = false ∧ msOk page.val m.bytes = true ∧ msType m.bytes = 81 ∧ (pageGet s page.val).aspKey = some key ∧ msAuth key m.bytes = true ∧ 0 < (msSeq m.bytes - (pageGet s page.val).aspLast).toInt ∧ (pageGet s page.val).delivered.contains (page.val, 81, 3, msSeq m.bytes) = false ∧ (pageGet s page.val).outQ.any (fun x => aspKeyOf x.bytes = (page.val, 81, 3, msSeq m.bytes)) = false ∧ (msBody m.bytes).length = 4 ∧ (s.acc.sessOpen = false ∨ beNat (msBody m.bytes) ≠ s.acc.session))
    ∧ (∃ (s : State) (page : Fin 8) (m : AspMsg) (r : List AspMsg) (key : BitVec 128), (pageGet s page.val).inQ = m :: r ∧ aspOn s = true ∧ (page = 1 → (pageGet s 1).outQ.length < 16) ∧ pageShut s page.val = false ∧ msOk page.val m.bytes = true ∧ msType m.bytes = 96 ∧ (pageGet s page.val).aspKey = some key ∧ msAuth key m.bytes = true ∧ 0 < (msSeq m.bytes - (pageGet s page.val).aspLast).toInt ∧ (pageGet s page.val).delivered.contains (page.val, 96, 3, msSeq m.bytes) = false ∧ (pageGet s page.val).outQ.any (fun x => aspKeyOf x.bytes = (page.val, 96, 3, msSeq m.bytes)) = false ∧ page = 1 ∧ (msBody m.bytes).length = 3 ∧ u8 (msBody m.bytes) 0 = 1 ∧ 11000 ≤ beNat ((msBody m.bytes).drop 1) ∧ beNat ((msBody m.bytes).drop 1) ≤ 14000)
    ∧ (∃ (s : State) (page : Fin 8) (m : AspMsg) (r : List AspMsg) (key : BitVec 128), (pageGet s page.val).inQ = m :: r ∧ aspOn s = true ∧ (page = 1 → (pageGet s 1).outQ.length < 16) ∧ pageShut s page.val = false ∧ msOk page.val m.bytes = true ∧ msType m.bytes = 96 ∧ (pageGet s page.val).aspKey = some key ∧ msAuth key m.bytes = true ∧ 0 < (msSeq m.bytes - (pageGet s page.val).aspLast).toInt ∧ (pageGet s page.val).delivered.contains (page.val, 96, 3, msSeq m.bytes) = false ∧ (pageGet s page.val).outQ.any (fun x => aspKeyOf x.bytes = (page.val, 96, 3, msSeq m.bytes)) = false ∧ page = 1 ∧ u8 (msBody m.bytes) 0 = 1 ∧ ovLen 1 ((msBody m.bytes).drop 1).length = true ∧ ovOk s 1 ((msBody m.bytes).drop 1) = false)
    ∧ (∃ (s : State) (page : Fin 8) (m : AspMsg) (r : List AspMsg) (key : BitVec 128), (pageGet s page.val).inQ = m :: r ∧ aspOn s = true ∧ (page = 1 → (pageGet s 1).outQ.length < 16) ∧ pageShut s page.val = false ∧ msOk page.val m.bytes = true ∧ msType m.bytes = 96 ∧ (pageGet s page.val).aspKey = some key ∧ msAuth key m.bytes = true ∧ 0 < (msSeq m.bytes - (pageGet s page.val).aspLast).toInt ∧ (pageGet s page.val).delivered.contains (page.val, 96, 3, msSeq m.bytes) = false ∧ (pageGet s page.val).outQ.any (fun x => aspKeyOf x.bytes = (page.val, 96, 3, msSeq m.bytes)) = false ∧ page = 1 ∧ u8 (msBody m.bytes) 0 = 2 ∧ ovLen 2 ((msBody m.bytes).drop 1).length = true ∧ ovOk s 2 ((msBody m.bytes).drop 1) = false)
    ∧ (∃ (s : State) (page : Fin 8) (m : AspMsg) (r : List AspMsg) (key : BitVec 128), (pageGet s page.val).inQ = m :: r ∧ aspOn s = true ∧ (page = 1 → (pageGet s 1).outQ.length < 16) ∧ pageShut s page.val = false ∧ msOk page.val m.bytes = true ∧ msType m.bytes = 96 ∧ (pageGet s page.val).aspKey = some key ∧ msAuth key m.bytes = true ∧ 0 < (msSeq m.bytes - (pageGet s page.val).aspLast).toInt ∧ (pageGet s page.val).delivered.contains (page.val, 96, 3, msSeq m.bytes) = false ∧ (pageGet s page.val).outQ.any (fun x => aspKeyOf x.bytes = (page.val, 96, 3, msSeq m.bytes)) = false ∧ page = 1 ∧ u8 (msBody m.bytes) 0 = 3 ∧ ovLen 3 ((msBody m.bytes).drop 1).length = true ∧ ovOk s 3 ((msBody m.bytes).drop 1) = false)
    ∧ (∃ (s : State) (page : Fin 8) (m : AspMsg) (r : List AspMsg) (key : BitVec 128), (pageGet s page.val).inQ = m :: r ∧ aspOn s = true ∧ (page = 1 → (pageGet s 1).outQ.length < 16) ∧ pageShut s page.val = false ∧ msOk page.val m.bytes = true ∧ msType m.bytes = 96 ∧ (pageGet s page.val).aspKey = some key ∧ msAuth key m.bytes = true ∧ 0 < (msSeq m.bytes - (pageGet s page.val).aspLast).toInt ∧ (pageGet s page.val).delivered.contains (page.val, 96, 3, msSeq m.bytes) = false ∧ (pageGet s page.val).outQ.any (fun x => aspKeyOf x.bytes = (page.val, 96, 3, msSeq m.bytes)) = false ∧ page = 1 ∧ u8 (msBody m.bytes) 0 = 4 ∧ ovLen 4 ((msBody m.bytes).drop 1).length = true ∧ ovOk s 4 ((msBody m.bytes).drop 1) = false) :=
  ⟨⟨aspS 80 [0, 0, 0, 9], 1, msg1 80 [0, 0, 0, 9], [], aspK, by decide +kernel⟩,
   ⟨(sess9 (aspS 81 [0, 0, 0, 9])), 1, msg1 81 [0, 0, 0, 9], [], aspK, by decide +kernel⟩,
   ⟨aspS 81 [0, 0, 0, 9], 1, msg1 81 [0, 0, 0, 9], [], aspK, by decide +kernel⟩,
   ⟨aspS 96 [1, 0x30, 0xD4], 1, msg1 96 [1, 0x30, 0xD4], [], aspK, by decide +kernel⟩,
   ⟨aspS 96 (1 :: [0, 0]), 1, msg1 96 (1 :: [0, 0]), [], aspK, by decide +kernel⟩,
   ⟨aspS 96 (2 :: List.replicate 33 0), 1, msg1 96 (2 :: List.replicate 33 0), [], aspK, by decide +kernel⟩,
   ⟨aspS 96 (3 :: List.replicate 33 0), 1, msg1 96 (3 :: List.replicate 33 0), [], aspK, by decide +kernel⟩,
   ⟨aspS 96 (4 :: List.replicate 11 0), 1, msg1 96 (4 :: List.replicate 11 0), [], aspK, by decide +kernel⟩⟩

theorem test_witness_AspRequests_5 :
    (∃ (s : State) (page : Fin 8) (m : AspMsg) (r : List AspMsg) (key : BitVec 128), (pageGet s page.val).inQ = m :: r ∧ aspOn s = true ∧ (page = 1 → (pageGet s 1).outQ.length < 16) ∧ pageShut s page.val = false ∧ msOk page.val m.bytes = true ∧ msType m.bytes = 96 ∧ (pageGet s page.val).aspKey = some key ∧ msAuth key m.bytes = true ∧ 0 < (msSeq m.bytes - (pageGet s page.val).aspLast).toInt ∧ (pageGet s page.val).delivered.contains (page.val, 96, 3, msSeq m.bytes) = false ∧ (pageGet s page.val).outQ.any (fun x => aspKeyOf x.bytes = (page.val, 96, 3, msSeq m.bytes)) = false ∧ page = 1 ∧ u8 (msBody m.bytes) 0 = 2 ∧ ovLen 2 ((msBody m.bytes).drop 1).length = true ∧ ovOk s 2 ((msBody m.bytes).drop 1) = true)
    ∧ (∃ (s : State) (page : Fin 8) (m : AspMsg) (r : List AspMsg) (key : BitVec 128), (pageGet s page.val).inQ = m :: r ∧ aspOn s = true ∧ (page = 1 → (pageGet s 1).outQ.length < 16) ∧ pageShut s page.val = false ∧ msOk page.val m.bytes = true ∧ msType m.bytes = 96 ∧ (pageGet s page.val).aspKey = some key ∧ msAuth key m.bytes = true ∧ 0 < (msSeq m.bytes - (pageGet s page.val).aspLast).toInt ∧ (pageGet s page.val).delivered.contains (page.val, 96, 3, msSeq m.bytes) = false ∧ (pageGet s page.val).outQ.any (fun x => aspKeyOf x.bytes = (page.val, 96, 3, msSeq m.bytes)) = false ∧ page = 1 ∧ u8 (msBody m.bytes) 0 = 3 ∧ ovLen 3 ((msBody m.bytes).drop 1).length = true ∧ ovOk s 3 ((msBody m.bytes).drop 1) = true)
    ∧ (∃ (s : State) (page : Fin 8) (m : AspMsg) (r : List AspMsg) (key : BitVec 128), (pageGet s page.val).inQ = m :: r ∧ aspOn s = true ∧ (page = 1 → (pageGet s 1).outQ.length < 16) ∧ pageShut s page.val = false ∧ msOk page.val m.bytes = true ∧ msType m.bytes = 96 ∧ (pageGet s page.val).aspKey = some key ∧ msAuth key m.bytes = true ∧ 0 < (msSeq m.bytes - (pageGet s page.val).aspLast).toInt ∧ (pageGet s page.val).delivered.contains (page.val, 96, 3, msSeq m.bytes) = false ∧ (pageGet s page.val).outQ.any (fun x => aspKeyOf x.bytes = (page.val, 96, 3, msSeq m.bytes)) = false ∧ page = 1 ∧ u8 (msBody m.bytes) 0 = 4 ∧ ovLen 4 ((msBody m.bytes).drop 1).length = true ∧ ovOk s 4 ((msBody m.bytes).drop 1) = true)
    ∧ (∃ (s : State) (page : Fin 8) (m : AspMsg) (r : List AspMsg) (key : BitVec 128), (pageGet s page.val).inQ = m :: r ∧ aspOn s = true ∧ (page = 1 → (pageGet s 1).outQ.length < 16) ∧ pageShut s page.val = false ∧ msOk page.val m.bytes = true ∧ msType m.bytes = 96 ∧ (pageGet s page.val).aspKey = some key ∧ msAuth key m.bytes = true ∧ 0 < (msSeq m.bytes - (pageGet s page.val).aspLast).toInt ∧ (pageGet s page.val).delivered.contains (page.val, 96, 3, msSeq m.bytes) = false ∧ (pageGet s page.val).outQ.any (fun x => aspKeyOf x.bytes = (page.val, 96, 3, msSeq m.bytes)) = false ∧ page ≠ 1 ∧ u8 (msBody m.bytes) 0 = 1)
    ∧ (∃ (s : State) (page : Fin 8) (m : AspMsg) (r : List AspMsg) (key : BitVec 128), (pageGet s page.val).inQ = m :: r ∧ aspOn s = true ∧ (page = 1 → (pageGet s 1).outQ.length < 16) ∧ pageShut s page.val = false ∧ msOk page.val m.bytes = true ∧ msType m.bytes = 96 ∧ (pageGet s page.val).aspKey = some key ∧ msAuth key m.bytes = true ∧ 0 < (msSeq m.bytes - (pageGet s page.val).aspLast).toInt ∧ (pageGet s page.val).delivered.contains (page.val, 96, 3, msSeq m.bytes) = false ∧ (pageGet s page.val).outQ.any (fun x => aspKeyOf x.bytes = (page.val, 96, 3, msSeq m.bytes)) = false ∧ page ≠ 1 ∧ u8 (msBody m.bytes) 0 = 2)
    ∧ (∃ (s : State) (page : Fin 8) (m : AspMsg) (r : List AspMsg) (key : BitVec 128), (pageGet s page.val).inQ = m :: r ∧ aspOn s = true ∧ (page = 1 → (pageGet s 1).outQ.length < 16) ∧ pageShut s page.val = false ∧ msOk page.val m.bytes = true ∧ msType m.bytes = 96 ∧ (pageGet s page.val).aspKey = some key ∧ msAuth key m.bytes = true ∧ 0 < (msSeq m.bytes - (pageGet s page.val).aspLast).toInt ∧ (pageGet s page.val).delivered.contains (page.val, 96, 3, msSeq m.bytes) = false ∧ (pageGet s page.val).outQ.any (fun x => aspKeyOf x.bytes = (page.val, 96, 3, msSeq m.bytes)) = false ∧ page ≠ 1 ∧ u8 (msBody m.bytes) 0 = 3)
    ∧ (∃ (s : State) (page : Fin 8) (m : AspMsg) (r : List AspMsg) (key : BitVec 128), (pageGet s page.val).inQ = m :: r ∧ aspOn s = true ∧ (page = 1 → (pageGet s 1).outQ.length < 16) ∧ pageShut s page.val = false ∧ msOk page.val m.bytes = true ∧ msType m.bytes = 96 ∧ (pageGet s page.val).aspKey = some key ∧ msAuth key m.bytes = true ∧ 0 < (msSeq m.bytes - (pageGet s page.val).aspLast).toInt ∧ (pageGet s page.val).delivered.contains (page.val, 96, 3, msSeq m.bytes) = false ∧ (pageGet s page.val).outQ.any (fun x => aspKeyOf x.bytes = (page.val, 96, 3, msSeq m.bytes)) = false ∧ page ≠ 1 ∧ u8 (msBody m.bytes) 0 = 4)
    ∧ (∃ (s : State) (page : Fin 8) (m : AspMsg) (r : List AspMsg) (key : BitVec 128), (pageGet s page.val).inQ = m :: r ∧ aspOn s = true ∧ (page = 1 → (pageGet s 1).outQ.length < 16) ∧ pageShut s page.val = false ∧ msOk page.val m.bytes = true ∧ msType m.bytes = 97 ∧ (pageGet s page.val).aspKey = some key ∧ msAuth key m.bytes = true ∧ 0 < (msSeq m.bytes - (pageGet s page.val).aspLast).toInt ∧ (pageGet s page.val).delivered.contains (page.val, 97, 3, msSeq m.bytes) = false ∧ (pageGet s page.val).outQ.any (fun x => aspKeyOf x.bytes = (page.val, 97, 3, msSeq m.bytes)) = false ∧ page = 1 ∧ msBody m.bytes = []) :=
  ⟨⟨(ovS (aspS 96 (2 :: 0 :: raWin raO 0))), 1, msg1 96 (2 :: 0 :: raWin raO 0), [], aspK, by decide +kernel⟩,
   ⟨(ovS (aspS 96 (3 :: 0 :: raTel raO 0))), 1, msg1 96 (3 :: 0 :: raTel raO 0), [], aspK, by decide +kernel⟩,
   ⟨(ovS (aspS 96 (4 :: sl rangO 9 11))), 1, msg1 96 (4 :: sl rangO 9 11), [], aspK, by decide +kernel⟩,
   ⟨{ rngS with flt.role := #v[0, 1, 2], pages := vmod rngS.pages 2 (fun p => { p with aspKey := some aspK, aspLast := 4, inQ := [{ msg0 with bytes := msMake aspK 2 96 0 5 (1 :: List.replicate 11 0) }] }) }, 2, { msg0 with bytes := msMake aspK 2 96 0 5 (1 :: List.replicate 11 0) }, [], aspK, by decide +kernel⟩,
   ⟨{ rngS with flt.role := #v[0, 1, 2], pages := vmod rngS.pages 2 (fun p => { p with aspKey := some aspK, aspLast := 4, inQ := [{ msg0 with bytes := msMake aspK 2 96 0 5 (2 :: List.replicate 11 0) }] }) }, 2, { msg0 with bytes := msMake aspK 2 96 0 5 (2 :: List.replicate 11 0) }, [], aspK, by decide +kernel⟩,
   ⟨{ rngS with flt.role := #v[0, 1, 2], pages := vmod rngS.pages 2 (fun p => { p with aspKey := some aspK, aspLast := 4, inQ := [{ msg0 with bytes := msMake aspK 2 96 0 5 (3 :: List.replicate 11 0) }] }) }, 2, { msg0 with bytes := msMake aspK 2 96 0 5 (3 :: List.replicate 11 0) }, [], aspK, by decide +kernel⟩,
   ⟨{ rngS with flt.role := #v[0, 1, 2], pages := vmod rngS.pages 2 (fun p => { p with aspKey := some aspK, aspLast := 4, inQ := [{ msg0 with bytes := msMake aspK 2 96 0 5 (4 :: List.replicate 11 0) }] }) }, 2, { msg0 with bytes := msMake aspK 2 96 0 5 (4 :: List.replicate 11 0) }, [], aspK, by decide +kernel⟩,
   ⟨aspS 97 [], 1, msg1 97 [], [], aspK, by decide +kernel⟩⟩

theorem test_witness_AspRequests_6 :
    ∃ (s : State) (page : Fin 8) (m : AspMsg) (r : List AspMsg) (key : BitVec 128), (pageGet s page.val).inQ = m :: r ∧ aspOn s = true ∧ (page = 1 → (pageGet s 1).outQ.length < 16) ∧ pageShut s page.val = false ∧ msOk page.val m.bytes = true ∧ msType m.bytes = 97 ∧ (pageGet s page.val).aspKey = some key ∧ msAuth key m.bytes = true ∧ 0 < (msSeq m.bytes - (pageGet s page.val).aspLast).toInt ∧ (pageGet s page.val).delivered.contains (page.val, 97, 3, msSeq m.bytes) = false ∧ (pageGet s page.val).outQ.any (fun x => aspKeyOf x.bytes = (page.val, 97, 3, msSeq m.bytes)) = false ∧ page ≠ 1 :=
  ⟨{ rngS with flt.role := #v[0, 1, 2], pages := vmod rngS.pages 2 (fun p => { p with aspKey := some aspK, aspLast := 4, inQ := [{ msg0 with bytes := msMake aspK 2 97 0 5 [] }] }) }, 2, { msg0 with bytes := msMake aspK 2 97 0 5 [] }, [], aspK, by decide +kernel⟩

theorem test_witness_UdsSessions_1 :
    (∃ (s : State) (c : Fin 3), udsLive s c.val = true)
    ∧ (∃ (s : State) (c : Fin 3), udsLive s c.val = true ∧ s.ks.lc = .blank ∧ pageTaken s c.val 7 = true)
    ∧ (∃ (s : State) (c : Fin 3), udsLive s c.val = true ∧ (s.ks.lc ≠ .blank ∨ pageTaken s c.val 7 = false))
    ∧ (∃ (s : State) (c : Fin 3), udsLive s c.val = true ∧ (s.ks.lc ≠ .blank ∨ pageTaken s c.val 7 = false))
    ∧ (∃ (s : State) (c : Fin 3), udsLive s c.val = true ∧ s.ks.lc = .blank ∧ pageTaken s c.val 7 = true)
    ∧ (∃ (s : State) (c : Fin 3), udsLive s c.val = true)
    ∧ (∃ (s : State) (c : Fin 3), udsLive s c.val = true)
    ∧ (∃ (s : State) (c : Fin 3) (sid : Byte), udsLive s c.val = true ∧ sidKnown sid.toNat = false) :=
  ⟨⟨(udsS 3), 0, by decide +kernel⟩,
   ⟨(udsS 3), 1, by decide +kernel⟩,
   ⟨(udsS 3), 0, by decide +kernel⟩,
   ⟨(udsS 3), 0, by decide +kernel⟩,
   ⟨(udsS 3), 1, by decide +kernel⟩,
   ⟨(udsS 3), 0, by decide +kernel⟩,
   ⟨(udsS 3), 0, by decide +kernel⟩,
   ⟨(udsS 3), 0, 0x2E, by decide +kernel⟩⟩

theorem test_witness_UdsSessions_2 :
    (∃ (s : State) (c : Fin 3) (sid : Byte), udsLive s c.val = true ∧ sidKnown sid.toNat = true)
    ∧ (∃ (s : State) (c : Fin 3), udsLive s c.val = true ∧ (connGet s c.val).session = 1)
    ∧ (∃ (s : State) (c : Fin 3), udsLive s c.val = true ∧ (connGet s c.val).session ≠ 1 ∧ capFull s c.val .workshop = false)
    ∧ (∃ (s : State) (c : Fin 3), udsLive s c.val = true ∧ (connGet s c.val).session ≠ 1 ∧ capFull s c.val .workshop = true)
    ∧ (∃ (s : State) (c : Fin 3), (connGet s c.val).session ≠ 1 ∧ s.diag.routine = none ∧ (connGet s c.val).s3 + tS 5 ≤ s.elapsed)
    ∧ (∃ (s : State) (c : Fin 3) (r : Routine), (connGet s c.val).session ≠ 1 ∧ s.diag.routine = some r ∧ (r.running = false ∨ r.conn ≠ c.val) ∧ (connGet s c.val).s3 + tS 5 ≤ s.elapsed)
    ∧ (∃ (s : State) (c : Fin 3) (r : Routine), s.diag.routine = some r ∧ r.running = true ∧ r.conn = c.val)
    ∧ (∃ (s : State) (c : Fin 3), (connGet s c.val).session = 1) :=
  ⟨⟨(udsS 3), 0, 0x22, by decide +kernel⟩,
   ⟨(udsS 1), 0, by decide +kernel⟩,
   ⟨{ udsS 3 with diag.conns := vmod (udsS 3).diag.conns 0 (fun x => { x with page := 0 }) }, 0, by decide +kernel⟩,
   ⟨(udsS 3), 0, by decide +kernel⟩,
   ⟨{ udsS 3 with elapsed := 64000000000 * 6 }, 0, by decide +kernel⟩,
   ⟨{ fieldS with diag.routine := some runR, elapsed := 64000000000 * 6 }, 0, runR, by exact ⟨by decide +kernel, rfl, .inr (by decide +kernel), by decide +kernel⟩⟩,
   ⟨{ fieldS with diag.routine := some runR, elapsed := 64000000000 * 6 }, 1, runR, by decide +kernel⟩,
   ⟨udsS 1, 0, by decide +kernel⟩⟩

theorem test_witness_UdsSessions_3 :
    ∃ (s : State) (c : Fin 3), s.elapsed < (connGet s c.val).s3 + tS 5 :=
  ⟨(udsS 3), 0, by decide +kernel⟩

theorem test_witness_UdsDtcAndData_1 :
    (∃ (s : State) (c : Fin 3) (group : BitVec 24), udsLive s c.val = true ∧ (connGet s c.val).session = 3 ∧ capFull s c.val .workshop = true ∧ group = 0xFFFFFF ∧ s.diag.conditions = [])
    ∧ (∃ (s : State) (c : Fin 3) (group : BitVec 24), udsLive s c.val = true ∧ (connGet s c.val).session = 3 ∧ capFull s c.val .workshop = true ∧ group = 0xFFFFFF)
    ∧ (∃ (s : State) (c : Fin 3), udsLive s c.val = true ∧ (connGet s c.val).session ≠ 3)
    ∧ (∃ (s : State) (c : Fin 3), udsLive s c.val = true ∧ (connGet s c.val).session = 3 ∧ capFull s c.val .workshop = false)
    ∧ (∃ (s : State) (c : Fin 3) (group : BitVec 24), udsLive s c.val = true ∧ (connGet s c.val).session = 3 ∧ capFull s c.val .workshop = true ∧ group ≠ 0xFFFFFF)
    ∧ (∃ (s : State) (c : Fin 3), udsLive s c.val = true)
    ∧ (∃ (s : State) (c : Fin 3), udsLive s c.val = true)
    ∧ (∃ (s : State) (c : Fin 3), udsLive s c.val = true) :=
  ⟨⟨dtcS, 0, 0xFFFFFF, by decide +kernel⟩,
   ⟨dtcS, 0, 0xFFFFFF, by decide +kernel⟩,
   ⟨(udsS 2), 0, by decide +kernel⟩,
   ⟨noPageS, 0, by decide +kernel⟩,
   ⟨dtcS, 0, 0x000001, by decide +kernel⟩,
   ⟨dtcS, 0, by decide +kernel⟩,
   ⟨dtcS, 0, by decide +kernel⟩,
   ⟨dtcS, 0, by decide +kernel⟩⟩

theorem test_witness_UdsDtcAndData_2 :
    (∃ (s : State) (c : Fin 3), udsLive s c.val = true)
    ∧ (∃ (s : State) (c : Fin 3) (l : List (BitVec 16)) (bs : List Bytes), udsLive s c.val = true ∧ l ≠ [] ∧ l.length ≤ 8 ∧ l.map (fun d => (didRead (udsHeard c.val s) c.val d.toNat).toOption) = bs.map some)
    ∧ (∃ (s : State) (c : Fin 3) (a : List (BitVec 16)) (b : List (BitVec 16)) (d : BitVec 16) (n : Nat), udsLive s c.val = true ∧ a.length + b.length < 8 ∧ a.all (fun x => (didRead (udsHeard c.val s) c.val x.toNat).toOption.isSome) = true ∧ (match didRead (udsHeard c.val s) c.val d.toNat with | .error k => decide (k = n) | .ok _ => false) = true)
    ∧ (∃ (s : State) (c : Fin 3) (l : List (BitVec 16)), udsLive s c.val = true ∧ (l = [] ∨ 8 < l.length))
    ∧ (∃ (s : State) (c : Fin 3) (d : BitVec 16) (b : Bytes), udsLive s c.val = true ∧ d.toNat ≠ 0xF187 ∧ d.toNat = 0xF1A1 ∧ b = s.boot.digest)
    ∧ (∃ (s : State) (c : Fin 3) (d : BitVec 16), udsLive s c.val = true ∧ 0xF200 ≤ d.toNat ∧ d.toNat ≤ 0xF2FF ∧ capFull s c.val .keys = true)
    ∧ (∃ (s : State) (c : Fin 3) (d : BitVec 16), udsLive s c.val = true ∧ 0xF200 ≤ d.toNat ∧ d.toNat ≤ 0xF2FF ∧ capFull s c.val .keys = false) :=
  ⟨⟨(udsS 3), 0, by decide +kernel⟩,
   ⟨(udsS 3), 0, [0xF187], [partName], by decide +kernel⟩,
   ⟨(udsS 3), 0, [0xF187], [], 0xF2FF, 0x33, by decide +kernel⟩,
   ⟨(udsS 3), 0, [], by decide +kernel⟩,
   ⟨(udsS 3), 0, 0xF1A1, (udsS 3).boot.digest, by decide +kernel⟩,
   ⟨{ udsS 3 with ks.fuses := 0x0F, diag.conns := vmod (udsS 3).diag.conns 0 (fun x => { x with page := 6, roles := 4 }) }, 0, 0xF205, by decide +kernel⟩,
   ⟨(udsS 3), 0, 0xF205, by decide +kernel⟩⟩

theorem test_witness_UdsAuthentication_1 :
    (∃ (s : State) (c : Fin 3) (chain : List TesterCert) (m : Nat) (e : Nat) (r : BitVec 5) (a : BitVec 128) (b : BitVec 128) (q : List (BitVec 128)), udsLive s c.val = true ∧ (connGet s c.val).session ≠ 1 ∧ s.ks.lc ≠ .blank ∧ s.diag.exceeded = false ∧ s.diag.lockUntil = none ∧ chain ≠ [] ∧ chain.length ≤ 2 ∧ chain.all certForm = true ∧ (chainCheck s chain).toOption = some (m, e, r) ∧ s.rng.queue = a :: b :: q)
    ∧ (∃ (s : State) (c : Fin 3) (chain : List TesterCert) (n : Nat), udsLive s c.val = true ∧ (connGet s c.val).session ≠ 1 ∧ s.ks.lc ≠ .blank ∧ s.diag.exceeded = false ∧ s.diag.lockUntil = none ∧ chain ≠ [] ∧ chain.length ≤ 2 ∧ chain.all certForm = true ∧ (match chainCheck s chain with | .error k => decide (k = n) | .ok _ => false) = true ∧ s.diag.authFails = 2)
    ∧ (∃ (s : State) (c : Fin 3), udsLive s c.val = true ∧ (connGet s c.val).session = 1)
    ∧ (∃ (s : State) (c : Fin 3), udsLive s c.val = true ∧ (connGet s c.val).session = 1)
    ∧ (∃ (s : State) (c : Fin 3), udsLive s c.val = true ∧ (connGet s c.val).session = 1)
    ∧ (∃ (s : State) (c : Fin 3), udsLive s c.val = true ∧ (connGet s c.val).session = 1)
    ∧ (∃ (s : State) (c : Fin 3), udsLive s c.val = true ∧ (connGet s c.val).session ≠ 1 ∧ s.ks.lc = .blank)
    ∧ (∃ (s : State) (c : Fin 3), udsLive s c.val = true ∧ (connGet s c.val).session ≠ 1 ∧ s.ks.lc ≠ .blank ∧ s.diag.exceeded = true) :=
  ⟨⟨certS, 0, [certT], oneM, 1, 0x1F, 1, 2, [3, 4, 5, 6, 7, 8, 9, 10], by decide +kernel⟩,
   ⟨{ udsS 3 with ks.fuses := 0x0F, diag.authFails := 2 }, 0, [certT], 0x52, by decide +kernel⟩,
   ⟨udsS 1, 0, by decide +kernel⟩,
   ⟨udsS 1, 0, by decide +kernel⟩,
   ⟨udsS 1, 0, by decide +kernel⟩,
   ⟨udsS 1, 0, by decide +kernel⟩,
   ⟨(udsS 3), 0, by decide +kernel⟩,
   ⟨{ udsS 3 with ks.fuses := 0x0F, diag.exceeded := true }, 0, by decide +kernel⟩⟩

theorem test_witness_UdsAuthentication_2 :
    (∃ (s : State) (c : Fin 3), udsLive s c.val = true ∧ (connGet s c.val).session ≠ 1 ∧ s.ks.lc ≠ .blank ∧ s.diag.exceeded = false ∧ s.diag.lockUntil.isSome = true)
    ∧ (∃ (s : State) (c : Fin 3), udsLive s c.val = true ∧ (connGet s c.val).session ≠ 1 ∧ s.ks.lc = .blank)
    ∧ (∃ (s : State) (c : Fin 3), udsLive s c.val = true ∧ (connGet s c.val).session ≠ 1 ∧ s.ks.lc ≠ .blank ∧ s.diag.exceeded = true)
    ∧ (∃ (s : State) (c : Fin 3), udsLive s c.val = true ∧ (connGet s c.val).session ≠ 1 ∧ s.ks.lc ≠ .blank ∧ s.diag.exceeded = false ∧ s.diag.lockUntil.isSome = true)
    ∧ (∃ (s : State) (c : Fin 3), udsLive s c.val = true ∧ (connGet s c.val).session ≠ 1 ∧ s.ks.lc = .blank)
    ∧ (∃ (s : State) (c : Fin 3), udsLive s c.val = true ∧ (connGet s c.val).session ≠ 1 ∧ s.ks.lc ≠ .blank ∧ s.diag.exceeded = true)
    ∧ (∃ (s : State) (c : Fin 3), udsLive s c.val = true ∧ (connGet s c.val).session ≠ 1 ∧ s.ks.lc ≠ .blank ∧ s.diag.exceeded = false ∧ s.diag.lockUntil.isSome = true)
    ∧ (∃ (s : State) (c : Fin 3) (config : Byte) (chain : List TesterCert), udsLive s c.val = true ∧ (connGet s c.val).session ≠ 1 ∧ s.ks.lc ≠ .blank ∧ s.diag.exceeded = false ∧ s.diag.lockUntil = none ∧ chain ≠ [] ∧ chain.length ≤ 2 ∧ chain.all certForm = true ∧ config ≠ 0) :=
  ⟨⟨{ udsS 3 with ks.fuses := 0x0F, diag.lockUntil := some 5 }, 0, by decide +kernel⟩,
   ⟨(udsS 3), 0, by decide +kernel⟩,
   ⟨{ udsS 3 with ks.fuses := 0x0F, diag.exceeded := true }, 0, by decide +kernel⟩,
   ⟨{ udsS 3 with ks.fuses := 0x0F, diag.lockUntil := some 5 }, 0, by decide +kernel⟩,
   ⟨(udsS 3), 0, by decide +kernel⟩,
   ⟨{ udsS 3 with ks.fuses := 0x0F, diag.exceeded := true }, 0, by decide +kernel⟩,
   ⟨{ udsS 3 with ks.fuses := 0x0F, diag.lockUntil := some 5 }, 0, by decide +kernel⟩,
   ⟨certS, 0, 1, [certT], by decide +kernel⟩⟩

theorem test_witness_UdsAuthentication_3 :
    (∃ (s : State) (c : Fin 3) (chain : List TesterCert) (m : Nat) (e : Nat) (r : BitVec 5), udsLive s c.val = true ∧ (connGet s c.val).session ≠ 1 ∧ s.ks.lc ≠ .blank ∧ s.diag.exceeded = false ∧ s.diag.lockUntil = none ∧ chain ≠ [] ∧ chain.length ≤ 2 ∧ chain.all certForm = true ∧ (chainCheck s chain).toOption = some (m, e, r) ∧ s.rng.queue.length < 2 ∧ rngFails s = true)
    ∧ (∃ (s : State) (c : Fin 3) (chain : List TesterCert) (m : Nat) (e : Nat) (r : BitVec 5), udsLive s c.val = true ∧ (connGet s c.val).session ≠ 1 ∧ s.ks.lc ≠ .blank ∧ s.diag.exceeded = false ∧ s.diag.lockUntil = none ∧ chain ≠ [] ∧ chain.length ≤ 2 ∧ chain.all certForm = true ∧ (chainCheck s chain).toOption = some (m, e, r) ∧ s.rng.queue.length < 2 ∧ rngFails s = false)
    ∧ (∃ (s : State) (c : Fin 3) (chain : List TesterCert) (n : Nat), udsLive s c.val = true ∧ (connGet s c.val).session ≠ 1 ∧ s.ks.lc ≠ .blank ∧ s.diag.exceeded = false ∧ s.diag.lockUntil = none ∧ chain ≠ [] ∧ chain.length ≤ 2 ∧ chain.all certForm = true ∧ (match chainCheck s chain with | .error k => decide (k = n) | .ok _ => false) = true ∧ s.diag.authFails < 2)
    ∧ (∃ (s : State) (c : Fin 3) (chain : List TesterCert), udsLive s c.val = true ∧ (connGet s c.val).session ≠ 1 ∧ s.ks.lc ≠ .blank ∧ s.diag.exceeded = false ∧ s.diag.lockUntil = none ∧ (chain = [] ∨ 2 < chain.length ∨ chain.all certForm = false))
    ∧ (∃ (s : State) (c : Fin 3), udsLive s c.val = true ∧ (connGet s c.val).session ≠ 1 ∧ s.ks.lc ≠ .blank ∧ s.diag.exceeded = true)
    ∧ (∃ (s : State) (c : Fin 3), udsLive s c.val = true ∧ (connGet s c.val).session ≠ 1 ∧ s.ks.lc ≠ .blank ∧ s.diag.exceeded = false ∧ s.diag.lockUntil.isSome = true)
    ∧ (∃ (s : State) (c : Fin 3), udsLive s c.val = true ∧ (connGet s c.val).session ≠ 1 ∧ s.ks.lc = .blank)
    ∧ (∃ (s : State) (c : Fin 3) (sig : Bytes) (ch : Bytes) (m : Nat) (e : Nat) (r : BitVec 5) (u : Bool), udsLive s c.val = true ∧ (connGet s c.val).session ≠ 1 ∧ s.ks.lc ≠ .blank ∧ s.diag.exceeded = false ∧ s.diag.lockUntil = none ∧ (connGet s c.val).auth = some (ch, m, e, r, u) ∧ ch ≠ [] ∧ ((authBind s r).1 = 0 ∨ pageTaken s c.val (authBind s r).1 = false) ∧ pssVerify m e 64 ch sig = true) :=
  ⟨⟨{ certS with rng.queue := [], rng.latched := true }, 0, [certT], oneM, 1, 0x1F, by decide +kernel⟩,
   ⟨{ certS with rng.queue := [] }, 0, [certT], oneM, 1, 0x1F, by decide +kernel⟩,
   ⟨{ udsS 3 with ks.fuses := 0x0F }, 0, [certT], 0x52, by decide +kernel⟩,
   ⟨{ udsS 3 with ks.fuses := 0x0F }, 0, [], by exact ⟨by decide +kernel, by decide +kernel, by decide +kernel, by decide +kernel, by decide +kernel, .inl rfl⟩⟩,
   ⟨{ udsS 3 with ks.fuses := 0x0F, diag.exceeded := true }, 0, by decide +kernel⟩,
   ⟨{ udsS 3 with ks.fuses := 0x0F, diag.lockUntil := some 5 }, 0, by decide +kernel⟩,
   ⟨(udsS 3), 0, by decide +kernel⟩,
   ⟨proofS, 0, oneSig [7], [7], oneM, 1, 3, true, by decide +kernel⟩⟩

theorem test_witness_UdsAuthentication_4 :
    (∃ (s : State) (c : Fin 3) (sig : Bytes) (ch : Bytes) (m : Nat) (e : Nat) (r : BitVec 5) (u : Bool), udsLive s c.val = true ∧ (connGet s c.val).session ≠ 1 ∧ s.ks.lc ≠ .blank ∧ s.diag.exceeded = false ∧ s.diag.lockUntil = none ∧ (connGet s c.val).auth = some (ch, m, e, r, u) ∧ ch ≠ [] ∧ ((authBind s r).1 = 0 ∨ pageTaken s c.val (authBind s r).1 = false) ∧ pssVerify m e 64 ch sig = false ∧ s.diag.authFails < 2)
    ∧ (∃ (s : State) (c : Fin 3) (sig : Bytes) (ch : Bytes) (m : Nat) (e : Nat) (r : BitVec 5) (u : Bool), udsLive s c.val = true ∧ (connGet s c.val).session ≠ 1 ∧ s.ks.lc ≠ .blank ∧ s.diag.exceeded = false ∧ s.diag.lockUntil = none ∧ (connGet s c.val).auth = some (ch, m, e, r, u) ∧ ch ≠ [] ∧ ((authBind s r).1 = 0 ∨ pageTaken s c.val (authBind s r).1 = false) ∧ pssVerify m e 64 ch sig = false ∧ 2 ≤ s.diag.authFails)
    ∧ (∃ (s : State) (c : Fin 3) (ch : Bytes) (m : Nat) (e : Nat) (r : BitVec 5) (u : Bool), udsLive s c.val = true ∧ (connGet s c.val).session ≠ 1 ∧ s.ks.lc ≠ .blank ∧ s.diag.exceeded = false ∧ s.diag.lockUntil = none ∧ (connGet s c.val).auth = some (ch, m, e, r, u) ∧ (ch = [] ∨ ((authBind s r).1 ≠ 0 ∧ pageTaken s c.val (authBind s r).1 = true)))
    ∧ (∃ (s : State) (c : Fin 3), udsLive s c.val = true ∧ (connGet s c.val).session ≠ 1 ∧ s.ks.lc ≠ .blank ∧ s.diag.exceeded = false ∧ s.diag.lockUntil = none ∧ (connGet s c.val).auth = none)
    ∧ (∃ (s : State) (c : Fin 3), udsLive s c.val = true ∧ (connGet s c.val).session ≠ 1 ∧ s.ks.lc ≠ .blank ∧ s.diag.exceeded = false ∧ s.diag.lockUntil = none)
    ∧ (∃ (s : State) (c : Fin 3), udsLive s c.val = true ∧ (connGet s c.val).session ≠ 1 ∧ s.ks.lc ≠ .blank ∧ s.diag.exceeded = false ∧ s.diag.lockUntil = none)
    ∧ (∃ (s : State), s.diag.lockUntil.all (fun x => decide (s.elapsed < x)) = true)
    ∧ (∃ (s : State) (x : Nat), s.diag.lockUntil = some x ∧ x ≤ s.elapsed) :=
  ⟨⟨{ udsS 3 with ks.fuses := 0x0F, diag.conns := vmod (udsS 3).diag.conns 0 (fun x => { x with auth := some ([7], 5, 1, 3, true) }) }, 0, [], [7], 5, 1, 3, true, by decide +kernel⟩,
   ⟨{ udsS 3 with ks.fuses := 0x0F, diag.authFails := 2, diag.conns := vmod (udsS 3).diag.conns 0 (fun x => { x with auth := some ([7], 5, 1, 3, true) }) }, 0, [], [7], 5, 1, 3, true, by decide +kernel⟩,
   ⟨{ udsS 3 with ks.fuses := 0x0F, diag.conns := vmod (udsS 3).diag.conns 0 (fun x => { x with auth := some ([], 5, 1, 3, true) }) }, 0, [], 5, 1, 3, true, by exact ⟨by decide +kernel, by decide +kernel, by decide +kernel, by decide +kernel, by decide +kernel, rfl, .inl rfl⟩⟩,
   ⟨{ udsS 3 with ks.fuses := 0x0F }, 0, by decide +kernel⟩,
   ⟨{ udsS 3 with ks.fuses := 0x0F }, 0, by decide +kernel⟩,
   ⟨{ udsS 3 with ks.fuses := 0x0F }, 0, by decide +kernel⟩,
   ⟨udsS 3, by decide +kernel⟩,
   ⟨{ udsS 3 with diag.lockUntil := some 5 }, 5, by decide +kernel⟩⟩

theorem test_witness_UdsDownload_1 :
    (∃ (s : State) (c : Fin 3) (addr : BitVec 32) (size : BitVec 32), udsLive s c.val = true ∧ (connGet s c.val).session = 2 ∧ capFull s c.val .image = true ∧ addr.toNat % 4096 = 0 ∧ addr.toNat + size.toNat ≤ 67108864 ∧ size.toNat ≠ 0 ∧ s.diag.download = none)
    ∧ (∃ (s : State) (c : Fin 3), udsLive s c.val = true ∧ (connGet s c.val).session ≠ 2)
    ∧ (∃ (s : State) (c : Fin 3), udsLive s c.val = true ∧ (connGet s c.val).session = 2 ∧ capFull s c.val .image = false)
    ∧ (∃ (s : State) (c : Fin 3), udsLive s c.val = true ∧ (connGet s c.val).session ≠ 2)
    ∧ (∃ (s : State) (c : Fin 3), udsLive s c.val = true ∧ (connGet s c.val).session = 2 ∧ capFull s c.val .image = false)
    ∧ (∃ (s : State) (c : Fin 3), udsLive s c.val = true ∧ (connGet s c.val).session ≠ 2)
    ∧ (∃ (s : State) (c : Fin 3), udsLive s c.val = true ∧ (connGet s c.val).session = 2 ∧ capFull s c.val .image = false)
    ∧ (∃ (s : State) (c : Fin 3) (addr : BitVec 32) (size : BitVec 32), udsLive s c.val = true ∧ (connGet s c.val).session = 2 ∧ capFull s c.val .image = true ∧ addr.toNat % 4096 = 0 ∧ addr.toNat + size.toNat ≤ 67108864 ∧ size.toNat ≠ 0 ∧ s.diag.download.isSome = true) :=
  ⟨⟨udsS 2, 0, 4096, 8, by decide +kernel⟩,
   ⟨udsS 3, 0, by decide +kernel⟩,
   ⟨{ udsS 2 with diag.conns := vmod (udsS 2).diag.conns 0 (fun x => { x with page := 0 }) }, 0, by decide +kernel⟩,
   ⟨udsS 3, 0, by decide +kernel⟩,
   ⟨{ udsS 2 with diag.conns := vmod (udsS 2).diag.conns 0 (fun x => { x with page := 0 }) }, 0, by decide +kernel⟩,
   ⟨udsS 3, 0, by decide +kernel⟩,
   ⟨{ udsS 2 with diag.conns := vmod (udsS 2).diag.conns 0 (fun x => { x with page := 0 }) }, 0, by decide +kernel⟩,
   ⟨{ udsS 2 with diag.download := some (4096, 8, 0, 1) }, 0, 4096, 8, by decide +kernel⟩⟩

theorem test_witness_UdsDownload_2 :
    (∃ (s : State) (c : Fin 3), udsLive s c.val = true ∧ (connGet s c.val).session = 2 ∧ capFull s c.val .image = true ∧ s.diag.download = none)
    ∧ (∃ (s : State) (c : Fin 3) (data : Bytes) (off : Nat) (size : Nat) (n : Nat) (next : Nat), udsLive s c.val = true ∧ (connGet s c.val).session = 2 ∧ capFull s c.val .image = true ∧ s.diag.download = some (off, size, n, next) ∧ (data = [] ∨ 0x400 < data.length))
    ∧ (∃ (s : State) (c : Fin 3) (block : Byte) (data : Bytes) (off : Nat) (size : Nat) (n : Nat) (next : Nat), udsLive s c.val = true ∧ (connGet s c.val).session = 2 ∧ capFull s c.val .image = true ∧ s.diag.download = some (off, size, n, next) ∧ data ≠ [] ∧ data.length ≤ 0x400 ∧ block.toNat = next ∧ (n = 0 ∨ next ≠ (next + 255) % 256) ∧ size < n + data.length)
    ∧ (∃ (s : State) (c : Fin 3), udsLive s c.val = true ∧ (connGet s c.val).session = 2 ∧ capFull s c.val .image = true ∧ s.diag.download = none)
    ∧ (∃ (s : State) (c : Fin 3) (fmt : Byte) (al : Byte) (addr : BitVec 32) (size : BitVec 32), udsLive s c.val = true ∧ (connGet s c.val).session = 2 ∧ capFull s c.val .image = true ∧ (fmt ≠ 0 ∨ al ≠ 0x44 ∨ addr.toNat % 4096 ≠ 0 ∨ 67108864 < addr.toNat + size.toNat ∨ size.toNat = 0))
    ∧ (∃ (s : State) (c : Fin 3) (block : Byte) (data : Bytes) (off : Nat) (size : Nat) (n : Nat) (next : Nat), udsLive s c.val = true ∧ (connGet s c.val).session = 2 ∧ capFull s c.val .image = true ∧ s.diag.download = some (off, size, n, next) ∧ data ≠ [] ∧ data.length ≤ 0x400 ∧ block.toNat = next ∧ n + data.length ≤ size ∧ (n = 0 ∨ next ≠ (next + 255) % 256))
    ∧ (∃ (s : State) (c : Fin 3) (block : Byte) (data : Bytes) (off : Nat) (size : Nat) (n : Nat) (next : Nat), udsLive s c.val = true ∧ (connGet s c.val).session = 2 ∧ capFull s c.val .image = true ∧ s.diag.download = some (off, size, n, next) ∧ data ≠ [] ∧ data.length ≤ 0x400 ∧ block.toNat = next ∧ n + data.length ≤ size ∧ (n = 0 ∨ next ≠ (next + 255) % 256))
    ∧ (∃ (s : State) (c : Fin 3) (block : Byte) (data : Bytes) (off : Nat) (size : Nat) (n : Nat) (next : Nat), udsLive s c.val = true ∧ (connGet s c.val).session = 2 ∧ capFull s c.val .image = true ∧ s.diag.download = some (off, size, n, next) ∧ data ≠ [] ∧ data.length ≤ 0x400 ∧ 0 < n ∧ block.toNat = (next + 255) % 256) :=
  ⟨⟨udsS 2, 0, by decide +kernel⟩,
   ⟨{ udsS 2 with diag.download := some (4096, 8, 0, 1) }, 0, [], 4096, 8, 0, 1, by exact ⟨by decide +kernel, by decide +kernel, by decide +kernel, by decide +kernel, .inl rfl⟩⟩,
   ⟨{ udsS 2 with diag.download := some (4096, 1, 0, 1) }, 0, 1, [1, 2], 4096, 1, 0, 1, by decide +kernel⟩,
   ⟨udsS 2, 0, by decide +kernel⟩,
   ⟨udsS 2, 0, 0, 0x44, 4097, 8, by decide +kernel⟩,
   ⟨{ udsS 2 with diag.download := some (4096, 8, 0, 1) }, 0, 1, [1, 2], 4096, 8, 0, 1, by decide +kernel⟩,
   ⟨{ udsS 2 with diag.download := some (4096, 8, 0, 1) }, 0, 1, [1, 2], 4096, 8, 0, 1, by decide +kernel⟩,
   ⟨{ udsS 2 with diag.download := some (4096, 8, 2, 2) }, 0, 1, [1, 2], 4096, 8, 2, 2, by decide +kernel⟩⟩

theorem test_witness_UdsDownload_3 :
    (∃ (s : State) (c : Fin 3) (block : Byte) (data : Bytes) (off : Nat) (size : Nat) (n : Nat) (next : Nat), udsLive s c.val = true ∧ (connGet s c.val).session = 2 ∧ capFull s c.val .image = true ∧ s.diag.download = some (off, size, n, next) ∧ data ≠ [] ∧ data.length ≤ 0x400 ∧ (n = 0 ∨ block.toNat ≠ (next + 255) % 256) ∧ block.toNat ≠ next)
    ∧ (∃ (s : State) (c : Fin 3) (off : Nat) (size : Nat) (n : Nat) (next : Nat), udsLive s c.val = true ∧ (connGet s c.val).session = 2 ∧ capFull s c.val .image = true ∧ s.diag.download = some (off, size, n, next) ∧ size ≤ n)
    ∧ (∃ (s : State) (c : Fin 3) (off : Nat) (size : Nat) (n : Nat) (next : Nat), udsLive s c.val = true ∧ (connGet s c.val).session = 2 ∧ capFull s c.val .image = true ∧ s.diag.download = some (off, size, n, next) ∧ n < size) :=
  ⟨⟨{ udsS 2 with diag.download := some (4096, 8, 0, 1) }, 0, 7, [1, 2], 4096, 8, 0, 1, by decide +kernel⟩,
   ⟨{ udsS 2 with diag.download := some (4096, 8, 8, 2) }, 0, 4096, 8, 8, 2, by decide +kernel⟩,
   ⟨{ udsS 2 with diag.download := some (4096, 8, 0, 1) }, 0, 4096, 8, 0, 1, by decide +kernel⟩⟩

theorem test_witness_WorkshopRoutines_1 :
    (∃ (s : State) (c : Fin 3), udsLive s c.val = true ∧ rtRefused s c.val 61696 = none ∧ rtRunning s = false)
    ∧ (∃ (s : State) (c : Fin 3) (rc : Bytes) (key : Bytes), udsLive s c.val = true ∧ rtRefused s c.val 61712 = none ∧ rtRunning s = false ∧ rc.length = 32 ∧ key.length = 16 ∧ capDash s .keys = false ∧ roundFree s = true ∧ s.sup.measured = true ∧ learnLocked s = true)
    ∧ (∃ (s : State) (c : Fin 3) (rc : Bytes) (key : Bytes), udsLive s c.val = true ∧ rtRefused s c.val 61712 = none ∧ rtRunning s = false ∧ rc.length = 32 ∧ key.length = 16 ∧ capDash s .keys = false ∧ roundFree s = false)
    ∧ (∃ (s : State) (c : Fin 3) (rc : Bytes) (key : Bytes) (i : Nat), udsLive s c.val = true ∧ rtRefused s c.val 61712 = none ∧ rtRunning s = false ∧ rc.length = 32 ∧ key.length = 16 ∧ capDash s .keys = false ∧ credRecordOk rc = true ∧ s.sup.measured = true ∧ freeIndex s 0 = some i ∧ learnLocked s = false ∧ roundFree s = true ∧ s.sup.thermOff = false ∧ coilOk s = true)
    ∧ (∃ (s : State) (c : Fin 3) (rc : Bytes) (key : Bytes), udsLive s c.val = true ∧ rtRefused s c.val 61712 = none ∧ rtRunning s = false ∧ rc.length = 32 ∧ key.length = 16 ∧ capDash s .keys = false ∧ s.sup.measured = false)
    ∧ (∃ (s : State) (c : Fin 3) (rc : Bytes) (key : Bytes), udsLive s c.val = true ∧ rtRefused s c.val 61712 = none ∧ rtRunning s = false ∧ rc.length = 32 ∧ key.length = 16 ∧ capDash s .keys = false ∧ roundFree s = true ∧ s.sup.measured = true ∧ learnLocked s = false ∧ (s.sup.thermOff = true ∨ coilOk s = false))
    ∧ (∃ (s : State) (c : Fin 3) (rc : Bytes) (key : Bytes), udsLive s c.val = true ∧ rtRefused s c.val 61712 = none ∧ rtRunning s = false ∧ rc.length = 32 ∧ key.length = 16 ∧ capDash s .keys = false ∧ credRecordOk rc = false ∧ s.sup.measured = true ∧ learnLocked s = false ∧ roundFree s = true ∧ s.sup.thermOff = false ∧ coilOk s = true)
    ∧ (∃ (s : State) (c : Fin 3), udsLive s c.val = true ∧ rtRefused s c.val 61713 = none ∧ rtRunning s = false ∧ capDash s .keys = false ∧ s.sup.measured = false) :=
  ⟨⟨fieldS, 0, by decide +kernel⟩,
   ⟨{ fieldS with tmp.latch := true }, 0, List.replicate 32 0, List.replicate 16 0, by decide +kernel⟩,
   ⟨{ fieldS with acc.seqn := some fuseQ }, 0, List.replicate 32 0, List.replicate 16 0, by decide +kernel⟩,
   ⟨fieldS, 0, List.replicate 32 0, List.replicate 16 0, 0, by decide +kernel⟩,
   ⟨{ fieldS with sup.measured := false }, 0, List.replicate 32 0, List.replicate 16 0, by decide +kernel⟩,
   ⟨{ fieldS with acc.profile := [] }, 0, List.replicate 32 0, List.replicate 16 0, by exact ⟨by decide +kernel, by decide +kernel, by decide +kernel, by decide +kernel, by decide +kernel, by decide +kernel, by decide +kernel, by decide +kernel, by decide +kernel, .inr (by decide +kernel)⟩⟩,
   ⟨fieldS, 0, 1 :: 3 :: List.replicate 30 0, List.replicate 16 0, by decide +kernel⟩,
   ⟨{ fieldS with sup.measured := false }, 0, by decide +kernel⟩⟩

theorem test_witness_WorkshopRoutines_2 :
    (∃ (s : State) (c : Fin 3), udsLive s c.val = true ∧ rtRefused s c.val 61713 = none ∧ rtRunning s = false ∧ capDash s .keys = false ∧ s.sup.measured = true ∧ learnLocked s = true)
    ∧ (∃ (s : State) (c : Fin 3) (st : Byte), udsLive s c.val = true ∧ rtRefused s c.val 61713 = none ∧ rtRunning s = false ∧ capDash s .keys = false ∧ s.sup.measured = true ∧ learnLocked s = false ∧ 2 < st.toNat)
    ∧ (∃ (s : State) (c : Fin 3) (st : Byte), udsLive s c.val = true ∧ rtRefused s c.val 61713 = none ∧ rtRunning s = false ∧ capDash s .keys = false ∧ s.sup.measured = true ∧ learnLocked s = false ∧ st.toNat ≤ 2)
    ∧ (∃ (s : State) (c : Fin 3) (p : Bytes), udsLive s c.val = true ∧ rtRefused s c.val 61714 = none ∧ rtRunning s = false ∧ p.length = 104 ∧ capDash s .keys = false ∧ s.sup.measured = false)
    ∧ (∃ (s : State) (c : Fin 3) (p : Bytes), udsLive s c.val = true ∧ rtRefused s c.val 61714 = none ∧ rtRunning s = false ∧ p.length = 104 ∧ capDash s .keys = false ∧ s.sup.measured = true ∧ learnLocked s = true)
    ∧ (∃ (s : State) (c : Fin 3) (p : Bytes), udsLive s c.val = true ∧ rtRefused s c.val 61714 = none ∧ rtRunning s = false ∧ p.length = 104 ∧ capDash s .keys = false ∧ s.sup.measured = true ∧ learnLocked s = false ∧ profileRecordOk s p = false)
    ∧ (∃ (s : State) (c : Fin 3) (p : Bytes), udsLive s c.val = true ∧ rtRefused s c.val 61714 = none ∧ rtRunning s = false ∧ capDash s .keys = false ∧ s.sup.measured = true ∧ learnLocked s = false ∧ profileRecordOk s p = true)
    ∧ (∃ (s : State) (c : Fin 3) (i : Nat), udsLive s c.val = true ∧ rtRefused s c.val 61792 = none ∧ rtRunning s = false ∧ capDash s .keys = false ∧ roundFree s = true ∧ s.sup.thermOff = false ∧ coilOk s = true ∧ freeIndex s 0 = some i) :=
  ⟨⟨{ fieldS with tmp.latch := true }, 0, by decide +kernel⟩,
   ⟨fieldS, 0, 3, by decide +kernel⟩,
   ⟨fieldS, 0, 2, by decide +kernel⟩,
   ⟨{ fieldS with sup.measured := false }, 0, profV, by decide +kernel⟩,
   ⟨{ fieldS with tmp.latch := true }, 0, profV, by decide +kernel⟩,
   ⟨fieldS, 0, List.replicate 104 0, by decide +kernel⟩,
   ⟨fieldS, 0, profV, by decide +kernel⟩,
   ⟨fieldS, 0, 0, by decide +kernel⟩⟩

theorem test_witness_WorkshopRoutines_3 :
    (∃ (s : State) (c : Fin 3), udsLive s c.val = true ∧ rtRefused s c.val 61792 = none ∧ rtRunning s = false ∧ capDash s .keys = false ∧ roundFree s = true ∧ (coilOk s = false ∨ s.sup.thermOff = true))
    ∧ (∃ (s : State) (c : Fin 3), udsLive s c.val = true ∧ rtRefused s c.val 61792 = none ∧ rtRunning s = false ∧ capDash s .keys = false ∧ roundFree s = false)
    ∧ (∃ (s : State) (c : Fin 3) (page : Byte), udsLive s c.val = true ∧ rtRefused s c.val 61793 = none ∧ rtRunning s = false ∧ capDash s .keys = false ∧ page ≠ 1 ∧ roundFree s = false)
    ∧ (∃ (s : State) (c : Fin 3) (page : Byte) (d : Bytes), udsLive s c.val = true ∧ rtRefused s c.val 61794 = none ∧ rtRunning s = false ∧ capDash s .keys = false ∧ d.length = 16 ∧ learnLocked s = false ∧ 2 ≤ page.toNat ∧ page.toNat ≤ 31 ∧ roundFree s = false)
    ∧ (∃ (s : State) (c : Fin 3) (page : Byte), udsLive s c.val = true ∧ rtRefused s c.val 61793 = none ∧ rtRunning s = false ∧ capDash s .keys = false ∧ page ≠ 1 ∧ roundFree s = true ∧ (coilOk s = false ∨ s.sup.thermOff = true))
    ∧ (∃ (s : State) (c : Fin 3) (page : Byte) (d : Bytes), udsLive s c.val = true ∧ rtRefused s c.val 61794 = none ∧ rtRunning s = false ∧ capDash s .keys = false ∧ d.length = 16 ∧ learnLocked s = false ∧ 2 ≤ page.toNat ∧ page.toNat ≤ 31 ∧ roundFree s = true ∧ (coilOk s = false ∨ s.sup.thermOff = true))
    ∧ (∃ (s : State) (c : Fin 3), udsLive s c.val = true ∧ rtRefused s c.val 61795 = none ∧ rtRunning s = false ∧ capDash s .keys = false ∧ learnLocked s = false ∧ roundFree s = true ∧ (coilOk s = false ∨ s.sup.thermOff = true))
    ∧ (∃ (s : State) (c : Fin 3) (page : Byte) (i : Nat), udsLive s c.val = true ∧ rtRefused s c.val 61793 = none ∧ rtRunning s = false ∧ capDash s .keys = false ∧ page ≠ 1 ∧ roundFree s = true ∧ s.sup.thermOff = false ∧ coilOk s = true ∧ freeIndex s 0 = some i) :=
  ⟨⟨{ fieldS with acc.profile := [] }, 0, by exact ⟨by decide +kernel, by decide +kernel, by decide +kernel, by decide +kernel, by decide +kernel, .inl (by decide +kernel)⟩⟩,
   ⟨{ fieldS with acc.seqn := some fuseQ }, 0, by decide +kernel⟩,
   ⟨{ fieldS with acc.seqn := some fuseQ }, 0, 2, by decide +kernel⟩,
   ⟨{ fieldS with acc.seqn := some fuseQ }, 0, 2, List.replicate 16 0, by decide +kernel⟩,
   ⟨{ fieldS with acc.profile := [] }, 0, 2, by exact ⟨by decide +kernel, by decide +kernel, by decide +kernel, by decide +kernel, by decide +kernel, by decide +kernel, .inl (by decide +kernel)⟩⟩,
   ⟨{ fieldS with acc.profile := [] }, 0, 2, List.replicate 16 0, by exact ⟨by decide +kernel, by decide +kernel, by decide +kernel, by decide +kernel, by decide +kernel, by decide +kernel, by decide +kernel, by decide +kernel, by decide +kernel, .inl (by decide +kernel)⟩⟩,
   ⟨{ fieldS with acc.profile := [] }, 0, by exact ⟨by decide +kernel, by decide +kernel, by decide +kernel, by decide +kernel, by decide +kernel, by decide +kernel, .inl (by decide +kernel)⟩⟩,
   ⟨fieldS, 0, 2, 0, by decide +kernel⟩⟩

theorem test_witness_WorkshopRoutines_4 :
    (∃ (s : State) (c : Fin 3), udsLive s c.val = true ∧ rtRefused s c.val 61793 = none ∧ rtRunning s = false ∧ capDash s .keys = false)
    ∧ (∃ (s : State) (c : Fin 3) (page : Byte) (d : Bytes) (i : Nat), udsLive s c.val = true ∧ rtRefused s c.val 61794 = none ∧ rtRunning s = false ∧ capDash s .keys = false ∧ d.length = 16 ∧ 2 ≤ page.toNat ∧ page.toNat ≤ 31 ∧ freeIndex s 0 = some i ∧ learnLocked s = false ∧ roundFree s = true ∧ s.sup.thermOff = false ∧ coilOk s = true)
    ∧ (∃ (s : State) (c : Fin 3) (d : Bytes), udsLive s c.val = true ∧ rtRefused s c.val 61794 = none ∧ rtRunning s = false ∧ capDash s .keys = false ∧ d.length = 16 ∧ learnLocked s = true)
    ∧ (∃ (s : State) (c : Fin 3) (page : Byte) (d : Bytes), udsLive s c.val = true ∧ rtRefused s c.val 61794 = none ∧ rtRunning s = false ∧ capDash s .keys = false ∧ d.length = 16 ∧ learnLocked s = false ∧ page = 1)
    ∧ (∃ (s : State) (c : Fin 3) (page : Byte) (d : Bytes), udsLive s c.val = true ∧ rtRefused s c.val 61794 = none ∧ rtRunning s = false ∧ capDash s .keys = false ∧ d.length = 16 ∧ learnLocked s = false ∧ (page = 0 ∨ 31 < page.toNat))
    ∧ (∃ (s : State) (c : Fin 3), udsLive s c.val = true ∧ rtRefused s c.val 61795 = none ∧ rtRunning s = false ∧ capDash s .keys = false ∧ learnLocked s = true)
    ∧ (∃ (s : State) (c : Fin 3) (i : Nat), udsLive s c.val = true ∧ rtRefused s c.val 61795 = none ∧ rtRunning s = false ∧ capDash s .keys = false ∧ freeIndex s 0 = some i ∧ learnLocked s = false ∧ roundFree s = true ∧ s.sup.thermOff = false ∧ coilOk s = true)
    ∧ (∃ (s : State) (c : Fin 3), udsLive s c.val = true ∧ rtRefused s c.val 61795 = none ∧ rtRunning s = false ∧ capDash s .keys = false ∧ roundFree s = false ∧ learnLocked s = false) :=
  ⟨⟨fieldS, 0, by decide +kernel⟩,
   ⟨fieldS, 0, 2, List.replicate 16 0, 0, by decide +kernel⟩,
   ⟨{ fieldS with tmp.latch := true }, 0, List.replicate 16 0, by decide +kernel⟩,
   ⟨fieldS, 0, 1, List.replicate 16 0, by decide +kernel⟩,
   ⟨fieldS, 0, 0, List.replicate 16 0, by exact ⟨by decide +kernel, by decide +kernel, by decide +kernel, by decide +kernel, by decide +kernel, by decide +kernel, .inl rfl⟩⟩,
   ⟨{ fieldS with tmp.latch := true }, 0, by decide +kernel⟩,
   ⟨fieldS, 0, 0, by decide +kernel⟩,
   ⟨{ fieldS with acc.seqn := some fuseQ }, 0, by decide +kernel⟩⟩

theorem test_witness_WorkshopRoutines_5 :
    (∃ (s : State) (c : Fin 3) (rid : BitVec 16) (r : Routine), udsLive s c.val = true ∧ rtRefused s c.val rid.toNat = none ∧ s.diag.routine = some r ∧ r.rid = rid.toNat ∧ r.running = false)
    ∧ (∃ (s : State) (c : Fin 3) (rid : BitVec 16), udsLive s c.val = true ∧ rtRefused s c.val rid.toNat = none ∧ ((∀ r, s.diag.routine = some r → r.rid ≠ rid.toNat)))
    ∧ (∃ (s : State) (c : Fin 3) (rid : BitVec 16) (r : Routine), udsLive s c.val = true ∧ rtRefused s c.val rid.toNat = none ∧ s.diag.routine = some r ∧ r.rid = rid.toNat ∧ r.running = true)
    ∧ (∃ (s : State) (c : Fin 3) (rid : BitVec 16) (n : Nat), udsLive s c.val = true ∧ rtRefused s c.val rid.toNat = some n)
    ∧ (∃ (s : State) (c : Fin 3) (nrc : Nat), udsLive s c.val = true ∧ (rtRefused s c.val 61696 = some nrc ∨ (rtRefused s c.val 61696 = none ∧ rtRunning s = true ∧ nrc = 0x22)))
    ∧ (∃ (s : State) (c : Fin 3) (rc : Bytes) (key : Bytes) (nrc : Nat), udsLive s c.val = true ∧ (rtRefused s c.val 61712 = some nrc ∨ (rtRefused s c.val 61712 = none ∧ ¬(rc.length = 32 ∧ key.length = 16) ∧ nrc = 0x13) ∨ (rtRefused s c.val 61712 = none ∧ (rc.length = 32 ∧ key.length = 16) ∧ rtRunning s = true ∧ nrc = 0x22)))
    ∧ (∃ (s : State) (c : Fin 3) (rc : Bytes) (key : Bytes), udsLive s c.val = true ∧ rtRefused s c.val 61712 = none ∧ rtRunning s = false ∧ rc.length = 32 ∧ key.length = 16 ∧ capDash s .keys = true)
    ∧ (∃ (s : State) (c : Fin 3) (nrc : Nat), udsLive s c.val = true ∧ (rtRefused s c.val 61713 = some nrc ∨ (rtRefused s c.val 61713 = none ∧ rtRunning s = true ∧ nrc = 0x22))) :=
  ⟨⟨{ fieldS with diag.routine := some { rid := 0xF110, conn := 0, running := false, status := .ok, result := [9], opt := [], step := 0 } }, 0, 0xF110, { rid := 0xF110, conn := 0, running := false, status := .ok, result := [9], opt := [], step := 0 }, by decide +kernel⟩,
   ⟨fieldS, 0, 0xF110, by exact ⟨by decide +kernel, by decide +kernel, fun _ h => nomatch h⟩⟩,
   ⟨{ fieldS with diag.routine := some runR }, 0, 0xF160, runR, by decide +kernel⟩,
   ⟨fieldS, 0, 0xF1FF, 0x31, by decide +kernel⟩,
   ⟨noPageS, 0, 0x33, by exact ⟨by decide +kernel, .inl (by decide +kernel)⟩⟩,
   ⟨udsS 2, 0, List.replicate 32 0, List.replicate 16 0, 0x7F, by exact ⟨by decide +kernel, .inl (by decide +kernel)⟩⟩,
   ⟨blankS, 0, List.replicate 32 0, List.replicate 16 0, by decide +kernel⟩,
   ⟨udsS 2, 0, 0x7F, by exact ⟨by decide +kernel, .inl (by decide +kernel)⟩⟩⟩

theorem test_witness_WorkshopRoutines_6 :
    (∃ (s : State) (c : Fin 3), udsLive s c.val = true ∧ rtRefused s c.val 61713 = none ∧ rtRunning s = false ∧ capDash s .keys = true)
    ∧ (∃ (s : State) (c : Fin 3) (p : Bytes) (nrc : Nat), udsLive s c.val = true ∧ (rtRefused s c.val 61714 = some nrc ∨ (rtRefused s c.val 61714 = none ∧ ¬(p.length = 104) ∧ nrc = 0x13) ∨ (rtRefused s c.val 61714 = none ∧ (p.length = 104) ∧ rtRunning s = true ∧ nrc = 0x22)))
    ∧ (∃ (s : State) (c : Fin 3) (p : Bytes), udsLive s c.val = true ∧ rtRefused s c.val 61714 = none ∧ rtRunning s = false ∧ p.length = 104 ∧ capDash s .keys = true)
    ∧ (∃ (s : State) (c : Fin 3) (nrc : Nat), udsLive s c.val = true ∧ (rtRefused s c.val 61792 = some nrc ∨ (rtRefused s c.val 61792 = none ∧ rtRunning s = true ∧ nrc = 0x22)))
    ∧ (∃ (s : State) (c : Fin 3), udsLive s c.val = true ∧ rtRefused s c.val 61792 = none ∧ rtRunning s = false ∧ capDash s .keys = true)
    ∧ (∃ (s : State) (c : Fin 3) (nrc : Nat), udsLive s c.val = true ∧ (rtRefused s c.val 61793 = some nrc ∨ (rtRefused s c.val 61793 = none ∧ rtRunning s = true ∧ nrc = 0x22)))
    ∧ (∃ (s : State) (c : Fin 3), udsLive s c.val = true ∧ rtRefused s c.val 61793 = none ∧ rtRunning s = false ∧ capDash s .keys = true)
    ∧ (∃ (s : State) (c : Fin 3) (d : Bytes) (nrc : Nat), udsLive s c.val = true ∧ (rtRefused s c.val 61794 = some nrc ∨ (rtRefused s c.val 61794 = none ∧ ¬(d.length = 16) ∧ nrc = 0x13) ∨ (rtRefused s c.val 61794 = none ∧ (d.length = 16) ∧ rtRunning s = true ∧ nrc = 0x22))) :=
  ⟨⟨blankS, 0, by decide +kernel⟩,
   ⟨udsS 2, 0, List.replicate 104 0, 0x7F, by exact ⟨by decide +kernel, .inl (by decide +kernel)⟩⟩,
   ⟨blankS, 0, List.replicate 104 0, by decide +kernel⟩,
   ⟨udsS 2, 0, 0x7F, by exact ⟨by decide +kernel, .inl (by decide +kernel)⟩⟩,
   ⟨blankS, 0, by decide +kernel⟩,
   ⟨udsS 2, 0, 0x7F, by exact ⟨by decide +kernel, .inl (by decide +kernel)⟩⟩,
   ⟨blankS, 0, by decide +kernel⟩,
   ⟨udsS 2, 0, List.replicate 16 0, 0x7F, by exact ⟨by decide +kernel, .inl (by decide +kernel)⟩⟩⟩

theorem test_witness_WorkshopRoutines_7 :
    (∃ (s : State) (c : Fin 3) (d : Bytes), udsLive s c.val = true ∧ rtRefused s c.val 61794 = none ∧ rtRunning s = false ∧ d.length = 16 ∧ capDash s .keys = true)
    ∧ (∃ (s : State) (c : Fin 3) (nrc : Nat), udsLive s c.val = true ∧ (rtRefused s c.val 61795 = some nrc ∨ (rtRefused s c.val 61795 = none ∧ rtRunning s = true ∧ nrc = 0x22)))
    ∧ (∃ (s : State) (c : Fin 3), udsLive s c.val = true ∧ rtRefused s c.val 61795 = none ∧ rtRunning s = false ∧ capDash s .keys = true) :=
  ⟨⟨blankS, 0, List.replicate 16 0, by decide +kernel⟩,
   ⟨udsS 2, 0, 0x7F, by exact ⟨by decide +kernel, .inl (by decide +kernel)⟩⟩,
   ⟨blankS, 0, by decide +kernel⟩⟩

theorem test_witness_KeyStoreRoutines_1 :
    (∃ (s : State) (c : Fin 3) (n : Fin 64) (a : Word) (g : BitVec 16) (key : Bytes) (st : Status), udsLive s c.val = true ∧ rtRefused s c.val 61728 = none ∧ rtRunning s = false ∧ key.length = 32 ∧ ((56 ≤ n.val ∨ s.sup.measured = true)) ∧ slotCheck (keyPage s) n.val true (some a) g.toNat false s = some st)
    ∧ (∃ (s : State) (c : Fin 3) (n : Fin 64) (a : Word) (g : BitVec 16) (key : Bytes), udsLive s c.val = true ∧ rtRefused s c.val 61728 = none ∧ rtRunning s = false ∧ key.length = 32 ∧ 60 ≤ n.val ∧ slotCheck (keyPage s) n.val true (some a) g.toNat false s = none)
    ∧ (∃ (s : State) (c : Fin 3) (n : Fin 64) (a : Word) (g : BitVec 16) (key : Bytes), udsLive s c.val = true ∧ rtRefused s c.val 61728 = none ∧ rtRunning s = false ∧ key.length = 32 ∧ n.val < 56 ∧ s.sup.measured = true ∧ slotCheck (keyPage s) n.val true (some a) g.toNat false s = none)
    ∧ (∃ (s : State) (c : Fin 3) (n : Fin 64) (key : Bytes), udsLive s c.val = true ∧ rtRefused s c.val 61728 = none ∧ rtRunning s = false ∧ key.length = 32 ∧ n.val < 56 ∧ s.sup.measured = false)
    ∧ (∃ (s : State) (c : Fin 3) (n : Fin 64) (a : Word) (g : BitVec 16) (st : Status), udsLive s c.val = true ∧ rtRefused s c.val 61729 = none ∧ rtRunning s = false ∧ slotCheck (keyPage s) n.val true (some a) g.toNat true s = some st)
    ∧ (∃ (s : State) (c : Fin 3) (n : Fin 64) (a : Word) (g : BitVec 16), udsLive s c.val = true ∧ rtRefused s c.val 61729 = none ∧ rtRunning s = false ∧ n.val < 56 ∧ s.sup.measured = true ∧ slotCheck (keyPage s) n.val true (some a) g.toNat true s = none ∧ rngServes s = true)
    ∧ (∃ (s : State) (c : Fin 3) (n : Fin 64) (a : Word) (g : BitVec 16), udsLive s c.val = true ∧ rtRefused s c.val 61729 = none ∧ rtRunning s = false ∧ 60 ≤ n.val ∧ slotCheck (keyPage s) n.val true (some a) g.toNat true s = none ∧ rngServes s = true)
    ∧ (∃ (s : State) (c : Fin 3) (n : Fin 64) (a : Word) (g : BitVec 16), udsLive s c.val = true ∧ rtRefused s c.val 61729 = none ∧ rtRunning s = false ∧ slotCheck (keyPage s) n.val true (some a) g.toNat true s = none ∧ (rngServes s = false ∨ (n.val < 56 ∧ s.sup.measured = false))) :=
  ⟨⟨fieldS, 0, 56, 0, 0xFFFF, List.replicate 32 0, .denied, by decide +kernel⟩,
   ⟨fieldS, 0, 60, 0xFF0F0001, 0xFFFF, List.replicate 32 7, by decide +kernel⟩,
   ⟨{ fieldS with ks.root := some 1 }, 0, 5, 0xFF0F0001, 0xFFFF, List.replicate 32 7, by decide +kernel⟩,
   ⟨{ fieldS with sup.measured := false }, 0, 5, List.replicate 32 7, by decide +kernel⟩,
   ⟨fieldS, 0, 56, 0, 0xFFFF, .denied, by decide +kernel⟩,
   ⟨{ fieldS with ks.root := some 1 }, 0, 5, 0xFF0F0001, 0xFFFF, by decide +kernel⟩,
   ⟨fieldS, 0, 60, 0xFF0F0001, 0xFFFF, by decide +kernel⟩,
   ⟨{ fieldS with rng.reinst := true }, 0, 60, 0xFF0F0001, 0xFFFF, by exact ⟨by decide +kernel, by decide +kernel, by decide +kernel, by decide +kernel, .inl (by decide +kernel)⟩⟩⟩

theorem test_witness_KeyStoreRoutines_2 :
    (∃ (s : State) (c : Fin 3) (n : Fin 64) (g : BitVec 16), udsLive s c.val = true ∧ rtRefused s c.val 61730 = none ∧ rtRunning s = false ∧ 60 ≤ n.val ∧ slotCheck (keyPage s) n.val true none g.toNat false s = none)
    ∧ (∃ (s : State) (c : Fin 3) (n : Fin 64) (g : BitVec 16) (st : Status), udsLive s c.val = true ∧ rtRefused s c.val 61730 = none ∧ rtRunning s = false ∧ ((56 ≤ n.val ∨ s.sup.measured = true)) ∧ slotCheck (keyPage s) n.val true none g.toNat false s = some st)
    ∧ (∃ (s : State) (c : Fin 3) (n : Fin 64), udsLive s c.val = true ∧ rtRefused s c.val 61730 = none ∧ rtRunning s = false ∧ n.val < 56 ∧ s.sup.measured = false)
    ∧ (∃ (s : State) (c : Fin 3) (n : Fin 64) (g : BitVec 16), udsLive s c.val = true ∧ rtRefused s c.val 61730 = none ∧ rtRunning s = false ∧ n.val < 56 ∧ s.sup.measured = true ∧ slotCheck (keyPage s) n.val true none g.toNat false s = none)
    ∧ (∃ (s : State) (c : Fin 3) (k : CrtKey) (cert : Bytes) (w : BitVec 256), udsLive s c.val = true ∧ rtRefused s c.val 61744 = none ∧ rtRunning s = false ∧ s.ks.lc = .factory ∧ s.tmp.latch = false ∧ cert.length ≤ 2048 ∧ [k.p, k.q, k.dP, k.dQ, k.qInv].all (fun x => decide (x < 2 ^ 2048)) = true ∧ s.sup.measured = true ∧ s.ks.identity = none ∧ s.ks.root = some w)
    ∧ (∃ (s : State) (c : Fin 3) (k : CrtKey) (cert : Bytes), udsLive s c.val = true ∧ rtRefused s c.val 61744 = none ∧ rtRunning s = false ∧ s.ks.lc = .factory ∧ s.tmp.latch = false ∧ cert.length ≤ 2048 ∧ [k.p, k.q, k.dP, k.dQ, k.qInv].all (fun x => decide (x < 2 ^ 2048)) = true ∧ s.sup.measured = true ∧ s.ks.identity.isSome = true)
    ∧ (∃ (s : State) (c : Fin 3), udsLive s c.val = true ∧ rtRefused s c.val 61744 = none ∧ rtRunning s = false ∧ s.ks.lc = .factory ∧ s.sup.measured = false)
    ∧ (∃ (s : State) (c : Fin 3), udsLive s c.val = true ∧ rtRefused s c.val 61744 = none ∧ rtRunning s = false ∧ s.ks.lc = .factory ∧ s.sup.measured = true ∧ s.tmp.latch = true) :=
  ⟨⟨fieldS, 0, 60, 0, by decide +kernel⟩,
   ⟨fieldS, 0, 60, 7, .keyGone, by decide +kernel⟩,
   ⟨{ fieldS with sup.measured := false }, 0, 5, by decide +kernel⟩,
   ⟨{ fieldS with ks.root := some 1 }, 0, 5, 0, by decide +kernel⟩,
   ⟨{ factS with ks.root := some 1 }, 0, { p := 3, q := 5, dP := 1, dQ := 1, qInv := 2 }, [1], 1, by decide +kernel⟩,
   ⟨{ factS with ks.identity := some ({ p := 3, q := 5, dP := 1, dQ := 1, qInv := 2 }, []) }, 0, { p := 3, q := 5, dP := 1, dQ := 1, qInv := 2 }, [1], by decide +kernel⟩,
   ⟨{ factS with sup.measured := false }, 0, by decide +kernel⟩,
   ⟨{ factS with tmp.latch := true }, 0, by decide +kernel⟩⟩

theorem test_witness_KeyStoreRoutines_3 :
    (∃ (s : State) (c : Fin 3) (k : CrtKey) (cert : Bytes), udsLive s c.val = true ∧ rtRefused s c.val 61744 = none ∧ rtRunning s = false ∧ s.ks.lc = .factory ∧ s.sup.measured = true ∧ s.tmp.latch = false ∧ (2048 < cert.length ∨ [k.p, k.q, k.dP, k.dQ, k.qInv].any (fun x => decide (2 ^ 2048 ≤ x)) = true))
    ∧ (∃ (s : State) (c : Fin 3) (k : CrtKey) (cert : Bytes), udsLive s c.val = true ∧ rtRefused s c.val 61744 = none ∧ rtRunning s = false ∧ s.ks.lc = .factory ∧ s.tmp.latch = false ∧ cert.length ≤ 2048 ∧ [k.p, k.q, k.dP, k.dQ, k.qInv].all (fun x => decide (x < 2 ^ 2048)) = true ∧ s.sup.measured = true ∧ s.ks.identity = none ∧ s.ks.root = none)
    ∧ (∃ (s : State) (c : Fin 3) (x : Byte) (b : LifeCycle) (st : Status), udsLive s c.val = true ∧ rtRefused s c.val 61760 = none ∧ rtRunning s = false ∧ s.tmp.latch = false ∧ lcNext s.ks.lc = some b ∧ x.toNat = b.code ∧ ((st = .locked ∧ (s.boot.pufFail = true ∨ s.permit.latch = true ∨ s.acc.seqn.isSome = true ∨ s.ks.journal.isSome = true)) ∨ (s.boot.pufFail = false ∧ s.permit.latch = false ∧ s.acc.seqn = none ∧ learning s = false ∧ s.ks.journal = none ∧ ((st = .entropyFail ∧ s.boot.rngReady = false) ∨ (s.boot.rngReady = true ∧ ((st = .lowEnergy ∧ (s.sup.region ≠ .full ∨ s.boot.nvmReady = false ∨ s.sup.vholdLow = true)) ∨ (st = .notReady ∧ s.sup.region = .full ∧ s.boot.nvmReady = true ∧ s.sup.vholdLow = false ∧ s.sup.thermOff = true)))))))
    ∧ (∃ (s : State) (c : Fin 3) (x : Byte) (b : LifeCycle), udsLive s c.val = true ∧ rtRefused s c.val 61760 = none ∧ rtRunning s = false ∧ s.tmp.latch = false ∧ lcNext s.ks.lc = some b ∧ x.toNat = b.code ∧ s.boot.pufFail = false ∧ s.permit.latch = false ∧ s.acc.seqn = none ∧ learning s = false ∧ s.ks.journal = none ∧ s.boot.rngReady = true ∧ s.sup.region = .full ∧ s.boot.nvmReady = true ∧ s.sup.vholdLow = false ∧ s.sup.thermOff = false)
    ∧ (∃ (s : State) (c : Fin 3), udsLive s c.val = true ∧ rtRefused s c.val 61760 = none ∧ rtRunning s = false ∧ s.tmp.latch = true ∧ capDash s .transition = false)
    ∧ (∃ (s : State) (c : Fin 3) (x : Byte) (b : LifeCycle), udsLive s c.val = true ∧ rtRefused s c.val 61760 = none ∧ rtRunning s = false ∧ s.tmp.latch = false ∧ lcNext s.ks.lc = some b ∧ x.toNat ≠ b.code)
    ∧ (∃ (s : State) (c : Fin 3), udsLive s c.val = true ∧ rtRefused s c.val 61761 = none ∧ rtRunning s = false ∧ s.ks.sealed = false)
    ∧ (∃ (s : State) (c : Fin 3), udsLive s c.val = true ∧ rtRefused s c.val 61761 = none ∧ rtRunning s = false ∧ s.ks.sealed = true) :=
  ⟨⟨factS, 0, { p := 2 ^ 2048, q := 5, dP := 1, dQ := 1, qInv := 2 }, [1], by exact ⟨by decide +kernel, by decide +kernel, by decide +kernel, by decide +kernel, by decide +kernel, by decide +kernel, .inr (by decide +kernel)⟩⟩,
   ⟨{ factS with ks.root := none }, 0, { p := 3, q := 5, dP := 1, dQ := 1, qInv := 2 }, [1], by decide +kernel⟩,
   ⟨{ blankS with boot.pufFail := true }, 0, 1, .factory, .locked, by exact ⟨by decide +kernel, by decide +kernel, by decide +kernel, by decide +kernel, by decide +kernel, by decide +kernel, .inl ⟨rfl, .inl (by decide +kernel)⟩⟩⟩,
   ⟨blankS, 0, 1, .factory, by decide +kernel⟩,
   ⟨{ blankS with tmp.latch := true }, 0, by decide +kernel⟩,
   ⟨blankS, 0, 2, .factory, by decide +kernel⟩,
   ⟨blankS, 0, by decide +kernel⟩,
   ⟨{ blankS with ks.fuses := 0xC0 }, 0, by decide +kernel⟩⟩

theorem test_witness_KeyStoreRoutines_4 :
    (∃ (s : State) (c : Fin 3), udsLive s c.val = true ∧ rtRefused s c.val 61776 = none ∧ rtRunning s = false ∧ s.ks.lc ≠ .blank ∧ tamperPresent s = false)
    ∧ (∃ (s : State) (c : Fin 3), udsLive s c.val = true ∧ rtRefused s c.val 61776 = none ∧ rtRunning s = false ∧ capDash s .tamperClear = false ∧ tamperPresent s = true)
    ∧ (∃ (s : State) (c : Fin 3) (key : Bytes) (nrc : Nat), udsLive s c.val = true ∧ (rtRefused s c.val 61728 = some nrc ∨ (rtRefused s c.val 61728 = none ∧ ¬(key.length = 32) ∧ nrc = 0x13) ∨ (rtRefused s c.val 61728 = none ∧ (key.length = 32) ∧ rtRunning s = true ∧ nrc = 0x22)))
    ∧ (∃ (s : State) (c : Fin 3) (nrc : Nat), udsLive s c.val = true ∧ (rtRefused s c.val 61729 = some nrc ∨ (rtRefused s c.val 61729 = none ∧ rtRunning s = true ∧ nrc = 0x22)))
    ∧ (∃ (s : State) (c : Fin 3) (nrc : Nat), udsLive s c.val = true ∧ (rtRefused s c.val 61730 = some nrc ∨ (rtRefused s c.val 61730 = none ∧ rtRunning s = true ∧ nrc = 0x22)))
    ∧ (∃ (s : State) (c : Fin 3) (nrc : Nat), udsLive s c.val = true ∧ (rtRefused s c.val 61744 = some nrc ∨ (rtRefused s c.val 61744 = none ∧ rtRunning s = true ∧ nrc = 0x22)))
    ∧ (∃ (s : State) (c : Fin 3), udsLive s c.val = true ∧ rtRefused s c.val 61744 = none ∧ rtRunning s = false ∧ capDash s .identity = true)
    ∧ (∃ (s : State) (c : Fin 3) (nrc : Nat), udsLive s c.val = true ∧ (rtRefused s c.val 61760 = some nrc ∨ (rtRefused s c.val 61760 = none ∧ rtRunning s = true ∧ nrc = 0x22))) :=
  ⟨⟨{ fieldS with tmp.latch := true }, 0, by decide +kernel⟩,
   ⟨{ fieldS with tmp.active := 1, tmp.applied := Vector.replicate 8 4 }, 0, by decide +kernel⟩,
   ⟨udsS 2, 0, List.replicate 32 0, 0x7F, by exact ⟨by decide +kernel, .inl (by decide +kernel)⟩⟩,
   ⟨udsS 2, 0, 0x7F, by exact ⟨by decide +kernel, .inl (by decide +kernel)⟩⟩,
   ⟨udsS 2, 0, 0x7F, by exact ⟨by decide +kernel, .inl (by decide +kernel)⟩⟩,
   ⟨udsS 2, 0, 0x7F, by exact ⟨by decide +kernel, .inl (by decide +kernel)⟩⟩,
   ⟨fieldS, 0, by decide +kernel⟩,
   ⟨udsS 2, 0, 0x7F, by exact ⟨by decide +kernel, .inl (by decide +kernel)⟩⟩⟩

theorem test_witness_KeyStoreRoutines_5 :
    (∃ (s : State) (c : Fin 3), udsLive s c.val = true ∧ rtRefused s c.val 61760 = none ∧ rtRunning s = false ∧ capDash s .transition = true)
    ∧ (∃ (s : State) (c : Fin 3) (nrc : Nat), udsLive s c.val = true ∧ (rtRefused s c.val 61761 = some nrc ∨ (rtRefused s c.val 61761 = none ∧ rtRunning s = true ∧ nrc = 0x22)))
    ∧ (∃ (s : State) (c : Fin 3) (nrc : Nat), udsLive s c.val = true ∧ (rtRefused s c.val 61776 = some nrc ∨ (rtRefused s c.val 61776 = none ∧ rtRunning s = true ∧ nrc = 0x22)))
    ∧ (∃ (s : State) (c : Fin 3), udsLive s c.val = true ∧ rtRefused s c.val 61776 = none ∧ rtRunning s = false ∧ capDash s .tamperClear = true) :=
  ⟨⟨retnS, 0, by decide +kernel⟩,
   ⟨udsS 2, 0, 0x7F, by exact ⟨by decide +kernel, .inl (by decide +kernel)⟩⟩,
   ⟨udsS 2, 0, 0x7F, by exact ⟨by decide +kernel, .inl (by decide +kernel)⟩⟩,
   ⟨blankS, 0, by decide +kernel⟩⟩

theorem test_witness_DoipServices_1 :
    (∃ (s : State), aspOn s = false)
    ∧ (∃ (s : State), aspOn s = false)
    ∧ (∃ (s : State), aspOn s = false)
    ∧ (∃ (s : State), aspOn s = false)
    ∧ (∃ (s : State), aspOn s = false)
    ∧ (∃ (s : State) (c : Fin 2), (connGet s c.val).active = false)
    ∧ (∃ (s : State) (c : Fin 2), (connGet s c.val).active = false)
    ∧ (∃ (s : State), aspOn s = true) :=
  ⟨⟨heathS, by decide +kernel⟩,
   ⟨heathS, by decide +kernel⟩,
   ⟨heathS, by decide +kernel⟩,
   ⟨heathS, by decide +kernel⟩,
   ⟨heathS, by decide +kernel⟩,
   ⟨ipS, 0, by decide +kernel⟩,
   ⟨ipS, 0, by decide +kernel⟩,
   ⟨ipS, by decide +kernel⟩⟩

theorem test_witness_DoipServices_2 :
    (∃ (s : State), aspOn s = true)
    ∧ (∃ (s : State) (c : Fin 2), aspOn s = true ∧ (connGet s c.val).active = true)
    ∧ (∃ (s : State), aspOn s = true)
    ∧ (∃ (s : State), aspOn s = true)
    ∧ (∃ (s : State), aspOn s = true)
    ∧ (∃ (s : State) (c : Fin 2), (connGet s c.val).active = true) :=
  ⟨⟨ipS, by decide +kernel⟩,
   ⟨udsS 1, 0, by decide +kernel⟩,
   ⟨ipS, by decide +kernel⟩,
   ⟨ipS, by decide +kernel⟩,
   ⟨ipS, by decide +kernel⟩,
   ⟨udsS 3, 0, by decide +kernel⟩⟩

theorem test_witness_PairFaults_1 :
    (∃ (s : State) (role : ActiveRole), pairOn s (roleCode role) = false)
    ∧ (∃ (s : State) (role : ActiveRole), pairOn s (roleCode role) = false)
    ∧ (∃ (s : State) (role : ActiveRole), pairOn s (roleCode role) = false)
    ∧ (∃ (s : State), pairOn s 1 = false)
    ∧ (∃ (s : State), pairOn s 0 = false)
    ∧ (∃ (s : State), pairOn s 0 = false ∧ pairOn s 1 = false)
    ∧ (∃ (s : State), (hasRole s 2 = false ∨ s.pwr.st ≠ .run))
    ∧ (∃ (s : State), (s.flt.retest = none ∨ s.pwr.st ≠ .run)) :=
  ⟨⟨heathS, .b, by decide +kernel⟩,
   ⟨heathS, .b, by decide +kernel⟩,
   ⟨heathS, .b, by decide +kernel⟩,
   ⟨heathS, by decide +kernel⟩,
   ⟨heathS, by decide +kernel⟩,
   ⟨heathS, by decide +kernel⟩,
   ⟨heathS, by exact .inr (by decide +kernel)⟩,
   ⟨heathS, by exact .inr (by decide +kernel)⟩⟩

theorem test_witness_PairFaults_2 :
    (∃ (s : State), s.pwr.st ≠ .run)
    ∧ (∃ (s : State) (role : ActiveRole), pairOn s (roleCode role) = true ∧ s.flt.spare = false)
    ∧ (∃ (s : State) (role : ActiveRole), pairOn s (roleCode role) = true)
    ∧ (∃ (s : State) (role : ActiveRole), pairOn s (roleCode role) = true ∧ s.flt.spare = true)
    ∧ (∃ (s : State) (role : ActiveRole), pairOn s (roleCode role) = true ∧ s.flt.spare = false)
    ∧ (∃ (s : State) (role : ActiveRole), pairOn s (roleCode role) = true ∧ s.flt.spare = true)
    ∧ (∃ (s : State), pairOn s 1 = true ∧ s.flt.spare = true)
    ∧ (∃ (s : State), pairOn s 1 = true ∧ s.flt.spare = false) :=
  ⟨⟨heathS, by decide +kernel⟩,
   ⟨ipS, .a, by decide +kernel⟩,
   ⟨ipS, .a, by decide +kernel⟩,
   ⟨spareS, .b, by decide +kernel⟩,
   ⟨ipS, .b, by decide +kernel⟩,
   ⟨spareS, .a, by decide +kernel⟩,
   ⟨spareS, by decide +kernel⟩,
   ⟨ipS, by decide +kernel⟩⟩

theorem test_witness_PairFaults_3 :
    (∃ (s : State), pairOn s 0 = true)
    ∧ (∃ (s : State), (pairOn s 0 = true ∨ pairOn s 1 = true))
    ∧ (∃ (s : State), hasRole s 2 = true ∧ s.pwr.st = .run)
    ∧ (∃ (s : State) (p : Nat), s.flt.retest = some p ∧ s.pwr.st = .run ∧ p < 3 ∧ vget s.flt.hits p 0 < 2)
    ∧ (∃ (s : State) (passed : Bool) (p : Nat), s.flt.retest = some p ∧ s.pwr.st = .run ∧ p < 3 ∧ (passed = false ∨ 2 ≤ vget s.flt.hits p 0))
    ∧ (∃ (s : State), s.pwr.st = .run)
    ∧ (∃ (s : State), s.pwr.st = .run)
    ∧ (∃ (s : State), s.pwr.st = .run) :=
  ⟨⟨spareS, by decide +kernel⟩,
   ⟨spareS, by decide +kernel⟩,
   ⟨spareS, by decide +kernel⟩,
   ⟨{ ipS with flt.retest := some 2, flt.role := #v[0, 1, 3] }, 2, by decide +kernel⟩,
   ⟨{ ipS with flt.retest := some 2, flt.role := #v[0, 1, 3] }, false, 2, by decide +kernel⟩,
   ⟨ipS, by decide +kernel⟩,
   ⟨ipS, by decide +kernel⟩,
   ⟨ipS, by decide +kernel⟩⟩

theorem test_witness_PairFaults_4 :
    (∃ (s : State), s.pwr.st = .run)
    ∧ (∃ (s : State) (p : Fin 9) (c : Fin 8) (f : Frame) (r : List Frame), s.pwr.st = .run ∧ vget (portGet s p.val).queues c.val [] = f :: r)
    ∧ (∃ (s : State), s.pwr.st = .run)
    ∧ (∃ (s : State), s.pwr.st = .run)
    ∧ (∃ (s : State), s.pwr.st = .run)
    ∧ (∃ (s : State), s.pwr.st = .run)
    ∧ (∃ (s : State) (role : ActiveRole), s.pwr.st = .run ∧ pairOn s (roleCode role) = true ∧ s.flt.spare = false)
    ∧ (∃ (s : State) (role : ActiveRole), s.pwr.st = .run ∧ pairOn s (roleCode role) = false) :=
  ⟨⟨ipS, by decide +kernel⟩,
   ⟨portMod 2 (fun p => { p with queues := vset p.queues 3 [fr1] }) ipS, 2, 3, fr1, [], by exact ⟨by decide +kernel, by decide +kernel⟩⟩,
   ⟨ipS, by decide +kernel⟩,
   ⟨ipS, by decide +kernel⟩,
   ⟨ipS, by decide +kernel⟩,
   ⟨ipS, by decide +kernel⟩,
   ⟨ipS, .a, by decide +kernel⟩,
   ⟨{ ipS with sup.region := .ride }, .b, by decide +kernel⟩⟩

theorem test_witness_PairFaults_5 :
    (∃ (s : State) (p : Fin 9) (c : Fin 8), s.pwr.st = .run ∧ vget (portGet s p.val).queues c.val [] = [])
    ∧ (∃ (s : State), s.pwr.st = .run)
    ∧ (∃ (s : State), s.pwr.st = .run)
    ∧ (∃ (s : State), s.pwr.st = .run)
    ∧ (∃ (s : State), s.pwr.st = .run)
    ∧ (∃ (s : State), s.pwr.st = .run)
    ∧ (∃ (s : State), s.pwr.st = .run)
    ∧ (∃ (s : State), s.pwr.st = .run) :=
  ⟨⟨ipS, 2, 3, by decide +kernel⟩,
   ⟨ipS, by decide +kernel⟩,
   ⟨ipS, by decide +kernel⟩,
   ⟨ipS, by decide +kernel⟩,
   ⟨ipS, by decide +kernel⟩,
   ⟨ipS, by decide +kernel⟩,
   ⟨ipS, by decide +kernel⟩,
   ⟨ipS, by decide +kernel⟩⟩

theorem test_witness_PairFaults_6 :
    (∃ (s : State), s.pwr.st = .run)
    ∧ (∃ (s : State), s.pwr.st = .run)
    ∧ (∃ (s : State), s.pwr.st = .run)
    ∧ (∃ (s : State), s.pwr.st = .run)
    ∧ (∃ (s : State), s.pwr.st = .run)
    ∧ (∃ (s : State), s.pwr.st = .run)
    ∧ (∃ (s : State), s.pwr.st = .run)
    ∧ (∃ (s : State), s.pwr.st = .run) :=
  ⟨⟨ipS, by decide +kernel⟩,
   ⟨ipS, by decide +kernel⟩,
   ⟨ipS, by decide +kernel⟩,
   ⟨ipS, by decide +kernel⟩,
   ⟨ipS, by decide +kernel⟩,
   ⟨ipS, by decide +kernel⟩,
   ⟨ipS, by decide +kernel⟩,
   ⟨ipS, by decide +kernel⟩⟩

theorem test_witness_PairFaults_7 :
    (∃ (s : State), s.pwr.st = .run)
    ∧ (∃ (s : State), s.pwr.st = .run)
    ∧ (∃ (s : State), s.pwr.st = .run)
    ∧ (∃ (s : State), s.pwr.st = .run)
    ∧ (∃ (s : State), s.pwr.st = .run)
    ∧ (∃ (s : State), s.pwr.st = .run)
    ∧ (∃ (s : State), s.pwr.st = .run)
    ∧ (∃ (s : State), s.pwr.st = .run) :=
  ⟨⟨ipS, by decide +kernel⟩,
   ⟨ipS, by decide +kernel⟩,
   ⟨ipS, by decide +kernel⟩,
   ⟨ipS, by decide +kernel⟩,
   ⟨ipS, by decide +kernel⟩,
   ⟨ipS, by decide +kernel⟩,
   ⟨ipS, by decide +kernel⟩,
   ⟨ipS, by decide +kernel⟩⟩

theorem test_witness_PairFaults_8 :
    (∃ (s : State), s.pwr.st = .run)
    ∧ (∃ (s : State), s.pwr.st = .run)
    ∧ (∃ (s : State), s.pwr.st = .run)
    ∧ (∃ (s : State), s.pwr.st = .run)
    ∧ (∃ (s : State), s.pwr.st = .run ∧ s.sup.region ≠ .ride ∧ s.flt.role = #v[0, 1, 2] ∧ s.flt.spare = true) :=
  ⟨⟨ipS, by decide +kernel⟩,
   ⟨ipS, by decide +kernel⟩,
   ⟨ipS, by decide +kernel⟩,
   ⟨ipS, by decide +kernel⟩,
   ⟨spareS, by decide +kernel⟩⟩

theorem test_witness_FramesOfSupplyTimeAndEngines :
    (∃ s t : State, exec (.vbatCrankHoldEntry 0) s = .next t)
    ∧ (∃ s t : State, exec (.vbatCrankHoldExit 0) s = .next t)
    ∧ (∃ s t : State, exec (.vioLowShed 0) s = .next t)
    ∧ (∃ s t : State, exec (.rideThroughEntry 0 0) s = .next t)
    ∧ (∃ s t : State, exec (.rideThroughExit 0) s = .next t)
    ∧ (∃ s t : State, exec (.tHoldExpiry) s = .next t)
    ∧ (∃ s t : State, exec (.vholdBelowVHmin 0) s = .next t)
    ∧ (∃ s t : State, exec (.vbatPermitDeny 0) s = .next t)
    ∧ (∃ s t : State, exec (.overvoltageEntry 0) s = .next t)
    ∧ (∃ s t : State, exec (.overvoltageExit 0) s = .next t)
    ∧ (∃ s t : State, exec (.thermWarn 0) s = .next t)
    ∧ (∃ s t : State, exec (.thermDerate 0) s = .next t)
    ∧ (∃ s t : State, exec (.thermOff 0) s = .next t)
    ∧ (∃ s t : State, exec (.thermReset 0) s = .next t)
    ∧ (∃ s t : State, exec (.thermResponseWithdraw 0) s = .next t)
    ∧ (∃ s t : State, exec (.spOutputReadback true true true true) s = .next t)
    ∧ (∃ s t : State, exec (.vdrvConverterStart) s = .next t)
    ∧ (∃ s t : State, exec (.vdrvConverterStop) s = .next t)
    ∧ (∃ s t : State, exec (.vdrvWindowTimeout 0) s = .next t)
    ∧ (∃ s t : State, exec (.powerOnReset 0 0) s = .next t)
    ∧ (∃ s t : State, exec (.nrstExternalLow 0) s = .next t)
    ∧ (∃ s t : State, exec (.sysResetCmd 0 0) s = .next t)
    ∧ (∃ s t : State, exec (.startUp envStartEnv) s = .next t)
    ∧ (∃ s t : State, exec (.rngFirstSeed) s = .next t)
    ∧ (∃ s t : State, exec (.vholdMeasurementComplete 0) s = .next t)
    ∧ (∃ s t : State, exec (.vholdMeasurementTimeout) s = .next t)
    ∧ (∃ s t : State, exec (.retainedSettingsWrite 0) s = .next t)
    ∧ (∃ s t : State, exec (.noPairRetry) s = .next t)
    ∧ (∃ s t : State, exec (.pwrRequestHeath 0 0) s = .next t)
    ∧ (∃ s t : State, exec (.pwrRequestFallow 0 0) s = .next t)
    ∧ (∃ s t : State, exec (.pwrRequestCancel 0 0) s = .next t)
    ∧ (∃ s t : State, exec (.idleToHeathExpiry) s = .next t)
    ∧ (∃ s t : State, exec (.enterHeath) s = .next t)
    ∧ (∃ s t : State, exec (.enterFallow) s = .next t)
    ∧ (∃ s t : State, exec (.heathToFallowExpiry) s = .next t)
    ∧ (∃ s t : State, exec (.wakePinEdge 0 true envWakeEnv) s = .next t)
    ∧ (∃ s t : State, exec (.wakeDebounceEnd 0 true) s = .next t)
    ∧ (∃ s t : State, exec (.fallowVbatWake envWakeEnv) s = .next t)
    ∧ (∃ s t : State, exec (.syncReceive .pri 0 0) s = .next t)
    ∧ (∃ s t : State, exec (.announceReceive .pri 0 0 []) s = .next t)
    ∧ (∃ s t : State, exec (.pdelayExchangeComplete 0 0 0 0 0) s = .next t)
    ∧ (∃ s t : State, exec (.pdelayRequestTransmit 0) s = .next t)
    ∧ (∃ s t : State, exec (.syncReceiptTimeout .pri) s = .next t)
    ∧ (∃ s t : State, exec (.suspectHoldExpiry .pri) s = .next t)
    ∧ (∃ s t : State, exec (.syncTransmit .pri) s = .next t)
    ∧ (∃ s t : State, exec (.holdoverBinLearn 0) s = .next t)
    ∧ (∃ s t : State, exec (.rtcTrim 0 0) s = .next t)
    ∧ (∃ s t : State, exec (.tpoArm 0 0 0) s = .next t)
    ∧ (∃ s t : State, exec (.tpoFire 0) s = .next t)
    ∧ (∃ s t : State, exec (.timNowLoRead 0) s = .next t)
    ∧ (∃ s t : State, exec (.entryPreparation 0) s = .next t)
    ∧ (∃ s t : State, exec (.entryDue 0) s = .next t)
    ∧ (∃ s t : State, exec (.entryWaitEnd 0) s = .next t)
    ∧ (∃ s t : State, exec (.frameLaunch 0) s = .next t)
    ∧ (∃ s t : State, exec (.lfFrameComplete 0 envLfFrameEnv) s = .next t)
    ∧ (∃ s t : State, exec (.scanPatternStart 0 envPatternEnv) s = .next t)
    ∧ (∃ s t : State, exec (.scanComplete 0) s = .next t)
    ∧ (∃ s t : State, exec (.pingComplete 0 0 0) s = .next t)
    ∧ (∃ s t : State, exec (.lfChannelShort 0 .gnd) s = .next t)
    ∧ (∃ s t : State, exec (.lfChannelRetest 0 true 0) s = .next t)
    ∧ (∃ s t : State, exec (.roundEnd) s = .next t)
    ∧ (∃ s t : State, exec (.rxWindowComplete 0 [] 0) s = .next t)
    ∧ (∃ s t : State, exec (.txWindowComplete 0) s = .next t)
    ∧ (∃ s t : State, exec (.rangingComplete 0 envRangingEnv) s = .next t)
    ∧ (∃ s t : State, exec (.wrxMatch 0 0) s = .next t)
    ∧ (∃ s t : State, exec (.wrxWindowEnd 0) s = .next t)
    ∧ (∃ s t : State, exec (.trxSleepTimeout 0) s = .next t)
    ∧ (∃ s t : State, exec (.calTemperatureRead 0) s = .next t)
    ∧ (∃ s t : State, exec (.uhfCalStart 0 0) s = .next t)
    ∧ (∃ s t : State, exec (.uhfCalComplete 0 0) s = .next t)
    ∧ (∃ s t : State, exec (.trxLockTimeout 0 true) s = .next t)
    ∧ (∃ s t : State, exec (.uhfCalCmd 0 0) s = .next t)
    ∧ (∃ s t : State, exec (.queuedTriggerStart) s = .next t)
    ∧ (∃ s t : State, exec (.fusion 0) s = .next t)
    ∧ (∃ s t : State, exec (.wakeFrameRepeat) s = .next t)
    ∧ (∃ s t : State, exec (.tokenSlot) s = .next t)
    ∧ (∃ s t : State, exec (.tokenLoss) s = .next t)
    ∧ (∃ s t : State, exec (.holdExpiry) s = .next t)
    ∧ (∃ s t : State, exec (.resyncCandidateExpiry 0) s = .next t) := by
  refine ⟨?_, ?_, ?_, ?_, ?_, ?_, ?_, ?_, ?_, ?_, ?_, ?_, ?_, ?_, ?_, ?_, ?_, ?_, ?_, ?_, ?_, ?_, ?_, ?_, ?_, ?_, ?_, ?_, ?_, ?_, ?_, ?_, ?_, ?_, ?_, ?_, ?_, ?_, ?_, ?_, ?_, ?_, ?_, ?_, ?_, ?_, ?_, ?_, ?_, ?_, ?_, ?_, ?_, ?_, ?_, ?_, ?_, ?_, ?_, ?_, ?_, ?_, ?_, ?_, ?_, ?_, ?_, ?_, ?_, ?_, ?_, ?_, ?_, ?_, ?_, ?_, ?_, ?_, ?_⟩ <;> exact ⟨State.reset, _, rfl⟩

theorem test_witness_FramesOfJobsAndKeys :
    (∃ s t : State, exec (.ringPiWrite 0 0 0) s = .next t)
    ∧ (∃ s t : State, exec (.ringEnable 0 0 0) s = .next t)
    ∧ (∃ s t : State, exec (.ringDisable 0 0 0) s = .next t)
    ∧ (∃ s t : State, exec (.ringCqCiWrite 0 0 0) s = .next t)
    ∧ (∃ s t : State, exec (.descriptorFetch 0 true) s = .next t)
    ∧ (∃ s t : State, exec (.operationComplete 0 true) s = .next t)
    ∧ (∃ s t : State, exec (.aesBlockJob 0 0) s = .next t)
    ∧ (∃ s t : State, exec (.aesJobResume 0 0) s = .next t)
    ∧ (∃ s t : State, exec (.gateJob 0) s = .next t)
    ∧ (∃ s t : State, exec (.cpgGateClear 0 0) s = .next t)
    ∧ (∃ s t : State, exec (.cipherParityError) s = .next t)
    ∧ (∃ s t : State, exec (.hashJob 0) s = .next t)
    ∧ (∃ s t : State, exec (.rsaVerify 0) s = .next t)
    ∧ (∃ s t : State, exec (.rsaVerifyDigest 0) s = .next t)
    ∧ (∃ s t : State, exec (.attest 0) s = .next t)
    ∧ (∃ s t : State, exec (.certRead 0) s = .next t)
    ∧ (∃ s t : State, exec (.randomFill 0) s = .next t)
    ∧ (∃ s t : State, exec (.nvmRecordRead 0) s = .next t)
    ∧ (∃ s t : State, exec (.nvmRecordWrite 0 0 true true) s = .next t)
    ∧ (∃ s t : State, exec (.ctrRead 0) s = .next t)
    ∧ (∃ s t : State, exec (.ctrInc 0 0) s = .next t)
    ∧ (∃ s t : State, exec (.ctrAdvance 0 0) s = .next t)
    ∧ (∃ s t : State, exec (.lfFrameJob 0) s = .next t)
    ∧ (∃ s t : State, exec (.uhfExchangeJob 0) s = .next t)
    ∧ (∃ s t : State, exec (.rangingJob 0) s = .next t)
    ∧ (∃ s t : State, exec (.solverJob 0) s = .next t)
    ∧ (∃ s t : State, exec (.frameSendJob 0) s = .next t)
    ∧ (∃ s t : State, exec (.rngHealthFailure .startup) s = .next t)
    ∧ (∃ s t : State, exec (.rngRecoveryComplete) s = .next t)
    ∧ (∃ s t : State, exec (.rngReinstantiationComplete) s = .next t)
    ∧ (∃ s t : State, exec (.rngReseed) s = .next t)
    ∧ (∃ s t : State, exec (.rngQueueRefill) s = .next t)
    ∧ (∃ s t : State, exec (.rngData0Read 0) s = .next t)
    ∧ (∃ s t : State, exec (.rngDataHighRead 0 0) s = .next t)
    ∧ (∃ s t : State, exec (.tamperPinOnset 0) s = .next t)
    ∧ (∃ s t : State, exec (.meshSample 0 true) s = .next t)
    ∧ (∃ s t : State, exec (.supplyGlitch) s = .next t)
    ∧ (∃ s t : State, exec (.clockMonitorFault) s = .next t)
    ∧ (∃ s t : State, exec (.temperatureMonitorSample 0) s = .next t)
    ∧ (∃ s t : State, exec (.erasePendingRetry 0) s = .next t)
    ∧ (∃ s t : State, exec (.nvmPreclear 0 0) s = .next t)
    ∧ (∃ s t : State, exec (.nvmRefresh 0) s = .next t)
    ∧ (∃ s t : State, exec (.nvmRunFreeing 0) s = .next t) := by
  refine ⟨?_, ?_, ?_, ?_, ?_, ?_, ?_, ?_, ?_, ?_, ?_, ?_, ?_, ?_, ?_, ?_, ?_, ?_, ?_, ?_, ?_, ?_, ?_, ?_, ?_, ?_, ?_, ?_, ?_, ?_, ?_, ?_, ?_, ?_, ?_, ?_, ?_, ?_, ?_, ?_, ?_, ?_, ?_⟩ <;> exact ⟨State.reset, _, rfl⟩

theorem test_witness_FramesOfNetworkAndHost :
    (∃ s t : State, exec (.frameReceive 0 []) s = .next t)
    ∧ (∃ s t : State, exec (.frameTransmit 0 0) s = .next t)
    ∧ (∃ s t : State, exec (.linkUp 0 0) s = .next t)
    ∧ (∃ s t : State, exec (.linkDown 0) s = .next t)
    ∧ (∃ s t : State, exec (.addressAgeOut 0 0) s = .next t)
    ∧ (∃ s t : State, exec (.frerReset 0) s = .next t)
    ∧ (∃ s t : State, exec (.plcaStatusLost 0) s = .next t)
    ∧ (∃ s t : State, exec (.plcaBeaconResume 0) s = .next t)
    ∧ (∃ s t : State, exec (.swFlowUnblock 0 0) s = .next t)
    ∧ (∃ s t : State, exec (.canFrameReceive 0 0 true []) s = .next t)
    ∧ (∃ s t : State, exec (.canTokenTransmit 0) s = .next t)
    ∧ (∃ s t : State, exec (.canBusOff 0) s = .next t)
    ∧ (∃ s t : State, exec (.canBusOffRecovery 0) s = .next t)
    ∧ (∃ s t : State, exec (.arpRequest 0 0 0 0) s = .next t)
    ∧ (∃ s t : State, exec (.icmpEchoRequest 0 0 0 0 0 []) s = .next t)
    ∧ (∃ s t : State, exec (.spiRegRead 0 0 0) s = .next t)
    ∧ (∃ s t : State, exec (.spiRegWrite 0 0 0 [] 0 true) s = .next t)
    ∧ (∃ s t : State, exec (.spiAspPut 0 0 0 [] 0 true) s = .next t)
    ∧ (∃ s t : State, exec (.spiAspGet 0 0 0 true) s = .next t)
    ∧ (∃ s t : State, exec (.registerWrite 0 0 0) s = .next t)
    ∧ (∃ s t : State, exec (.sysLockSet 0 0) s = .next t)
    ∧ (∃ s t : State, exec (.sysAspGateWrite 0 0) s = .next t)
    ∧ (∃ s t : State, exec (.aspOpen 0) s = .next t)
    ∧ (∃ s t : State, exec (.aspClose 0) s = .next t)
    ∧ (∃ s t : State, exec (.aspRegRead 0) s = .next t)
    ∧ (∃ s t : State, exec (.aspRegWrite 0) s = .next t)
    ∧ (∃ s t : State, exec (.aspWinRead 0) s = .next t)
    ∧ (∃ s t : State, exec (.aspWinWrite 0) s = .next t)
    ∧ (∃ s t : State, exec (.aspRingSubmit 0) s = .next t)
    ∧ (∃ s t : State, exec (.aspRingCollect 0) s = .next t)
    ∧ (∃ s t : State, exec (.aspSubscribe 0) s = .next t)
    ∧ (∃ s t : State, exec (.aspEvent 0 0) s = .next t)
    ∧ (∃ s t : State, exec (.aspPower 0) s = .next t)
    ∧ (∃ s t : State, exec (.aspReset 0) s = .next t)
    ∧ (∃ s t : State, exec (.aspUhfCal 0) s = .next t)
    ∧ (∃ s t : State, exec (.aspEngineRunning 0) s = .next t)
    ∧ (∃ s t : State, exec (.aspPermitEnd 0) s = .next t)
    ∧ (∃ s t : State, exec (.aspOverrideCarrier 0) s = .next t)
    ∧ (∃ s t : State, exec (.aspOverrideWindowPlan 0) s = .next t)
    ∧ (∃ s t : State, exec (.aspOverrideTelegram 0) s = .next t)
    ∧ (∃ s t : State, exec (.aspOverrideRanging 0) s = .next t)
    ∧ (∃ s t : State, exec (.aspRevert 0) s = .next t) := by
  refine ⟨?_, ?_, ?_, ?_, ?_, ?_, ?_, ?_, ?_, ?_, ?_, ?_, ?_, ?_, ?_, ?_, ?_, ?_, ?_, ?_, ?_, ?_, ?_, ?_, ?_, ?_, ?_, ?_, ?_, ?_, ?_, ?_, ?_, ?_, ?_, ?_, ?_, ?_, ?_, ?_, ?_, ?_⟩ <;> exact ⟨State.reset, _, rfl⟩

theorem test_witness_FramesOfDiagnosticsAndPairs :
    (∃ s t : State, exec (.defaultSession 0) s = .next t)
    ∧ (∃ s t : State, exec (.programmingSession 0) s = .next t)
    ∧ (∃ s t : State, exec (.extendedSession 0) s = .next t)
    ∧ (∃ s t : State, exec (.ecuReset 0) s = .next t)
    ∧ (∃ s t : State, exec (.clearDiagnosticInformation 0 0) s = .next t)
    ∧ (∃ s t : State, exec (.reportNumberOfDtcByStatusMask 0 0) s = .next t)
    ∧ (∃ s t : State, exec (.reportDtcByStatusMask 0 0) s = .next t)
    ∧ (∃ s t : State, exec (.reportSupportedDtc 0) s = .next t)
    ∧ (∃ s t : State, exec (.readDataByIdentifier 0 []) s = .next t)
    ∧ (∃ s t : State, exec (.deAuthenticate 0) s = .next t)
    ∧ (∃ s t : State, exec (.verifyCertificateUnidirectional 0 0 []) s = .next t)
    ∧ (∃ s t : State, exec (.proofOfOwnership 0 []) s = .next t)
    ∧ (∃ s t : State, exec (.authenticationConfiguration 0) s = .next t)
    ∧ (∃ s t : State, exec (.authLockoutExpiry) s = .next t)
    ∧ (∃ s t : State, exec (.s3ServerTimeout 0) s = .next t)
    ∧ (∃ s t : State, exec (.testerPresent 0 true) s = .next t)
    ∧ (∃ s t : State, exec (.unsupportedService 0 0) s = .next t)
    ∧ (∃ s t : State, exec (.routineResults 0 0) s = .next t)
    ∧ (∃ s t : State, exec (.verifyImage 0 true) s = .next t)
    ∧ (∃ s t : State, exec (.learnKey 0 [] [] 0) s = .next t)
    ∧ (∃ s t : State, exec (.credState 0 0 0) s = .next t)
    ∧ (∃ s t : State, exec (.writeProfile 0 []) s = .next t)
    ∧ (∃ s t : State, exec (.slotWrite 0 0 0 0 []) s = .next t)
    ∧ (∃ s t : State, exec (.slotGenerate 0 0 0 0) s = .next t)
    ∧ (∃ s t : State, exec (.slotErase 0 0 0) s = .next t)
    ∧ (∃ s t : State, exec (.identityWrite 0 { p := 3, q := 5, dP := 1, dQ := 1, qInv := 2 } []) s = .next t)
    ∧ (∃ s t : State, exec (.lcTransition 0 0) s = .next t)
    ∧ (∃ s t : State, exec (.debugSeal 0) s = .next t)
    ∧ (∃ s t : State, exec (.tamperClear 0) s = .next t)
    ∧ (∃ s t : State, exec (.tagInventory 0) s = .next t)
    ∧ (∃ s t : State, exec (.tagRead 0 0 0) s = .next t)
    ∧ (∃ s t : State, exec (.tagWrite 0 0 0 []) s = .next t)
    ∧ (∃ s t : State, exec (.tagLock 0 0 0) s = .next t)
    ∧ (∃ s t : State, exec (.requestDownload 0 0 0 0 0) s = .next t)
    ∧ (∃ s t : State, exec (.transferData 0 0 [] true) s = .next t)
    ∧ (∃ s t : State, exec (.requestTransferExit 0) s = .next t)
    ∧ (∃ s t : State, exec (.routingActivation 0 0 0) s = .next t)
    ∧ (∃ s t : State, exec (.vehicleIdentificationRequest) s = .next t)
    ∧ (∃ s t : State, exec (.aliveCheck 0) s = .next t)
    ∧ (∃ s t : State, exec (.entityStatusRequest) s = .next t)
    ∧ (∃ s t : State, exec (.powerModeInformationRequest) s = .next t)
    ∧ (∃ s t : State, exec (.doipConnectionClose 0) s = .next t)
    ∧ (∃ s t : State, exec (.nCrTimeout) s = .next t)
    ∧ (∃ s t : State, exec (.checkpointWrite .a) s = .next t)
    ∧ (∃ s t : State, exec (.lockstepMismatch .a 0) s = .next t)
    ∧ (∃ s t : State, exec (.pairMemoryError .a 0 0) s = .next t)
    ∧ (∃ s t : State, exec (.pairBWatchdog 0) s = .next t)
    ∧ (∃ s t : State, exec (.pairAWatchdog) s = .next t)
    ∧ (∃ s t : State, exec (.checkpointMemoryError 0) s = .next t)
    ∧ (∃ s t : State, exec (.spareSelfTestFail) s = .next t)
    ∧ (∃ s t : State, exec (.retestComplete true) s = .next t)
    ∧ (∃ s t : State, exec (.eccScrub envEccFind 0) s = .next t)
    ∧ (∃ s t : State, exec (.vbatBelowVRteInHeath 0) s = .next t)
    ∧ (∃ s t : State, exec (.ledgerEnd 0 0) s = .next t)
    ∧ (∃ s t : State, exec (.lfChannelOpen 0 0 0) s = .next t)
    ∧ (∃ s t : State, exec (.tamperConditionEnd 0 0) s = .next t)
    ∧ (∃ s t : State, exec (.canBusError 0 envCanFault) s = .next t)
    ∧ (∃ s t : State, exec (.announceTransmit .pri) s = .next t)
    ∧ (∃ s t : State, exec (.pdelayRequestReceive 0 true 0) s = .next t)
    ∧ (∃ s t : State, exec (.tpoPulseEnd 0) s = .next t)
    ∧ (∃ s t : State, exec (.vdrvWindowReached 0) s = .next t)
    ∧ (∃ s t : State, exec (.vehicleAnnouncement) s = .next t) := by
  refine ⟨?_, ?_, ?_, ?_, ?_, ?_, ?_, ?_, ?_, ?_, ?_, ?_, ?_, ?_, ?_, ?_, ?_, ?_, ?_, ?_, ?_, ?_, ?_, ?_, ?_, ?_, ?_, ?_, ?_, ?_, ?_, ?_, ?_, ?_, ?_, ?_, ?_, ?_, ?_, ?_, ?_, ?_, ?_, ?_, ?_, ?_, ?_, ?_, ?_, ?_, ?_, ?_, ?_, ?_, ?_, ?_, ?_, ?_, ?_, ?_, ?_, ?_⟩ <;> exact ⟨State.reset, _, rfl⟩

end Sys2Proof.Tests
end

section
/-! PROOF. The statements of 01_system_architecture.md: the state after reset, what each reset leaves, and three statements that fail,
each with the state and the command at which it does. -/

open Sys2Proof

namespace Sys2Proof.Machine

/-! ### The state right after reset -/

theorem reset_settled : Settled State.reset := by
  refine ⟨⟨?_, rfl, rfl⟩, rfl⟩
  exact fun h => absurd h (by decide)

theorem reset_pages_without_session : ∀ p < 8, (pageGet State.reset p).aspKey = none := by decide +kernel

theorem reset_timetable_empty : ∀ i < 256, ttGet State.reset i = none := by decide +kernel

/-- Settles O54: each part is a field of the reset state; the memories have no listed byte. -/
theorem resetState : Obligations.ResetState := by
  unfold Obligations.ResetState
  refine ⟨⟨reset_settled, reset_memory_wf, ⟨rfl, rfl⟩, rfl⟩, ⟨rfl, rfl, rfl, rfl⟩, ?_, ?_⟩
  · exact ⟨by decide +kernel, rfl, rfl, reset_pages_without_session⟩
  · exact ⟨fun _ => rfl, fun _ => rfl, reset_timetable_empty⟩

/-! ### What a reset leaves (R146, R149) -/

@[simp] theorem resetTo_pwr_st (k : ResetKind) (s : State) : (resetTo k s).pwr.st = .startUp := rfl
@[simp] theorem resetTo_boot_step (k : ResetKind) (s : State) : (resetTo k s).boot.step = 1 := rfl
@[simp] theorem resetTo_boot_kinds (k : ResetKind) (s : State) : (resetTo k s).boot.kinds = kindsWith k s := rfl
@[simp] theorem resetTo_latch (k : ResetKind) (s : State) : (resetTo k s).permit.latch = false := rfl
@[simp] theorem resetTo_nvm_lower (k : ResetKind) (s : State) : (resetTo k s).nvm.lower = s.nvm.lower := rfl
@[simp] theorem resetTo_nvm_upper (k : ResetKind) (s : State) : (resetTo k s).nvm.upper = s.nvm.upper := rfl
@[simp] theorem resetTo_flash (k : ResetKind) (s : State) : (resetTo k s).flash = s.flash := rfl

/-- The tamper latch outlasts every reset (R504). -/
@[simp] theorem resetTo_tmp_latch (k : ResetKind) (s : State) : (resetTo k s).tmp.latch = s.tmp.latch := by
  show (tmpReset (kindsWith k s) s.tmp).latch = s.tmp.latch
  unfold tmpReset
  dsimp only
  split
  · rfl
  · split <;> rfl

/-- The clock's seconds outlast every reset but one that collects a PON (R149). -/
@[simp] theorem resetTo_clk_sec (k : ResetKind) (s : State) : (resetTo k s).clk.sec =
    if onlyKinds [.bor, .wfr, .hcr, .tmr, .lcr] (kindsWith k s) then s.clk.sec else 0 := by
  show (clkReset (kindsWith k s) s.clk).sec = _
  unfold clkReset
  split <;> rfl

/-- A power-on reset is among the kinds that it leaves collected. -/
theorem onlyKinds_kindsWith_pon (s : State) : onlyKinds [.bor, .wfr, .hcr, .tmr, .lcr] (kindsWith .pon s) = false := by
  unfold kindsWith
  split <;> rfl

/-- A power-on reset leaves the local clock at its reset value. -/
theorem resetTo_pon_clk (s : State) : (resetTo .pon s).clk = Clock.reset := by
  show clkReset (kindsWith .pon s) s.clk = Clock.reset
  unfold clkReset
  rw [onlyKinds_kindsWith_pon]
  rfl

/-! ### What a reset finds of the state that has seen VBAT -/

@[simp] theorem seeVbat_pwr (mv : Nat) (s : State) : (seeVbat mv s).pwr = s.pwr := by rw [seeVbat_keeps]
@[simp] theorem seeVbat_boot (mv : Nat) (s : State) : (seeVbat mv s).boot = s.boot := by rw [seeVbat_keeps]
@[simp] theorem seeVbat_tmp (mv : Nat) (s : State) : (seeVbat mv s).tmp = s.tmp := by rw [seeVbat_keeps]
@[simp] theorem seeVbat_nvm (mv : Nat) (s : State) : (seeVbat mv s).nvm = s.nvm := by rw [seeVbat_keeps]
@[simp] theorem seeVbat_flash (mv : Nat) (s : State) : (seeVbat mv s).flash = s.flash := by rw [seeVbat_keeps]

@[simp] theorem seeVbat_vbat (mv : Nat) (s : State) : (seeVbat mv s).sup.vbat = mv := by
  unfold seeVbat
  split
  · split <;> rfl
  · rfl

/-- The kinds collected depend on the power state and start-up alone. -/
theorem kindsWith_congr {k : ResetKind} {s t : State} (hp : t.pwr = s.pwr) (hb : t.boot = s.boot) :
    kindsWith k t = kindsWith k s := by
  unfold kindsWith
  rw [hp, hb]

/-! ### POWER_ON_RESET -/

/-- Both supplies below 2.0 V reset the part (R146). -/
theorem powerOn_low {mv vhold : Nat} (s : State) (hv : mv < 2000) (hh : vhold < 2000) :
    powerOn vhold (seeVbat mv s) = resetTo .pon (seeVhold vhold (seeVbat mv s)) := by
  unfold powerOn
  simp [seeVhold, hv, hh]

/-- Either supply at 2.0 V or more leaves the part as it is. -/
theorem powerOn_high {mv vhold : Nat} (s : State) (h : 2000 ≤ mv ∨ 2000 ≤ vhold) :
    powerOn vhold (seeVbat mv s) = seeVhold vhold (seeVbat mv s) := by
  have h' : ¬ (mv < 2000 ∧ vhold < 2000) := by omega
  unfold powerOn
  simp only [seeVhold, seeVbat_vbat, Bool.and_eq_true, decide_eq_true_eq]
  rw [if_neg h']

/-! ### NRST_EXTERNAL_LOW (R51, R52) -/

theorem nrstLow_driven {s : State} (ns : Nat) (h : nrstDriven s = true) : nrstLow ns s = s := by
  unfold nrstLow
  rw [if_pos h]

theorem nrstLow_long {s : State} {ns : Nat} (h : nrstDriven s = false) (hns : 10000 ≤ ns) :
    nrstLow ns s = resetTo .hcr s := by
  unfold nrstLow
  rw [if_neg (by simp [h]), if_pos hns]

theorem nrstLow_glitch {s : State} {ns : Nat} (hns : ns < 2000) : nrstLow ns s = s := by
  unfold nrstLow
  rw [if_neg (by omega : ¬ ns ≥ 10000), if_pos hns, ite_self]

/-- Between 2 µs and 10 µs a free value decides (log 6). -/
theorem nrstLow_between {s : State} {ns : Nat} (h : nrstDriven s = false) (h2 : 2000 ≤ ns) (h10 : ns < 10000) :
    nrstLow ns s = if Config.nrstShort s.rng.drawn then resetTo .hcr { s with rng.drawn := s.rng.drawn + 1 }
      else { s with rng.drawn := s.rng.drawn + 1 } := by
  unfold nrstLow
  rw [if_neg (by simp [h]), if_neg (by omega), if_neg (by omega)]

/-! ### SYS_RESET_CMD (R155) -/

/-- A register access ends with its status noted and, from CPG1, with the idle timer restarted: the rest of the state stays. -/
theorem hostSeen_hostNote_keeps (page addr : Nat) (st : Status) (s : State) :
    ∃ spi idle, hostSeen page (hostNote page st addr s) = { s with spi := spi, pwr.idleSince := idle } := by
  refine ⟨(hostNote page st addr s).spi, if page = 1 then s.elapsed else s.pwr.idleSince, ?_⟩
  rw [hostNote_keeps]
  unfold hostSeen
  split <;> rfl

/-- SYS_RESET_CMD with its key, from CPG1 while pair B is powered, resets the part; only the access itself is noted after. -/
theorem regDo_sysResetCmd_key {s : State} {w : Word} (hb : ppbOn s = true) (hw : w.toNat / 65536 = 0x5EC7) :
    ∃ spi idle, regDo 1 0x000008 (sysResetCmd 1 w) s = { resetTo .hcr s with spi := spi, pwr.idleSince := idle } := by
  obtain ⟨spi, idle, h⟩ := hostSeen_hostNote_keeps 1 0x000008 .ok (resetTo .hcr s)
  refine ⟨spi, idle, ?_⟩
  rw [← h]
  simp [regDo, regLive, hb, sysResetCmd, own1, hw]

/-- Without the key, or from another page, the command changes nothing of the state it acts on. -/
theorem sysResetCmd_refused {page : Nat} {w : Word} (s : State) (h : page ≠ 1 ∨ w.toNat / 65536 ≠ 0x5EC7) :
    (sysResetCmd page w s).2 = s := by
  unfold sysResetCmd own1
  split
  · next hp => exact if_neg (h.resolve_left (not_not_intro hp))
  · rfl

/-- A register access whose effect leaves the state is noted, and no more. -/
theorem regDo_keeps_of_effect {s : State} {f : State → Status × State} (page addr : Nat) (h : (f s).2 = s) :
    ∃ spi idle, regDo page addr f s = { s with spi := spi, pwr.idleSince := idle } := by
  unfold regDo
  dsimp only
  split
  · exact ⟨s.spi, s.pwr.idleSince, rfl⟩
  · split
    · exact hostSeen_hostNote_keeps ..
    · rw [h]
      exact hostSeen_hostNote_keeps ..

/-! ### NO_PAIR_RETRY (R605) -/

/-- The wait without a pair ends with a warm fault reset. -/
theorem noPairRetry_due {s : State} {x : Nat} (hst : s.pwr.st = .waitNoPair) (hat : s.boot.retryAt = some x) (hx : x ≤ s.elapsed) :
    noPairRetry s = resetTo .wfr s := by
  unfold noPairRetry
  rw [if_pos (by simp [hst, hat, expired, reached, hx])]

/-- A reset outside start-up collects its own kind alone. -/
theorem kindsWith_of_not_startUp {s : State} (k : ResetKind) (h : s.pwr.st ≠ .startUp) : kindsWith k s = [k] := by
  unfold kindsWith
  rw [if_neg (by simpa using h)]

/-! ### The reset commands -/

/-- Settles O5: each command is the reset of its kind, or leaves the part as it is, and the fields are those a reset leaves. -/
theorem resetCommands : Obligations.ResetCommands := by
  unfold Obligations.ResetCommands
  refine ⟨?ponLow, ?ponHigh, ?nrstLong, ?nrstGlitch, ?nrstDriven, ?nrstBetween, ?sysKey, ?sysRefused, ?noPair⟩
  case ponLow =>
    intro s mv vhold hv hh
    refine ⟨_, withVbat_eq s (powerOn vhold) (by omega), ?_⟩
    rw [powerOn_low s hv hh]
    have hk : kindsWith .pon (seeVhold vhold (seeVbat mv s)) = kindsWith .pon s := kindsWith_congr (by simp) (by simp)
    have hc := resetTo_pon_clk (seeVhold vhold (seeVbat mv s))
    simp [hk, hc, Clock.reset]
  case ponHigh =>
    intro s mv vhold hmv h
    refine ⟨_, withVbat_eq s (powerOn vhold) hmv, ?_⟩
    rw [powerOn_high s h]
    simp [seeVhold]
  case nrstLong =>
    intro s ns hd hns
    refine ⟨_, congrArg (done s) (nrstLow_long hd hns), ?_⟩
    simp
  case nrstGlitch => exact fun s ns hns => congrArg (done s) (nrstLow_glitch hns)
  case nrstDriven => exact fun s ns hd => congrArg (done s) (nrstLow_driven ns hd)
  case nrstBetween => exact fun s ns hd h2 h10 => congrArg (done s) (nrstLow_between hd h2 h10)
  case sysKey =>
    intro s w hb hw
    obtain ⟨spi, idle, h⟩ := regDo_sysResetCmd_key hb hw
    refine ⟨_, congrArg (done s) h, ?_⟩
    simp
  case sysRefused =>
    intro s page w hpw
    have hpw' : page.val ≠ 1 ∨ w.toNat / 65536 ≠ 0x5EC7 := hpw.imp_left (fun hp h => hp (Fin.ext h))
    obtain ⟨spi, idle, h⟩ := regDo_keeps_of_effect page.val 0x000008 (sysResetCmd_refused s hpw')
    exact ⟨_, congrArg (done s) h, rfl, rfl, rfl⟩
  case noPair =>
    intro s x hst hat hx
    have hk : kindsWith .wfr s = [.wfr] := kindsWith_of_not_startUp .wfr (by simp [hst])
    refine ⟨_, congrArg (done s) (noPairRetry_due hst hat hx), ?_⟩
    simp [hk, onlyKinds]

/-! ### A grant that waited is made in the cycle after a deny (R35, R104, log 111) -/

/-- In Run, with a backup start whose grant waited for the VHOLD measurement (R104, R390), in the very cycle of the reference in
which a momentary deny reached the latch. -/
def backupDue : State :=
  { State.reset with
    pwr.st := .run, boot.ready := true, sup.measured := true, sup.vholdCap := 100, flt.role := #v[0, 1, 2],
    acc.seqn := some { Seqn.fresh 3 0 0 with stage := .fuse, cred := some 0 },
    permit.denyAt := some 0 }

theorem backupDue_denyAt : backupDue.permit.denyAt = some (cycle backupDue) := rfl

/-- The tick moves the clock before it resumes what waits, so the grant finds the next cycle, in which nothing bars it. -/
theorem tick_backupDue_latch : (tick backupDue).permit.latch = true := by decide +kernel

/-- Refutes O55: a step on an empty queue moves the clock into the next cycle and then makes the grant that waited, so the state
before the step may still hold the deny of its own cycle. -/
theorem not_permitOnlyByGrant : ¬ Obligations.PermitOnlyByGrant := by
  unfold Obligations.PermitOnlyByGrant
  intro h
  obtain ⟨-, -, -, -, hcycle⟩ := h backupDue (tick backupDue) rfl rfl tick_backupDue_latch
  exact hcycle backupDue_denyAt

/-! ### A takeover without a pair in role S (R36, R607) -/

/-- In Run and permit, with the spare's flag set and no pair in role S. -/
def spareUnheld : State :=
  { State.reset with pwr.st := .run, flt.role := #v[0, 3, 3], flt.spare := true, permit.latch := true }

/-- The takeover gives role A to no other pair, so that the missing pair A holds the latch in deny (R605). -/
theorem lockstep_spareUnheld_denyLevel : denyLevel (lockstep 0 0 spareUnheld) = true := by decide +kernel

/-- Refutes O49: LOCKSTEP_MISMATCH with the spare's flag set keeps the latch only if some pair holds role S, which the clause does
not ask. -/
theorem not_pairFaults : ¬ Obligations.PairFaults := by
  unfold Obligations.PairFaults
  intro h
  obtain ⟨-, -, -, -, -, -, -, -, -, -, -, hlockstep, -⟩ := h
  obtain ⟨t, ht, -, -, -, -, -, -, -, -, hlatch⟩ := hlockstep spareUnheld .a 0 (by decide +kernel) rfl
  have hdeny : t.permit.latch = false := by
    rw [done_next ht, settle_latch]
    show (_ && !denyLevel (lockstep 0 0 spareUnheld)) = false
    rw [lockstep_spareUnheld_denyLevel, Bool.not_true, Bool.and_false]
  have hkept : t.permit.latch = true := hlatch (by decide +kernel)
  exact Bool.false_ne_true (hdeny.symm.trans hkept)

/-! ### A suspended job's block in TOKEN_SLOT (R397, R424) -/

/-- A bulk job of two blocks to window offset 0x1000: no source, encryption under slot 0 with a 128-bit key. -/
def bulkDesc : Bytes :=
  [1, 0, 0, 0] ++ leBytes 4 0 ++ leBytes 4 0 ++ leBytes 4 0 ++ leBytes 4 0x1000 ++ leBytes 4 32 ++ leBytes 8 0
    ++ [0, 0, 0, 0, 0, 16, 2, 0] ++ List.replicate 24 0

/-- That job, suspended after its first block, whose 16 bytes it has written. -/
def bulkSuspended : Op :=
  { tag := 5, ring := 12, page := 2, desc := bulkDesc, cls := 0, blocks := 1, suspended := true, wasSuspended := true,
    key := some 0, order := 0, result := none, corrected := false, written := 16 }

/-- In Run and permit with a session whose token slot has come, PERMIT_SLOT 60 filled, and the suspended job past which 16 urgent
jobs have run. -/
def tokenBesideBulk : State :=
  { State.reset with
    xo := tMs 10, pwr.st := .run, boot.ready := true, flt.role := #v[0, 1, 2], rng.seeded := true, permit.latch := true,
    acc.sessOpen := true, acc.slot := some (entryOf []), acc.profile := [1, 3, 0, 0, 60],
    ks.slots := vset State.reset.ks.slots 60 { Slot.empty with key := some 0 },
    job.ops := [bulkSuspended], job.urgentRun := 16 }

/-- Byte 0x1010 lies past the bytes that the one operation in flight has written. -/
theorem tokenBesideBulk_outside : ∀ o ∈ tokenBesideBulk.job.ops, o.result.isNone = true →
    0x1010 < dsDst o.desc ∨ dsDst o.desc + o.written ≤ 0x1010 := by decide +kernel

/-- The token's MAC job lets the suspended job run its second block, whose first byte is stored there (R424). -/
theorem tokenSlot_stores_bulk_block :
    memGet 0 (tokenSlot tokenBesideBulk).win 0x1010 ≠ memGet 0 tokenBesideBulk.win 0x1010 := by decide +kernel

/-- Refutes O57: TOKEN_SLOT stores a block of a suspended job beyond the bytes written so far, where its clause says that the window
keeps its bytes. -/
theorem not_framesOfSupplyTimeAndEngines : ¬ Obligations.FramesOfSupplyTimeAndEngines := by
  unfold Obligations.FramesOfSupplyTimeAndEngines
  intro h
  obtain ⟨-, -, -, -, -, -, -, -, -, -, -, -, -, -, -, -, -, -, -, -, -, -, -, -, -, -, -, -, -, -, -, -,
    -, -, -, -, -, -, -, -, -, -, -, -, -, -, -, -, -, -, -, -, -, -, -, -, -, -, -, -, -, -, -, -, -, -, -, -,
    -, -, -, -, -, -, -, htoken, -, -, -⟩ := h
  obtain ⟨-, hwin⟩ := htoken tokenBesideBulk (settle tokenBesideBulk (tokenSlot tokenBesideBulk)) rfl
  have hkept := hwin 0x1010 tokenBesideBulk_outside
  rw [settle_win] at hkept
  exact tokenSlot_stores_bulk_block hkept

end Sys2Proof.Machine
end

section
/-! PROOF. The statement of 02_pins_and_package.md: every command and every tick ends with `settle`, and what `settle` leaves is safe. -/

namespace Sys2Proof.Machine

/-! ### What a settled end leaves (R34, R49, R583) -/

theorem settle_permitSafe (b a : State) : PermitSafe (settle b a) := by
  refine ⟨fun hlatch => ?_, rfl, rfl⟩
  rw [settle_latch, Bool.and_eq_true, Bool.not_eq_true'] at hlatch
  rw [settle_denyLevel]
  exact hlatch.2

theorem settle_settled (b a : State) : Settled (settle b a) :=
  ⟨settle_permitSafe b a, settle_evLog b a⟩

/-! ### How every command ends -/

/-- The one inversion of `exec`: a command that carries VBAT faults beyond 45 V (R65), and every other outcome is `done`, also for
the commands that may lead from Heath or Fallow to Run (`doneRun`). -/
theorem exec_outcome (c : Instr) (s : State) :
    (vbatOf c = none ∧ ∃ a, exec c s = done s a)
    ∨ ∃ mv a, vbatOf c = some mv ∧ exec c s = if mv > 45000 then .fault .overstress else done s a := by
  cases c with
  | vbatCrankHoldEntry | vbatCrankHoldExit | vioLowShed | rideThroughEntry | rideThroughExit | vbatPermitDeny | overvoltageEntry
  | overvoltageExit | powerOnReset | startUp | wakePinEdge | fallowVbatWake | vbatBelowVRteInHeath | ledgerEnd =>
    exact .inr ⟨_, _, rfl, rfl⟩
  | _ => exact .inl ⟨rfl, _, rfl⟩

theorem exec_next_settle {c : Instr} {s t : State} (h : exec c s = .next t) : ∃ a, t = settle s a := by
  obtain ⟨-, a, hc⟩ | ⟨mv, a, -, hc⟩ := exec_outcome c s
  · exact ⟨a, done_next (hc.symm.trans h)⟩
  · rw [hc] at h
    split at h
    · cases h
    · exact ⟨a, done_next h⟩

/-! ### Every step -/

/-- Whichever branch `step` takes, the front command or a tick, the state it answers is a settled effect. -/
theorem step_next_settle {s t : State} (h : step s = .next t) : ∃ b a, t = settle b a := by
  unfold step at h
  split at h
  · injection h with h
    exact ⟨s, _, h.symm⟩
  · obtain ⟨a, ht⟩ := exec_next_settle h
    exact ⟨_, a, ht⟩

theorem step_next_settled {s t : State} (h : step s = .next t) : Settled t := by
  obtain ⟨b, a, rfl⟩ := step_next_settle h
  exact settle_settled b a

/-- Settles O52: a step answers only settled states, whose latch obeys the deny levels, whose pins follow the latch and whose events
are delivered. -/
theorem permitPinsFollowLatch : Obligations.PermitPinsFollowLatch := by
  unfold Obligations.PermitPinsFollowLatch
  refine ⟨fun s t h => ?_, fun s t h => step_next_settled h⟩
  obtain ⟨⟨-, hspA, hspB⟩, -⟩ := step_next_settled h
  exact ⟨hspA, hspB⟩

end Sys2Proof.Machine
end

section
/-! PROOF. The statements of 06_time_synchronisation.md: what Announces, peer delay, timeouts and master ports leave, and three statements
that fail, each with the state and the command at which it does. -/

namespace Sys2Proof.Machine

/-! ### Reads of a domain after the updates of the time block -/

theorem vget_vset_same {α : Type} {n i : Nat} (v : Vector α n) (x d : α) (h : i < n) : vget (vset v i x) i d = x := by
  unfold vget vset
  rw [Vector.getElem?_setIfInBounds, if_pos rfl, if_pos h, Option.getD_some]

theorem dom_eq_or_other (d c : Dom) : c = d ∨ c = domOther d := by cases d <;> cases c <;> simp [domOther]

@[simp] theorem domGet_settle (b a : State) (d : Dom) : domGet (settle b a) d = domGet a d := by cases d <;> rfl
@[simp] theorem domGet_evTim (i : Nat) (s : State) (d : Dom) : domGet (evTim i s) d = domGet s d := by cases d <;> rfl
@[simp] theorem domGet_domMod_same (d : Dom) (f : Domain → Domain) (s : State) : domGet (domMod d f s) d = f (domGet s d) := by
  cases d <;> rfl
@[simp] theorem domGet_domMod_other (d : Dom) (f : Domain → Domain) (s : State) :
    domGet (domMod d f s) (domOther d) = domGet s (domOther d) := by
  cases d <;> rfl
@[simp] theorem domMod_clk_evt (d : Dom) (f : Domain → Domain) (s : State) : (domMod d f s).clk.evt = s.clk.evt := by cases d <;> rfl
@[simp] theorem domMod_clk_sec (d : Dom) (f : Domain → Domain) (s : State) : (domMod d f s).clk.sec = s.clk.sec := by cases d <;> rfl
@[simp] theorem domMod_clk_ns (d : Dom) (f : Domain → Domain) (s : State) : (domMod d f s).clk.ns = s.clk.ns := by cases d <;> rfl
@[simp] theorem domMod_clk_ports (d : Dom) (f : Domain → Domain) (s : State) : (domMod d f s).clk.ports = s.clk.ports := by
  cases d <;> rfl

/-! ### The selection (R171) -/

/-- The selection chooses a domain and the mode; the local clock, the domains and the ports stay. -/
theorem selectDom_clk (s : State) : (selectDom s).clk = { s.clk with
    sel := (selectDom s).clk.sel, mode := (selectDom s).clk.mode, freqAdj := (selectDom s).clk.freqAdj,
    learning := (selectDom s).clk.learning, evt := (selectDom s).clk.evt } := by
  unfold selectDom modeHold
  dsimp only
  (repeat' split) <;> rfl

@[simp] theorem domGet_selectDom (s : State) (d : Dom) : domGet (selectDom s) d = domGet s d := by
  unfold domGet
  rw [selectDom_clk]

/-- A bit of the event word that is set outlasts the selection, which only sets others. -/
theorem selectDom_evt {i : Nat} (s : State) (h : s.clk.evt.getLsbD i = true) : (selectDom s).clk.evt.getLsbD i = true := by
  unfold selectDom modeHold
  dsimp only
  (repeat' split) <;> simp [h, switchTo, ckptItem, evTim, note, holdover]

/-! ### What a reaction of the domains keeps -/

/-- What a domain knows of its grandmaster from the last Announce. -/
def gmOf (x : Domain) : Bool × BitVec 64 × Nat × List (BitVec 64) := (x.gmSeen, x.gm, x.steps, x.path)

/-- Between two states the local clock, what the domains know of their grandmasters, and the ports' peer delay are the same. -/
structure GptpKept (s t : State) : Prop where
  sec : t.clk.sec = s.clk.sec
  ns : t.clk.ns = s.clk.ns
  ports : t.clk.ports = s.clk.ports
  gm : ∀ d, gmOf (domGet t d) = gmOf (domGet s d)

theorem GptpKept.refl (s : State) : GptpKept s s := ⟨rfl, rfl, rfl, fun _ => rfl⟩

theorem GptpKept.trans {s t u : State} (h : GptpKept s t) (k : GptpKept t u) : GptpKept s u :=
  ⟨k.sec.trans h.sec, k.ns.trans h.ns, k.ports.trans h.ports, fun d => (k.gm d).trans (h.gm d)⟩

theorem GptpKept.ite {s t u : State} (c : Prop) [Decidable c] (h : GptpKept s t) (k : GptpKept s u) :
    GptpKept s (if c then t else u) := by
  split
  · exact h
  · exact k

theorem GptpKept.foldl {α : Type} (f : State → α → State) (h : ∀ s x, GptpKept s (f s x)) :
    ∀ (l : List α) (s : State), GptpKept s (l.foldl f s)
  | [], s => .refl s
  | x :: l, s => (h s x).trans (GptpKept.foldl f h l (f s x))

theorem evTim_gptpKept (i : Nat) (s : State) : GptpKept s (evTim i s) := ⟨rfl, rfl, rfl, fun d => by rw [domGet_evTim]⟩

theorem domMod_gptpKept (d : Dom) (f : Domain → Domain) (s : State) (hf : ∀ x, gmOf (f x) = gmOf x) :
    GptpKept s (domMod d f s) := by
  refine ⟨by simp, by simp, by simp, fun c => ?_⟩
  obtain rfl | rfl := dom_eq_or_other d c
  · rw [domGet_domMod_same, hf]
  · rw [domGet_domMod_other]

theorem selectDom_gptpKept (s : State) : GptpKept s (selectDom s) :=
  ⟨by rw [selectDom_clk], by rw [selectDom_clk], by rw [selectDom_clk], fun d => by rw [domGet_selectDom]⟩

theorem suspect_gptpKept (d : Dom) (l : List Int) (s : State) : GptpKept s (suspect d l s) := by
  unfold suspect
  refine .trans ?_ (evTim_gptpKept 3 _)
  exact domMod_gptpKept d _ s (fun _ => rfl)

theorem domLost_gptpKept (d : Dom) (s : State) : GptpKept s (domLost d s) := by
  unfold domLost
  refine .ite _ (.refl s) ?_
  refine .trans (.trans ?_ (.ite _ (evTim_gptpKept 6 _) (.refl _))) (selectDom_gptpKept _)
  exact domMod_gptpKept d _ s (fun _ => rfl)

theorem slaveLost_gptpKept (p : Nat) (s : State) : GptpKept s (slaveLost p s) :=
  .foldl _ (fun s d => .ite _ (domLost_gptpKept d s) (.refl s)) _ s

theorem delayJump_gptpKept (p : Nat) (s : State) : GptpKept s (delayJump p s) :=
  (GptpKept.foldl _ (fun s d => .ite _ (suspect_gptpKept d _ s) (.refl s)) _ s).trans (selectDom_gptpKept _)

/-! ### ANNOUNCE_RECEIVE (R172, R173) -/

/-- The Announce's content reaches the domain. -/
def announced (d : Dom) (gm : BitVec 64) (steps : BitVec 8) (path : List (BitVec 64)) (s : State) : State :=
  domMod d (fun x => { x with gmSeen := true, gm := gm, steps := steps.toNat, path := path }) s

/-- On a slave port that carries messages the content is taken, and the reaction to a change keeps it. -/
theorem announceReceive_on {s : State} {d : Dom} (gm : BitVec 64) (steps : BitVec 8) (path : List (BitVec 64))
    (hon : slaveOn s d = true) (hcap : portCapable s (tiSlave s d) = true) :
    GptpKept (announced d gm steps path s) (announceReceive d gm steps path s) := by
  unfold announceReceive
  rw [if_neg (by simp [hon, hcap])]
  refine .ite _ ?changed (.ite _ ?rerouted (.refl _))
  case changed =>
    refine .trans (.ite _ (evTim_gptpKept 2 _) (.refl _)) (.trans (.ite _ ?_ (.refl _)) (selectDom_gptpKept _))
    exact domMod_gptpKept d _ _ (fun _ => rfl)
  case rerouted => exact (suspect_gptpKept d _ _).trans (selectDom_gptpKept _)

theorem announceReceive_off {s : State} {d : Dom} (gm : BitVec 64) (steps : BitVec 8) (path : List (BitVec 64))
    (h : slaveOn s d = false ∨ portCapable s (tiSlave s d) = false) : announceReceive d gm steps path s = s := by
  unfold announceReceive
  rw [if_pos (by simpa using h)]

/-! ### Peer delay (R159, R173) -/

/-- The partner's rate against the own clock from this response and the last one. -/
def partnerRatio (x : PortTime) (r3 t4 : Int) : Nat :=
  match x.prev with
  | some (a, b) => if r3 > a && t4 > b then ((r3 - a) * 65536 / (t4 - b)).toNat else x.ratio
  | none => x.ratio

/-- Mean link delay from the four timestamps, the own ones by the partner's rate. -/
def meanDelay (t1 t4 r2 r3 : Int) (ratio : Nat) : Int := ((t4 - t1) * ratio / 65536 - (r3 - r2)) / 131072

/-- What a port knows after an exchange. -/
def measured (x : PortTime) (t1 t4 r2 r3 : Int) : PortTime :=
  let delay := meanDelay t1 t4 r2 r3 (partnerRatio x r3 t4)
  { x with delay := delay, ratio := partnerRatio x r3 t4, prev := some (r3, t4), t1 := none, hist := (delay :: x.hist).take 8,
           capable := decide (delay ≤ 800) }

theorem partnerRatio_first {x : PortTime} (r3 t4 : Int) (h : x.prev = none) : partnerRatio x r3 t4 = x.ratio := by
  unfold partnerRatio
  rw [h]

theorem partnerRatio_next {x : PortTime} {r3 t4 a b : Int} (h : x.prev = some (a, b)) (ha : a < r3) (hb : b < t4) :
    partnerRatio x r3 t4 = ((r3 - a) * 65536 / (t4 - b)).toNat := by
  unfold partnerRatio
  rw [h]
  exact if_pos (by simp [ha, hb])

theorem linkOn_lt {s : State} {p : Nat} (h : linkOn s p = true) : p < 6 := by
  simp only [linkOn, Bool.and_eq_true, decide_eq_true_eq] at h
  obtain ⟨⟨hp, -⟩, -⟩ := h
  exact hp

/-- An exchange that a request began writes the port's measured record; what the domains make of a jump keeps it. -/
theorem pdelayDone_on {s : State} {p : Nat} {t1 : Int} (t2 t3 : Nat) (c2 c3 : Int) (hlink : linkOn s p = true)
    (hoff : bit (tiPdelayOff s) p = false) (ht1 : (vget s.clk.ports p PortTime.reset).t1 = some t1) :
    GptpKept { s with
        clk.ports := vset s.clk.ports p
          (measured (vget s.clk.ports p PortTime.reset) t1 (ingressNs s p) (peerTime t2 c2) (peerTime t3 c3)) }
      (pdelayDone p t2 t3 c2 c3 s) := by
  unfold pdelayDone
  simp only [ht1]
  rw [if_neg (by simp [hlink, hoff])]
  exact .trans (.ite _ (delayJump_gptpKept p _) (.refl _)) (.ite _ (slaveLost_gptpKept p _) (.refl _))

theorem pdelayDone_port {s : State} {p : Nat} {t1 : Int} (t2 t3 : Nat) (c2 c3 : Int) (hlink : linkOn s p = true)
    (hoff : bit (tiPdelayOff s) p = false) (ht1 : (vget s.clk.ports p PortTime.reset).t1 = some t1) :
    vget (pdelayDone p t2 t3 c2 c3 s).clk.ports p PortTime.reset
      = measured (vget s.clk.ports p PortTime.reset) t1 (ingressNs s p) (peerTime t2 c2) (peerTime t3 c3) := by
  rw [(pdelayDone_on t2 t3 c2 c3 hlink hoff ht1).ports]
  exact vget_vset_same _ _ _ (linkOn_lt hlink)

theorem pdelayDone_off {s : State} {p : Nat} (t2 t3 : Nat) (c2 c3 : Int)
    (h : linkOn s p = false ∨ bit (tiPdelayOff s) p = true) : pdelayDone p t2 t3 c2 c3 s = s := by
  unfold pdelayDone
  dsimp only
  split
  · rfl
  · exact if_pos (by simpa using h)

theorem pdelayReq_on {s : State} {p : Nat} (hlink : linkOn s p = true) (hoff : bit (tiPdelayOff s) p = false) :
    pdelayReq p s = { s with clk.ports := vmod s.clk.ports p (fun x => { x with
      reqSent := x.reqSent + 1, t1 := some (egressNs s p) }) } := by
  unfold pdelayReq
  rw [if_neg (by simp [hlink, hoff])]

theorem pdelayReq_off {s : State} {p : Nat} (h : linkOn s p = false ∨ bit (tiPdelayOff s) p = true) : pdelayReq p s = s := by
  unfold pdelayReq
  rw [if_pos (by simpa using h)]

theorem pdelayResp_on {s : State} {p : Nat} {inst : Bool} {dom : BitVec 8} (hlink : linkOn s p = true)
    (hdom : inst = false ∨ dom = 0) :
    pdelayResp p inst dom s = { s with clk.ports := vmod s.clk.ports p (fun x => { x with
      respSent := x.respSent + 1, resp := some (ingressNs s p, egressNs s p) }) } := by
  unfold pdelayResp
  rw [if_neg (by rcases hdom with h | h <;> simp [hlink, h])]

theorem pdelayResp_off {s : State} {p : Nat} {inst : Bool} {dom : BitVec 8}
    (h : linkOn s p = false ∨ (inst = true ∧ dom ≠ 0)) : pdelayResp p inst dom s = s := by
  unfold pdelayResp
  rw [if_pos (by simpa using h)]

/-! ### The two timeouts of a domain (R170, R174) -/

theorem syncTimeout_due {s : State} {d : Dom} (h : (domGet s d).syncAt + tiTimeout s * syncTicks s ≤ s.elapsed) :
    syncTimeout d s = domLost d s := by
  unfold syncTimeout
  rw [if_pos (by simpa [reached] using h)]

/-- A live domain that is not REROUTED is LOST after it loses its time, also when it was before. -/
theorem domLost_st {s : State} {d : Dom} (hlive : domLive s d = true) (hst : (domGet s d).st ≠ .rerouted) :
    (domGet (domLost d s) d).st = .lost := by
  unfold domLost
  dsimp only
  split
  next h => simpa [hlive, hst] using h
  next => split <;> simp

/-- `SUSPECT_HOLD` ends without a verdict: the domain acquires again, with event bit 5. -/
theorem suspectEnd_due {s : State} {d : Dom} {x : Nat} (hst : (domGet s d).st = .suspect) (hno : (domGet s d).noVerdict = true)
    (hx : (domGet s d).suspectUntil = some x) (hdue : x ≤ s.elapsed) :
    (domGet (suspectEnd d s) d).st = .acquiring ∧ (suspectEnd d s).clk.evt.getLsbD 5 = true
      ∧ (suspectEnd d s).clk.sec = s.clk.sec := by
  unfold suspectEnd
  rw [if_pos (by simp [hst, hno, hx, expired, reached, hdue])]
  dsimp only
  refine ⟨?_, ?_, ?_⟩
  · rw [domGet_evTim]
    cases d <;> rfl
  · simp [evTim, note, onBit]
  · cases d <;> rfl

/-! ### Master ports (R160, R162) -/

/-- Where every master port has a Sync to send, each sends it once. -/
theorem syncTransmit_sends {s : State} {d : Dom} (m : Nat → SyncMsg) (h : ∀ p, syncMsg s d p = some (m p)) :
    syncTransmit d s = domMod d (fun x => { x with
      syncSent := x.syncSent + (masterPorts s d).length, syncOut := (masterPorts s d).map m }) s := by
  have hm : syncMsg s d = some ∘ m := funext h
  unfold syncTransmit
  simp only [hm, List.filterMap_eq_map, List.length_map]

theorem syncTransmit_none {s : State} {d : Dom} (h : masterPorts s d = []) :
    syncTransmit d s = domMod d (fun x => { x with syncOut := [] }) s := by
  unfold syncTransmit
  rw [h]
  rfl

theorem syncMsg_grandmaster {s : State} {d : Dom} (h : tiRole s d = 2) (p : Nat) :
    syncMsg s d p = some { port := p, origin := (egressNs s p).toNat, corr := 0, egress := egressNs s p } := by
  unfold syncMsg
  rw [if_pos h]

theorem syncMsg_bridge {s : State} {d : Dom} {o : Nat} {c a : Int} (h : tiRole s d ≠ 2) (hlast : (domGet s d).last = some (o, c, a))
    (p : Nat) :
    syncMsg s d p = some {
      port := p, origin := o, egress := egressNs s p,
      corr := c + 65536 * (linkDelay s (tiSlave s d) + tiAsym s (tiSlave s d) + (egressNs s p - a)) } := by
  unfold syncMsg
  rw [if_neg h, hlast]
  rfl

/-- Where every master port has an Announce to send, each sends it once. -/
theorem announceTransmit_sends {s : State} {d : Dom} (m : Nat → AnnounceMsg) (h : ∀ p, announceMsg s d p = some (m p)) :
    announceTransmit d s = domMod d (fun x => { x with
      annSent := x.annSent + (masterPorts s d).length, annOut := (masterPorts s d).map m }) s := by
  have hm : announceMsg s d = some ∘ m := funext h
  unfold announceTransmit
  simp only [hm, List.filterMap_eq_map, List.length_map]

theorem announceTransmit_none {s : State} {d : Dom} (h : masterPorts s d = []) :
    announceTransmit d s = domMod d (fun x => { x with annOut := [] }) s := by
  unfold announceTransmit
  rw [h]
  rfl

theorem announceMsg_grandmaster {s : State} {d : Dom} (h : tiRole s d = 2) (p : Nat) :
    announceMsg s d p = some { port := p, gm := Config.clockId, steps := 0, path := [Config.clockId] } := by
  unfold announceMsg
  rw [if_pos h]

theorem announceMsg_bridge {s : State} {d : Dom} (h : tiRole s d ≠ 2) (hgm : (domGet s d).gmSeen = true) (p : Nat) :
    announceMsg s d p = some { port := p, gm := (domGet s d).gm, steps := (domGet s d).steps + 1,
                               path := (domGet s d).path ++ [Config.clockId] } := by
  unfold announceMsg
  rw [if_neg h, if_pos hgm]

/-- Settles O9: each command is its effect, and the reactions of the domains keep the clock, the ports and the Announce. -/
theorem domainsAndPorts : Obligations.DomainsAndPorts := by
  unfold Obligations.DomainsAndPorts
  refine ⟨?annOn, ?annOff, ?first, ?next, ?reqOn, ?respOn, ?respOff, ?reqOff, ?doneOff, ?timeout, ?hold, ?syncGm, ?syncBridge,
    ?syncNone, ?annNone, ?annGm, ?annBridge⟩
  case annOn =>
    intro s d gm steps path hon hcap
    obtain ⟨hsec, hns, -, hgm⟩ := announceReceive_on gm steps path hon hcap
    have hd : gmOf (domGet (announceReceive d gm steps path s) d) = (true, gm, steps.toNat, path) := by
      rw [hgm, announced, domGet_domMod_same]
      rfl
    simp only [gmOf, Prod.mk.injEq] at hd
    obtain ⟨hseen, hid, hsteps, hpath⟩ := hd
    refine ⟨_, rfl, ?_⟩
    simp [hseen, hid, hsteps, hpath, hsec, hns, announced]
  case annOff => exact fun s d gm steps path h => congrArg (done s) (announceReceive_off gm steps path h)
  case first =>
    intro s p t2 t3 c2 c3 t1 x delay hlink hoff hx ht1 hprev hdelay
    subst hx
    refine ⟨_, rfl, ?_⟩
    rw [settle_clk, pdelayDone_port t2 t3 c2 c3 hlink hoff ht1, measured, partnerRatio_first _ _ hprev, hdelay]
    rfl
  case next =>
    intro s p t2 t3 c2 c3 a t1 b x hlink hoff hx ht1 hprev ha hb
    subst hx
    refine ⟨_, rfl, ?_⟩
    rw [settle_clk, pdelayDone_port t2 t3 c2 c3 hlink hoff ht1, measured, partnerRatio_next hprev ha hb]
    exact ⟨rfl, rfl, rfl, rfl⟩
  case reqOn => exact fun s p hlink hoff => congrArg (done s) (pdelayReq_on hlink hoff)
  case respOn => exact fun s p inst dom hlink hdom => congrArg (done s) (pdelayResp_on hlink hdom)
  case respOff => exact fun s p inst dom h => congrArg (done s) (pdelayResp_off h)
  case reqOff => exact fun s p h => congrArg (done s) (pdelayReq_off h)
  case doneOff => exact fun s p t2 t3 c2 c3 h => congrArg (done s) (pdelayDone_off t2 t3 c2 c3 h)
  case timeout =>
    intro s d hlive hst hdue
    have hkept := domLost_gptpKept d s
    refine ⟨_, congrArg (done s) (syncTimeout_due hdue), ?_⟩
    simp [domLost_st hlive hst, hkept.sec, hkept.ns]
  case hold =>
    intro s d x hst hno hx hdue
    obtain ⟨hacq, hevt, hsec⟩ := suspectEnd_due hst hno hx hdue
    refine ⟨_, rfl, ?_⟩
    simp [hacq, selectDom_evt _ hevt, (selectDom_gptpKept _).sec, hsec]
  case syncGm => exact fun s d _ hrole => congrArg (done s) (syncTransmit_sends _ (syncMsg_grandmaster hrole))
  case syncBridge => exact fun s d o c a _ hrole hlast => congrArg (done s) (syncTransmit_sends _ (syncMsg_bridge hrole hlast))
  case syncNone => exact fun s d h => congrArg (done s) (syncTransmit_none h)
  case annNone => exact fun s d h => congrArg (done s) (announceTransmit_none h)
  case annGm => exact fun s d _ hrole => congrArg (done s) (announceTransmit_sends _ (announceMsg_grandmaster hrole))
  case annBridge => exact fun s d _ hrole hgm => congrArg (done s) (announceTransmit_sends _ (announceMsg_bridge hrole hgm))

/-! ### A frame that leaves long after its launch time without being late (R187, R559) -/

/-- The frame of a frame-send job, queued with launch time 0; it came to the head of its queue before that. -/
def heldFrame : Frame := { bytes := List.replicate 60 0, launch := some 0, entry := some 0, permit := false, late := false }

/-- The job's entry, prepared and due at 0. -/
def heldEntry : Entry := { entryOf [] with kind := 10, owner := .job 5, st := .preparing }

/-- In Run at 2,000 ns: the frame stands at the head of class 3 of P0, which is up and follows no gate list, and the job with tag 5
waits for its end. -/
def heldLaunch : State :=
  portMod 0 (fun p => { p with rate := 3, queues := vset p.queues 3 [heldFrame] }) (ttPut 0 (some heldEntry)
    { State.reset with
      pwr.st := .run, boot.ready := true, clk.ns := 2000,
      job.ops := [{ tag := 5, ring := 4, page := 1, desc := [], cls := 3, blocks := 0, suspended := false, wasSuspended := false,
                    key := none, order := 0, result := none, corrected := false, written := 0 }] })

theorem opFind_settle (b a : State) (tag : Nat) : opFind (settle b a) tag = opFind a tag := rfl

/-- The frame was not late at the head of its queue, so that its job ends with OK (R187). -/
theorem frameLaunch_heldLaunch_job :
    (opFind (frameLaunch 0 heldLaunch) 5).map (·.result) = some (some (.ok, false, [])) := by decide +kernel

/-- Refutes O24: the completion carries LATE under R187 alone, for a frame that was late at the head of its queue, and not where the
start lies more than t_ttlate after the due instant. -/
theorem not_frameLaunchEnds : ¬ Obligations.FrameLaunchEnds := by
  unfold Obligations.FrameLaunchEnds
  intro h
  obtain ⟨t, ht, -, -, -, hjob⟩ := h heldLaunch 0 heldEntry 5 0 3 heldFrame (by decide +kernel) rfl rfl (by decide +kernel)
    (by decide +kernel) rfl rfl (by decide +kernel) (by decide) (by decide +kernel) (by decide +kernel) (by decide +kernel)
  have ht : t = settle heldLaunch (frameLaunch 0 heldLaunch) := done_next ht
  have hlate : (opFind t 5).map (·.result) = some (some (.late, true, [])) := by
    rw [opFind, hjob]
    decide +kernel
  rw [ht, opFind_settle, frameLaunch_heldLaunch_job] at hlate
  exact absurd hlate (by decide)

/-! ### A pulse that an entry armed (R206) -/

/-- In Run, TPO0 armed for a one-shot pulse by a kind 9 entry, its target reached. -/
def entryPulse : State :=
  { State.reset with
    pwr.st := .run, boot.ready := true, clk.tpo := vset Clock.reset.tpo 0 { Tpo.reset with en := true, byEntry := true } }

/-- Once its pulse has fired no entry holds the output. -/
theorem tpoFire_entryPulse_byEntry : (tpoGet (tpoFire 0 entryPulse) 0).byEntry = false := by decide +kernel

/-- Refutes O10: TPO_FIRE of a one-shot pulse that an entry has armed ends the entry's hold on the output (R206), which the clause for
TPO_FIRE leaves as it was. -/
theorem not_clockRegisters : ¬ Obligations.ClockRegisters := by
  unfold Obligations.ClockRegisters
  intro h
  obtain ⟨-, -, -, -, -, -, hfire, -, -⟩ := h
  have hs := done_next (hfire entryPulse 0 (by decide +kernel) (by decide +kernel) (by decide +kernel))
  have hkept : (tpoGet (tpoFire 0 entryPulse) 0).byEntry = true :=
    (congrArg (fun u => (tpoGet u 0).byEntry) hs).symm.trans (by decide +kernel)
  rw [tpoFire_entryPulse_byEntry] at hkept
  exact Bool.false_ne_true hkept

/-! ### A tick increment of 0 (R180) -/

/-- In Heath, after RTC_TRIM with a span of 4,000,000 cycles that counted so many RTC ticks that the tick increment rounds to 0. -/
def stillClock : State :=
  rtcTrim 4000000 6553600000001 { State.reset with pwr.st := .heath, clk.rtcRunning := true }

theorem stillClock_tickInc : stillClock.clk.tickInc = some 0 := by decide +kernel

theorem tick_stillClock_elapsed : (tick stillClock).elapsed = stillClock.elapsed := by decide +kernel

/-- Refutes O50: with a tick increment of 0, which RTC_TRIM can leave, a tick in Heath does not advance elapsed time. -/
theorem not_stepRunsFront : ¬ Obligations.StepRunsFront := by
  unfold Obligations.StepRunsFront
  intro h
  obtain ⟨-, htick⟩ := h
  obtain ⟨t, ht, -, hlt⟩ := htick stillClock rfl
  injection ht with ht
  rw [← ht, tick_stillClock_elapsed] at hlt
  exact Nat.lt_irrefl _ hlt

end Sys2Proof.Machine
end

section
/-! PROOF. The statements of 07_burin_timetable.md: what a job's command leaves of its entry, and one statement that fails, with the
state and the entry at which it does. -/

namespace Sys2Proof.Machine

/-! ### Reads of the timetable -/

@[simp] theorem ttGet_settle (b a : State) (i : Nat) : ttGet (settle b a) i = ttGet a i := rfl

theorem ttGet_ttPut_same {i : Nat} (x : Option Entry) (s : State) (h : i < 256) : ttGet (ttPut i x s) i = x :=
  vget_vset_same _ _ _ h

/-- The index that the timetable gives to a run-time entry is one of its own (R194). -/
theorem freeIndex_lt {s : State} {page i : Nat} (h : freeIndex s page = some i) : i < 256 := by
  simp only [freeIndex] at h
  split at h
  · have hmem := List.mem_of_head? h
    simp only [ttFree, List.mem_filter, List.mem_range] at hmem
    exact hmem.1
  · cases h

/-! ### The operation that Burin serves next (R198, R199, R419, R422) -/

/-- The entry that the operation's bytes at SRC and its block make: with NOW its due instant follows from its lead. -/
def entryOfJob (s : State) (tag : Nat) (o : Op) (blk : Bytes) : Entry :=
  let eb := winRead s (dsSrc o.desc) 32
  let e := runtimeEntry o.page (enKind eb) (enUnit eb) (enRef eb) (.job tag) blk (BitVec.ofNat 48 (enTime eb))
  if bit (enFlags eb) 1 then { e with due := nowDue s e, grid := nowDue s e } else e

theorem entryOfJob_fields (s : State) (tag : Nat) (o : Op) (blk : Bytes) :
    let eb := winRead s (dsSrc o.desc) 32
    let e := entryOfJob s tag o blk
    (e.kind, e.unit, e.ref, e.owner, e.block) = (enKind eb, enUnit eb, enRef eb, .job tag, blk) := by
  dsimp only [entryOfJob]
  split <;> rfl

theorem entryOfJob_due {s : State} {o : Op} (tag : Nat) (blk : Bytes)
    (h : bit (enFlags (winRead s (dsSrc o.desc) 32)) 1 = false) :
    (entryOfJob s tag o blk).due = BitVec.ofNat 48 (enTime (winRead s (dsSrc o.desc) 32)) := by
  simp only [entryOfJob]
  rw [if_neg (Bool.eq_false_iff.1 h)]
  rfl

section Served

variable {s : State} {tag kind : Nat} {o : Op} (hlive : opLive s tag kind = some o) (hwaits : burinWaits s o = true)
  (hnext : engineNext (burinWaits s) s o = true)

include hlive hwaits hnext

/-- An entry needs 32 bytes at SRC. -/
theorem entryJob_short (hlen : dsSrcLen o.desc < 32) : entryJob tag kind s = opEnd tag .badEntry false [] s := by
  simp only [entryJob, hlive]
  rw [if_neg (by rw [hwaits, hnext]; decide), if_pos hlen]

/-- A frame of length 0 is refused (R421). -/
theorem entryJob_sendZero (hlen : 32 ≤ dsSrcLen o.desc) (hz : sendZero s o (winRead s (dsSrc o.desc) 32) = true) :
    entryJob tag kind s = opEnd tag .badDesc false [] s := by
  simp only [entryJob, hlive]
  rw [if_neg (by rw [hwaits, hnext]; decide), if_neg (Nat.not_lt.2 hlen), if_pos hz]

/-- The first check of R198 that fails ends the operation. -/
theorem entryJob_refused {st : Status} (hlen : 32 ≤ dsSrcLen o.desc)
    (hz : sendZero s o (winRead s (dsSrc o.desc) 32) = false)
    (hcheck : entryCheck s o.page (winRead s (dsSrc o.desc) 32) (entryBlock s o (winRead s (dsSrc o.desc) 32)).isSome = some st) :
    entryJob tag kind s = opEnd tag st false [] s := by
  simp only [entryJob, hlive, hcheck]
  rw [if_neg (by rw [hwaits, hnext]; decide), if_neg (Nat.not_lt.2 hlen), if_neg (Bool.eq_false_iff.1 hz)]

/-- An entry that passes every check stands at the index that is free for its page. -/
theorem entryJob_inserts {blk : Bytes} {i : Nat} (hlen : 32 ≤ dsSrcLen o.desc)
    (hz : sendZero s o (winRead s (dsSrc o.desc) 32) = false)
    (hblk : entryBlock s o (winRead s (dsSrc o.desc) 32) = some blk)
    (hcheck : entryCheck s o.page (winRead s (dsSrc o.desc) 32) true = none) (hfree : freeIndex s o.page = some i) :
    entryJob tag kind s = ttPut i (some (entryOfJob s tag o blk)) s := by
  simp only [entryJob, hlive, hblk, Option.isSome_some, hcheck, ttInsert, hfree]
  rw [if_neg (by rw [hwaits, hnext]; decide), if_neg (Nat.not_lt.2 hlen), if_neg (Bool.eq_false_iff.1 hz)]
  rfl

/-- Accepted, the job leaves its entry in the timetable and does not end. -/
theorem entryJob_accepted {blk : Bytes} {i : Nat} (hlen : 32 ≤ dsSrcLen o.desc)
    (hz : sendZero s o (winRead s (dsSrc o.desc) 32) = false)
    (hblk : entryBlock s o (winRead s (dsSrc o.desc) 32) = some blk)
    (hcheck : entryCheck s o.page (winRead s (dsSrc o.desc) 32) true = none) (hfree : freeIndex s o.page = some i) :
    let eb := winRead s (dsSrc o.desc) 32
    ∃ t, done s (entryJob tag kind s) = .next t
      ∧ (ttGet t i).map (fun e => (e.kind, e.unit, e.ref, e.owner, e.block)) = some (enKind eb, enUnit eb, enRef eb, .job tag, blk)
      ∧ (bit (enFlags eb) 1 = false → (ttGet t i).map (·.due) = some (BitVec.ofNat 48 (enTime eb)))
      ∧ t.job = s.job := by
  intro eb
  refine ⟨_, congrArg (done s) (entryJob_inserts hlive hwaits hnext hlen hz hblk hcheck hfree), ?_⟩
  rw [ttGet_settle, ttGet_ttPut_same _ _ (freeIndex_lt hfree)]
  exact ⟨congrArg some (entryOfJob_fields s tag o blk), fun hnow => congrArg some (entryOfJob_due tag blk hnow), rfl⟩

end Served

/-- Refused, the job ends with its status and the timetable stays. -/
theorem done_opEnd {s a : State} {tag : Nat} {st : Status} (h : a = opEnd tag st false [] s) :
    ∃ t, done s a = .next t ∧ t.job = (opEnd tag st false [] s).job ∧ t.tt = s.tt :=
  ⟨_, congrArg (done s) h, rfl, opEnd_tt tag st false [] s⟩

/-- Settles O22: the four commands run `entryJob` for their kind, which inserts the entry or ends the operation. -/
theorem entryJobs : Obligations.EntryJobs := by
  unfold Obligations.EntryJobs
  refine ⟨?lf, ?uhf, ?ranging, ?send, ?lfShort, ?uhfShort, ?rangingShort, ?sendShort, ?zero, ?lfRefused, ?uhfRefused,
    ?rangingRefused, ?sendRefused⟩
  case lf | uhf | ranging | send =>
    exact fun s tag o blk i hlive hwaits hnext hlen hz hblk hcheck hfree =>
      entryJob_accepted hlive hwaits hnext hlen hz hblk hcheck hfree
  case lfShort | uhfShort | rangingShort | sendShort =>
    exact fun s tag o hlive hwaits hnext hlen => done_opEnd (entryJob_short hlive hwaits hnext hlen)
  case zero => exact fun s tag o hlive hwaits hnext hlen hz => done_opEnd (entryJob_sendZero hlive hwaits hnext hlen hz)
  case lfRefused | uhfRefused | rangingRefused | sendRefused =>
    exact fun s tag o st hlive hwaits hnext hlen hz hcheck =>
      done_opEnd (entryJob_refused hlive hwaits hnext hlen hz hcheck)

/-! ### A frame block that names a channel twice (R240, R277) -/

/-- A downlink frame that names channel 0 in both of its channel words. -/
def twiceNamed : Bytes := [0, 255, 100, 0, 2, 0, 0, 0, 2, 0, 0, 0] ++ leBytes 4 0x3FF000 ++ leBytes 4 0x3FF000 ++ [0xAA, 0x55]

/-- The entry of a job for that frame, due at 0. -/
def twiceNamedEntry : Entry := { entryOf [] with kind := 1, owner := .job 5, block := twiceNamed }

/-- In Run with channel 0 mapped and in service, VDRV at its setpoint of 12.0 V, and that entry alone in the timetable. -/
def twiceNamedDue : State :=
  ttPut 0 (some twiceNamedEntry) { State.reset with
    pwr.st := .run, boot.ready := true, tt.exec := true, set.antenna := [1, 0, 120, 0],
    sup.vdrvOn := true, sup.vdrvSet := 120, lf.ch := vset Lf.reset.ch 0 { Channel.reset with st := 1 } }

/-- The frame drives channel 0 and no other. -/
theorem entryDue_twiceNamedDue_driven : drivenMask (entryDue 0 twiceNamedDue) = 1 := by decide +kernel

/-- The drive keeps both words, whose bits sum to that of channel 1. -/
theorem frameDrive_twiceNamed_mask : maskOf (frameDrive twiceNamedDue twiceNamedEntry).kept = 2 := by decide +kernel

theorem drivenMask_settle (b a : State) : drivenMask (settle b a) = drivenMask a := rfl

/-- Refutes O11: its first clause takes the sum of the kept words' channel bits as the driven channels, also for an entry whose block
names a channel twice. R277 refuses such a block by the rules of R240; no premise of the clause does. -/
theorem not_entryDueStarts : ¬ Obligations.EntryDueStarts := by
  unfold Obligations.EntryDueStarts
  intro h
  obtain ⟨hframe, -⟩ := h
  obtain ⟨t, ht, -, hmask, -⟩ := hframe twiceNamedDue 0 twiceNamedEntry (by decide +kernel) (by decide +kernel) rfl
    (by decide +kernel) (by decide +kernel)
  have ht : t = settle twiceNamedDue (entryDue 0 twiceNamedDue) := done_next ht
  rw [ht, drivenMask_settle, entryDue_twiceNamedDue_driven, frameDrive_twiceNamed_mask] at hmask
  exact absurd hmask (by decide)

end Sys2Proof.Machine
end

section
/-! PROOF. The statement of 08_lf_antenna_channels.md, which fails: the channels that a scan pattern drives, and the state and the
entry at which the statement names others. -/

namespace Sys2Proof.Machine

/-! ### The channels that a drive turns on (R233) -/

theorem chGet_lfModes_mode {n : Nat} (f : Nat → ChMode) (s : State) (h : n < 16) : (chGet (lfModes f s) n).mode = f n := by
  simp [chGet, lfModes, vget, h]

theorem drivenMask_lfModes (f : Nat → ChMode) (s : State) :
    drivenMask (lfModes f s) = BitVec.ofNat 16 (bitsOf (fun n => (f n).driven) 16) := by
  simp [drivenMask, bitsOf, chGet_lfModes_mode]

/-- The channels of a list of words, as a mask in which each counts once however many of the words name it. -/
def channelMask (l : List ChWord) : BitVec 16 := BitVec.ofNat 16 (bitsOf (fun n => (l.map (·.ch)).contains n) 16)

theorem maskOf_eq_sum_channels (l : List ChWord) : maskOf l = ((l.map (·.ch)).map chBit).sum := by
  simp [maskOf, Function.comp_def]

theorem drivenMask_driveOn {m : ChMode} (ifs : Nat) (d : Drive) (s : State) (hm : m.driven = true) :
    drivenMask (driveOn m ifs d s) = channelMask d.kept := by
  have hmode (n : Nat) : (if d.kept.any (fun w => w.ch = n) then m else .off).driven = (d.kept.map (·.ch)).contains n := by
    have hany : d.kept.any (fun w => w.ch = n) = (d.kept.map (·.ch)).contains n := by
      rw [Bool.eq_iff_iff]; simp
    rw [hany]
    cases (d.kept.map (·.ch)).contains n
    · rfl
    · exact hm
  simp only [driveOn, drivenMask_lfModes, hmode, channelMask]

@[simp] theorem drivenMask_noteSat (sat : BitVec 16) (s : State) : drivenMask (noteSat sat s) = drivenMask s := by
  unfold noteSat; split <;> rfl

@[simp] theorem drivenMask_noteK (k : Nat) (s : State) : drivenMask (noteK k s) = drivenMask s := by
  unfold noteK noteScaled; split <;> rfl

/-- The drive of R233 for the pattern that a scan's entry runs next. -/
def nextPatternDrive (s : State) (e : Entry) : Drive :=
  driveOf s (scanIfs (scanBlock s e)) ((scanPatterns (scanBlock s e)).getD e.pats []) 255

/-- SCAN_PATTERN_START with a pattern left drives the channels of that pattern's kept words and no other (R233). -/
theorem drivenMask_scanPatternStart {s : State} {i : Nat} {e : Entry} (env : PatternEnv) (hget : ttGet s i = some e)
    (hkind : e.kind = 3) (hrun : e.st = .running) (hcut : e.cut = none) (hend : e.endAt ≤ s.xo)
    (hleft : e.pats < scanCount (scanBlock s e)) :
    drivenMask (scanPatternStart i env s) = channelMask (nextPatternDrive s e).kept := by
  have hgo : (e.kind ≠ 3 || e.st != .running || e.cut.isSome || !reachedXo s e.endAt
      || e.pats ≥ scanCount (scanBlock s e)) = false := by
    simp [hkind, hrun, hcut, reachedXo, hend, hleft]
  simp only [scanPatternStart, hget, hgo, Bool.false_eq_true, if_false, drivenMask_noteK, drivenMask_noteSat]
  exact drivenMask_driveOn _ (nextPatternDrive s e) _ rfl

/-! ### A scan pattern that names a channel twice (R240) -/

/-- A scan of one pattern, both of whose words name channel 0. -/
def scanTwice : Bytes := [1, 16, 100, 0, 0xFF, 0xFF, 0, 0, 2, 0] ++ leBytes 4 0x3FF000 ++ leBytes 4 0x3FF000

/-- The entry of a job for that scan, running, its pattern about to start. -/
def scanTwiceEntry : Entry := { entryOf [] with kind := 3, owner := .job 5, block := scanTwice, st := .running }

/-- In Run with channel 0 mapped and in service, VDRV at its setpoint of 12.0 V, and that entry alone in the timetable. -/
def scanTwiceRunning : State := ttPut 0 (some scanTwiceEntry) twiceNamedDue

/-- The pattern's drive keeps both words. -/
theorem nextPatternDrive_scanTwice_channels :
    (nextPatternDrive scanTwiceRunning scanTwiceEntry).kept.map (·.ch) = [0, 0] := by decide +kernel

/-- Both words name channel 0, which alone is driven. -/
theorem channelMask_scanTwice : channelMask (nextPatternDrive scanTwiceRunning scanTwiceEntry).kept = 1 := by
  rw [channelMask, nextPatternDrive_scanTwice_channels]
  decide

/-- Summed, the two words' bits are that of channel 1. -/
theorem maskOf_scanTwice : maskOf (nextPatternDrive scanTwiceRunning scanTwiceEntry).kept = 2 := by
  rw [maskOf_eq_sum_channels, nextPatternDrive_scanTwice_channels]
  decide

/-- Refutes O13: its clause of SCAN_PATTERN_START takes the sum of the kept words' channel bits as the driven channels, also for a
pattern that names a channel twice. R240 refuses such a scan block; no premise of the clause does. -/
theorem not_lfActionsEnd : ¬ Obligations.LfActionsEnd := by
  unfold Obligations.LfActionsEnd
  intro h
  obtain ⟨-, hpattern, -⟩ := h
  have hget : ttGet scanTwiceRunning 0 = some scanTwiceEntry := ttGet_ttPut_same _ _ (by decide)
  have hend : scanTwiceEntry.endAt ≤ scanTwiceRunning.xo := Nat.zero_le _
  have hleft : scanTwiceEntry.pats < scanCount (scanBlock scanTwiceRunning scanTwiceEntry) := by decide +kernel
  obtain ⟨t, ht, -, -, hmask, -⟩ :=
    hpattern scanTwiceRunning 0 scanTwiceEntry { sat := 0, limited := false } hget rfl rfl rfl hend hleft
  have ht : t = settle scanTwiceRunning (scanPatternStart 0 { sat := 0, limited := false } scanTwiceRunning) := done_next ht
  have hmask : drivenMask t = BitVec.ofNat 16 (maskOf (nextPatternDrive scanTwiceRunning scanTwiceEntry).kept) := hmask
  rw [ht, drivenMask_settle, drivenMask_scanPatternStart _ hget rfl rfl rfl hend hleft, channelMask_scanTwice,
    maskOf_scanTwice] at hmask
  exact absurd hmask (by decide)

end Sys2Proof.Machine
end

section
/-! PROOF. The statements of 11_uhf_radios.md: what the ends of UHF actions leave, and one statement that fails, with the state and the
calibration at which it does. -/

namespace Sys2Proof.Machine

/-! ### What the end of an occurrence keeps (R196, R200, R315, R375) -/

/-- Only an index of the table holds an entry (R194). -/
theorem ttGet_some_lt {s : State} {i : Nat} {e : Entry} (h : ttGet s i = some e) : i < 256 := by
  refine Nat.lt_of_not_le fun hi => ?_
  have hnone : s.tt.entries[i]? = none := Vector.getElem?_eq_none_iff.2 hi
  rw [ttGet, vget, hnone] at h
  cases h

theorem trxFree_foldl_keeps : ∀ (l : List Nat) (s : State),
    l.foldl (fun s n => trxFree n s) s = { s with uhf := (l.foldl (fun s n => trxFree n s) s).uhf }
  | [], _ => rfl
  | n :: l, s => by rw [List.foldl_cons, trxFree_foldl_keeps l, trxFree_keeps]

theorem rangeNote_keeps (e : Entry) (res : Bytes) (s : State) :
    rangeNote e res s = { s with loc := (rangeNote e res s).loc } := by
  unfold rangeNote
  split <;> rfl

/-- A one-shot occurrence frees its index, its lateness noted (R205). -/
theorem occEnd_oneShot {e : Entry} (i : Nat) (s : State) (h : e.periodic = false) :
    occEnd i e s = ttPut i none (if e.late then evTt 0 s else s) := by
  simp [occEnd, h]

/-- The end of a job's one-shot action, up to its result's note and the transceivers that it frees. -/
theorem entryEnd_of_job {e : Entry} {g : Nat} (i : Nat) (st : Status) (res : Bytes) (s : State) (howner : e.owner = .job g)
    (hone : e.periodic = false) :
    ∃ uhf loc, entryEnd i e st res s = opEnd g (lateStatus e st) e.late res
      { ttPut i none (if e.late then evTt 0 s else s) with uhf := uhf, loc := loc } := by
  unfold entryEnd entryDeliver
  rw [howner, rangeNote_keeps, trxFree_foldl_keeps, occEnd_oneShot i s hone]
  exact ⟨_, _, rfl⟩

/-- The end of a job's one-shot action frees its entry, ends the job and keeps the power state. -/
theorem entryEnd_job {e : Entry} {i g : Nat} (st : Status) (res : Bytes) (s : State) (hi : i < 256) (howner : e.owner = .job g)
    (hone : e.periodic = false) :
    ttGet (entryEnd i e st res s) i = none ∧ (entryEnd i e st res s).job = (opEnd g (lateStatus e st) e.late res s).job
      ∧ (entryEnd i e st res s).pwr = s.pwr := by
  obtain ⟨uhf, loc, h⟩ := entryEnd_of_job i st res s howner hone
  rw [h]
  refine ⟨ttGet_ttPut_same none (if e.late then evTt 0 s else s) hi, ?_, ?_⟩ <;> cases e.late <;> rfl

/-- A command that ends with a job's one-shot action ended, from a state whose jobs are those before it. -/
theorem done_entryEnd_job {s u a : State} {e : Entry} {i g : Nat} {st : Status} {res : Bytes} (hget : ttGet s i = some e)
    (howner : e.owner = .job g) (hone : e.periodic = false) (hjob : u.job = s.job) (ha : a = entryEnd i e st res u) :
    ∃ t, done s a = .next t ∧ ttGet t i = none ∧ t.job = (opEnd g (lateStatus e st) e.late res s).job := by
  obtain ⟨hnone, hend, -⟩ := entryEnd_job st res u (ttGet_some_lt hget) howner hone
  refine ⟨_, congrArg (done s) ha, hnone, hend.trans ?_⟩
  unfold opEnd opMod
  rw [hjob]

/-- A listening window uses no transceiver, and its result goes nowhere when the settings own it. -/
theorem entryEnd_listening_uhf {e : Entry} (i : Nat) (st : Status) (res : Bytes) (s : State) (hkind : e.kind = 7)
    (howner : e.owner = .settings) : (entryEnd i e st res s).uhf = s.uhf := by
  have htrxs : e.trxs = [] := by simp [Entry.trxs, hkind]
  have hacc (u : State) : accResult e (lateStatus e st) res u = u := by simp [accResult, howner, hkind]
  unfold entryEnd entryDeliver
  rw [howner, hacc, rangeNote_keeps, htrxs, List.foldl_nil, occEnd_keeps]

/-! ### RX_WINDOW_COMPLETE, TX_WINDOW_COMPLETE, RANGING_COMPLETE (R326, R341, R365) -/

/-- Outside the commands that change the power state, a command that may lead to Run ends as every other does. -/
theorem doneRun_of_pwr {s a : State} (h : a.pwr = s.pwr) : doneRun s a = done s a := by
  unfold doneRun isRun
  rw [h, if_neg (by simp)]

/-- What the search of a window finds in the telegrams whose sync word it accepts (R325). -/
def windowFound (s : State) (e : Entry) (tels : List RxTelegram) : RxFound :=
  rxSearch (winMax (e.profile s)) (tels.filter (fun x => syncAccepted (e.profile s) x && syncInside e (winLen (e.profile s)) x))
    { syncs := 0, crcs := 0, lens := 0, tel := none }

theorem rxWindowComplete_ends {s : State} {i : Nat} {e : Entry} {tels : List RxTelegram} (peak : BitVec 16)
    (hget : ttGet s i = some e) (hkind : e.kind = 4) (hrun : e.st = .running)
    (hend : (windowFound s e tels).tel.isSome = true ∨ e.endAt ≤ s.xo) :
    rxWindowComplete i tels peak s
      = entryEnd i e (rxStatus (windowFound s e tels)) (rxResult e (calFailed s e) (windowFound s e tels) peak) s := by
  have hgo : ((windowFound s e tels).tel.isNone && !reachedXo s e.endAt) = false := by
    rcases hend with htel | hxo
    · rw [Option.isNone_eq_false_iff.2 htel, Bool.false_and]
    · simp [reachedXo, hxo]
  unfold rxWindowComplete
  rw [hget]
  exact if_neg (by rw [hkind, hrun]; exact Bool.eq_false_iff.1 hgo)

theorem txWindowComplete_ends {s : State} {i : Nat} {e : Entry} (hget : ttGet s i = some e) (hkind : e.kind = 5)
    (hrun : e.st = .running) (hend : e.endAt ≤ s.xo) :
    txWindowComplete i s = entryEnd i e .ok (txResult e (telWin (e.profile s))) s := by
  unfold txWindowComplete
  rw [hget]
  exact if_neg (by simp [hkind, hrun, reachedXo, hend])

theorem evLoc_foldl_job : ∀ (l : List Nat) (s : State), (l.foldl (fun s n => evLoc n s) s).job = s.job
  | [], _ => rfl
  | n :: l, s => by rw [List.foldl_cons, evLoc_foldl_job l, evLoc_job]

/-- With the generator serving, the exchange ends with its outcome, from a state that has counted its requests and events. -/
theorem rangingComplete_ends {s : State} {i : Nat} {e : Entry} {env : RangingEnv} (hget : ttGet s i = some e) (hkind : e.kind = 6)
    (hrun : e.st = .running) (hend : e.endAt - tUs 4956 + tNs (rangingEndNs env) ≤ s.xo) (hserves : rngServes s = true)
    (hlatched : s.rng.latched = false) :
    ∃ u, u.job = s.job ∧ rangingComplete i env s = entryEnd i e (rangeOut s e env).st (rangeOut s e env).bytes u := by
  have hgo : (e.kind ≠ 6 || e.st != .running || !reachedXo s (e.endAt - tUs 4956 + tNs (rangingEndNs env))) = false := by
    simp [hkind, hrun, reachedXo, hend]
  unfold rangingComplete
  simp only [hget, hgo, hserves, hlatched, Bool.not_true, Bool.and_false, Bool.false_eq_true, if_false, Bool.not_false,
    Bool.and_true]
  refine ⟨_, ?_, rfl⟩
  have hcounted (c : Bool) : (if c then countRequests 7 s else s).job = s.job := by cases c <;> rfl
  split
  · rw [trxMod_job, evLoc_foldl_job, hcounted]
  · rw [evLoc_foldl_job, hcounted]

/-! ### WRX_MATCH (R333, R334) -/

theorem vget_vmod_same {α : Type} {n i : Nat} (v : Vector α n) (f : α → α) (d : α) (h : i < n) :
    vget (vmod v i f) i d = f (vget v i d) := by
  unfold vmod
  rw [Vector.getElem?_eq_getElem h]
  exact (vget_vset_same v _ d h).trans (by simp [vget, h])

/-- A hit counted at a wake receiver (R344). -/
def hitCounted (n : Nat) (s : State) : State :=
  { s with uhf.wrx := vmod s.uhf.wrx n (fun w => { w with hits := satInc 65535 w.hits }) }

theorem evUhf_evt_same {i : Nat} (s : State) (h : i < 7) : (evUhf i s).uhf.evt.getLsbD i = true := by
  change (s.uhf.evt ||| onBit 7 i).getLsbD i = true
  rw [BitVec.getLsbD_or, onBit, BitVec.getLsbD_ofNat, Nat.testBit_two_pow_self]
  simp [h]

theorem evUhf_evt_of_set {j : Nat} (i : Nat) {s : State} (h : s.uhf.evt.getLsbD j = true) :
    (evUhf i s).uhf.evt.getLsbD j = true := by
  simp [evUhf, note, h]

theorem ttInsert_uhf (page : Nat) (e : Entry) (s : State) : (ttInsert page e s).2.uhf = s.uhf := by
  unfold ttInsert
  split <;> rfl

/-- The follow-on of a match leaves the hits as they are and clears no event. -/
theorem followOn_counts {n : Nat} (plan : Nat) (p : Bytes) (s : State) (hn : n < 6) :
    (vget (followOn n plan p s).uhf.wrx n Wrx.reset).hits = (vget s.uhf.wrx n Wrx.reset).hits
      ∧ ∀ j, s.uhf.evt.getLsbD j = true → (followOn n plan p s).uhf.evt.getLsbD j = true := by
  have hlost : (vget (vmod s.uhf.wrx n (fun w => { w with followLost := satInc 65535 w.followLost })) n Wrx.reset).hits
      = (vget s.uhf.wrx n Wrx.reset).hits := by rw [vget_vmod_same _ _ _ hn]
  unfold followOn
  dsimp only
  split
  · exact ⟨rfl, fun j h => h⟩
  · split
    · exact ⟨hlost, fun j h => evUhf_evt_of_set 5 h⟩
    · split
      · exact ⟨hlost, fun j h => evUhf_evt_of_set 5 h⟩
      · rw [ttInsert_uhf]
        exact ⟨rfl, fun j h => h⟩

section Match

variable {s : State} {n j : Nat} {chips : BitVec 64} {e : Entry}
  (hentry : (vget s.uhf.wrx n Wrx.reset).entry = some j) (hget : ttGet s j = some e)
  (hon : (vget s.uhf.wrx n Wrx.reset).on = true) (hmiss : patMisses (patPlan s e) chips ≤ patMiss (patPlan s e))

include hentry hget hon hmiss

/-- A receiver that hears its pattern counts it, with event bit 4, and has the follow-on written. -/
theorem wrxMatch_heard (hclear : (trxGet s (n / 3)).blindUntil ≤ s.xo - patSpan (patPlan s e)) :
    wrxMatch n chips s = followOn n e.ref (patPlan s e) (heathEvent 9 (evUhf 4 (hitCounted n s))) := by
  have hbind : (vget s.uhf.wrx n Wrx.reset).entry.bind (ttGet s) = some e := by rw [hentry, Option.bind_some, hget]
  unfold wrxMatch
  simp only [hbind]
  rw [if_neg (by simp [hon, hmiss]), if_neg (Nat.not_lt.2 hclear)]
  rfl

/-- A receiver whose port transmitted since the pattern began is blind (R333). -/
theorem wrxMatch_blind (hblind : s.xo - patSpan (patPlan s e) < (trxGet s (n / 3)).blindUntil) :
    wrxMatch n chips s = evUhf 6 s := by
  have hbind : (vget s.uhf.wrx n Wrx.reset).entry.bind (ttGet s) = some e := by rw [hentry, Option.bind_some, hget]
  unfold wrxMatch
  simp only [hbind]
  rw [if_neg (by simp [hon, hmiss]), if_pos hblind]

end Match

/-! ### WRX_WINDOW_END (R332) -/

/-- The next occurrence's preparation is due, so that the receiver keeps listening (R332). -/
def nextListens (s : State) (e : Entry) : Bool :=
  e.periodic && (e.count = 0 || decide (1 < e.remain)) && e.sig.isNone && decide (s48 (nextDue e e.start).due (now48 s) ≤ 300000)

/-- What the end of a settings window leaves of UHF: its receiver goes off, or on with the next occurrence. -/
theorem wrxWindowEnd_uhf {s : State} {n i : Nat} {e : Entry} (hentry : (vget s.uhf.wrx n Wrx.reset).entry = some i)
    (hget : ttGet s i = some e) (hkind : e.kind = 7) (hrun : e.st = .running) (howner : e.owner = .settings)
    (hend : e.endAt ≤ s.xo ∨ nextListens s e = true) :
    (wrxWindowEnd n s).uhf = { s.uhf with wrx := vmod s.uhf.wrx n (fun w =>
      if nextListens s e then { w with entry := some i } else { w with on := false, entry := none }) } := by
  have hgo : (e.kind ≠ 7 || e.st != .running || !(reachedXo s e.endAt || nextListens s e)) = false := by
    rcases hend with h | h <;> simp [hkind, hrun, reachedXo, h]
  unfold wrxWindowEnd
  simp only [hentry, hget]
  exact (congrArg State.uhf (if_neg (Bool.eq_false_iff.1 hgo))).trans (entryEnd_listening_uhf i .ok [] _ hkind howner)

/-- Settles O15: each command ends its entry by `entryEnd`, or acts on the wake receiver alone. -/
theorem uhfActionsEnd : Obligations.UhfActionsEnd := by
  unfold Obligations.UhfActionsEnd
  refine ⟨?rx, ?tx, ?ranging, ?heard, ?blind, ?windowOff, ?windowOn⟩
  case rx =>
    intro s i e tels peak g f hget hkind hrun howner hone hf hend
    subst hf
    have ha := rxWindowComplete_ends (tels := tels) peak hget hkind hrun hend
    obtain ⟨-, -, hpwr⟩ := entryEnd_job (rxStatus (windowFound s e tels))
      (rxResult e (calFailed s e) (windowFound s e tels) peak) s i.isLt howner hone
    obtain ⟨t, ht, hrest⟩ := done_entryEnd_job hget howner hone rfl ha
    exact ⟨t, (doneRun_of_pwr (by rw [ha, hpwr])).trans ht, hrest⟩
  case tx =>
    exact fun s i e g hget hkind hrun howner hone hend =>
      done_entryEnd_job hget howner hone rfl (txWindowComplete_ends hget hkind hrun hend)
  case ranging =>
    intro s i e env g hget hkind hrun howner hone hend hserves hlatched
    obtain ⟨u, hjob, ha⟩ := rangingComplete_ends hget hkind hrun hend hserves hlatched
    exact done_entryEnd_job hget howner hone hjob ha
  case heard =>
    intro s n chips j e hentry hget hon hmiss hclear
    refine ⟨_, congrArg (done s) (wrxMatch_heard hentry hget hon hmiss hclear), ?_⟩
    obtain ⟨hhits, hevt⟩ := followOn_counts e.ref (patPlan s e) (heathEvent 9 (evUhf 4 (hitCounted n s))) n.isLt
    rw [settle_uhf, hhits]
    refine ⟨?_, hevt 4 ?_⟩ <;> rw [heathEvent_keeps]
    · exact congrArg Wrx.hits (vget_vmod_same s.uhf.wrx _ _ n.isLt)
    · exact evUhf_evt_same _ (by decide)
  case blind =>
    exact fun s n chips j e hentry hget hon hmiss hblind => congrArg (done s) (wrxMatch_blind hentry hget hon hmiss hblind)
  case windowOff =>
    intro s n i e hentry hget hkind hrun howner hend hpast
    have hpast : nextListens s e = false := hpast
    refine ⟨_, rfl, ?_⟩
    rw [settle_uhf, wrxWindowEnd_uhf hentry hget hkind hrun howner (.inl hend), hpast, vget_vmod_same _ _ _ n.isLt]
    exact ⟨rfl, rfl, rfl⟩
  case windowOn =>
    intro s n i e hentry hon hget hkind hrun howner hperiodic hcount hsig hnext
    have hpast : nextListens s e = true := by simp [nextListens, hperiodic, hcount, hsig, hnext]
    refine ⟨_, rfl, ?_⟩
    rw [settle_uhf, wrxWindowEnd_uhf hentry hget hkind hrun howner (.inr hpast), hpast, vget_vmod_same _ _ _ n.isLt]
    exact ⟨hon, rfl⟩

/-! ### A calibration of another band (R319) -/

/-- A receive window of a job at 433.92 MHz, in band B2, due now. -/
def windowB2 : Entry := { entryOf [] with kind := 4, owner := .job 5, block := leBytes 4 433920000 }

/-- In Run with bands B1 and B2 fitted on TRX0 and due for calibration: UHF_CAL_START has begun that of B1, and then the window's
preparation has begun, whose own band is still due. -/
def ownBandDue : State :=
  entryPreparation 0 (ttPut 0 (some windowB2) (calStart 0 0 { State.reset with
    pwr.st := .run, boot.ready := true, tt.exec := true, set.radio := [3],
    uhf.trx := vset State.reset.uhf.trx 0 { Trx.reset with due := 3 } }))

theorem ownBandDue_calibrates_B1 : (trxGet ownBandDue 0).cal = some (0, tUs 400) := by decide +kernel

/-- When B1 is done the preparation goes on to the calibration of its own band. -/
theorem calComplete_ownBandDue_cal : (trxGet (calComplete 0 0 ownBandDue) 0).cal = some (1, tUs 400) := by decide +kernel

theorem trxGet_settle (b a : State) (n : Nat) : trxGet (settle b a) n = trxGet a n := rfl

/-- Refutes O16: UHF_CAL_COMPLETE is said to leave the transceiver with no calibration, but an action that prepares on it, in another
band that is due, begins its own at once (R319); no premise of the clause excludes it. -/
theorem not_transceiverUpkeep : ¬ Obligations.TransceiverUpkeep := by
  unfold Obligations.TransceiverUpkeep
  intro h
  obtain ⟨-, -, -, -, -, -, hcomplete, -⟩ := h
  obtain ⟨t, ht, hnone, -⟩ := hcomplete ownBandDue 0 0 0 (tUs 400) ownBandDue_calibrates_B1 (by decide)
  have ht : t = settle ownBandDue (calComplete 0 0 ownBandDue) := done_next ht
  have hnone : (trxGet t 0).cal = none := hnone
  rw [ht, trxGet_settle, calComplete_ownBandDue_cal] at hnone
  cases hnone

end Sys2Proof.Machine
end

section
/-! PROOF. The statements of 12_localisation_and_ranging.md: what SOLVER_JOB leaves of its operation, and what QUEUED_TRIGGER_START,
WAKE_FRAME_REPEAT and FUSION leave of the sequence, its outcome and the permit. -/

namespace Sys2Proof.Machine

/-! ### Reads of SRC and of the solver's registers -/

@[simp] theorem winRead_length (s : State) (off n : Nat) : (winRead s off n).length = n := by simp [winRead, memGetBytes]

/-- The end of an operation depends on the operations alone. -/
theorem opEnd_job_congr {a b : State} (tag : Nat) (st : Status) (late : Bool) (out : Bytes) (h : a.job = b.job) :
    (opEnd tag st late out a).job = (opEnd tag st late out b).job := by
  unfold opEnd opMod
  rw [h]

/-- The solver's events leave the last fix. -/
theorem evLoc_foldl_fix : ∀ (l : List Nat) (s : State),
    (l.foldl (fun s i => evLoc i s) s).loc.fixXy = s.loc.fixXy ∧ (l.foldl (fun s i => evLoc i s) s).loc.fixZ = s.loc.fixZ
  | [], _ => ⟨rfl, rfl⟩
  | n :: l, s => evLoc_foldl_fix l (evLoc n s)

/-- The solver's events leave the operations, and so does the fix of CPG0 (R375). -/
theorem locFix_job (o : RangeOut) (s : State) : (locFix o s).job = s.job := by
  unfold locFix
  dsimp only
  split <;> exact evLoc_foldl_job o.evts s

/-! ### The two answers of SOLVER_JOB (R354, R356, R358) -/

/-- The bytes at the operation's SRC. -/
def solverSrc (s : State) (o : Op) : Bytes := winRead s (dsSrc o.desc) (dsSrcLen o.desc)

/-- Length of the scan result that follows the scan block at SRC. -/
def scanResultLen (src : Bytes) : Nat := 4 + 8 * u8 (src.drop (scanLen src)) 0

/-- The solver's answer for the scan block, the scan result and the report body at SRC. -/
def solverOut (s : State) (src : Bytes) : RangeOut :=
  solve s (src.take (scanLen src)) (sl src (scanLen src) (scanResultLen src)) (src.drop (scanLen src + scanResultLen src))

/-- The events of an answer, and the fix when CPG0 asked (R375). -/
def solverNoted (page : Nat) (r : RangeOut) (s : State) : State :=
  if page = 0 then locFix r s else r.evts.foldl (fun s i => evLoc i s) s

theorem solverNoted_job (page : Nat) (r : RangeOut) (s : State) : (solverNoted page r s).job = s.job := by
  unfold solverNoted
  split
  · exact locFix_job r s
  · exact evLoc_foldl_job r.evts s

theorem solverNoted_fix {page : Nat} (r : RangeOut) (s : State) (h : page ≠ 0) :
    (solverNoted page r s).loc.fixXy = s.loc.fixXy ∧ (solverNoted page r s).loc.fixZ = s.loc.fixZ := by
  unfold solverNoted
  rw [if_neg h]
  exact evLoc_foldl_fix r.evts s

section Served

variable {s : State} {tag : Nat} {o : Op} (hlive : opLive s tag 9 = some o) (hon : solverOn s = true)
  (hnext : engineNext (fun x => dsKind x.desc = 9) s o = true)

include hlive hon hnext

/-- SRC that holds a sound scan block and its result is solved. -/
theorem solverJob_solves (hfit : scanLen (solverSrc s o) + scanResultLen (solverSrc s o) ≤ dsSrcLen o.desc)
    (hlen : 8 ≤ dsSrcLen o.desc) (hscan : scanOk s.set ((solverSrc s o).take (scanLen (solverSrc s o))) = true) :
    solverJob tag s = opEnd tag (solverOut s (solverSrc s o)).st false (solverOut s (solverSrc s o)).bytes
      (solverNoted o.page (solverOut s (solverSrc s o)) s) := by
  have hhead : scanLen (solverSrc s o) + 4 ≤ dsSrcLen o.desc := by unfold scanResultLen at hfit; omega
  have hsrc : (solverSrc s o).length = dsSrcLen o.desc := winRead_length ..
  simp only [solverJob, hlive]
  rw [if_neg (by rw [hon, hnext]; decide)]
  refine if_neg ?_
  change ¬((decide ((solverSrc s o).length < 8) || decide ((solverSrc s o).length < scanLen (solverSrc s o) + 4)
    || decide ((solverSrc s o).length < scanLen (solverSrc s o) + scanResultLen (solverSrc s o))
    || !scanOk s.set ((solverSrc s o).take (scanLen (solverSrc s o)))) = true)
  simp only [hsrc, hscan, Bool.not_true, Bool.or_false, Bool.or_eq_true, decide_eq_true_eq]
  omega

/-- SRC of fewer than 8 bytes, or with a scan block that fails its checks, is refused. -/
theorem solverJob_refused
    (hbad : dsSrcLen o.desc < 8 ∨ scanOk s.set ((solverSrc s o).take (scanLen (solverSrc s o))) = false) :
    solverJob tag s = opEnd tag .badDesc false [] s := by
  have hsrc : (solverSrc s o).length = dsSrcLen o.desc := winRead_length ..
  simp only [solverJob, hlive]
  rw [if_neg (by rw [hon, hnext]; decide)]
  refine if_pos ?_
  change (decide ((solverSrc s o).length < 8) || _ || _
    || !scanOk s.set ((solverSrc s o).take (scanLen (solverSrc s o)))) = true
  rcases hbad with hshort | hscan
  · simp [hsrc, hshort]
  · simp [hscan]

end Served

/-- While its domain is off the solver serves nothing (R22, R75, R92). -/
theorem solverJob_off {s : State} (tag : Nat) (hoff : solverOn s = false) : solverJob tag s = s := by
  unfold solverJob
  split
  · rfl
  · exact if_pos (by simp [hoff])

/-- Settles O23: the operation served next is solved or refused by what its SRC holds, and waits while the domain is off. The
obligation's own name is that of the model's function. -/
theorem solverJob_obligation : Obligations.SolverJob := by
  unfold Obligations.SolverJob
  refine ⟨?solves, ?refused, ?off⟩
  case solves =>
    intro s tag o hlive hon hnext hfit hlen hscan
    have hfit : scanLen (solverSrc s o) + scanResultLen (solverSrc s o) ≤ dsSrcLen o.desc := by
      rw [scanResultLen, ← Nat.add_assoc]
      exact hfit
    refine ⟨_, congrArg (done s) (solverJob_solves hlive hon hnext hfit hlen hscan), ?_, fun hpage => ?_⟩
    · exact opEnd_job_congr _ _ _ _ (solverNoted_job ..)
    · exact solverNoted_fix _ s hpage
  case refused =>
    intro s tag o hlive hon hnext hbad
    exact ⟨_, congrArg (done s) (solverJob_refused hlive hon hnext hbad), rfl, rfl⟩
  case off => exact fun s tag hoff => congrArg (done s) (solverJob_off tag.val hoff)

/-! ### What the permit rests on (R34, R35) -/

/-- The permit block, the deny levels and the instant of a grant are as they were. -/
structure PermitKept (a s : State) : Prop where
  permit : a.permit = s.permit
  tamper : a.tmp.latch = s.tmp.latch
  power : a.pwr.st = s.pwr.st
  role : a.flt.role = s.flt.role
  elapsed : a.elapsed = s.elapsed

theorem PermitKept.trans {a b s : State} (hab : PermitKept a b) (hbs : PermitKept b s) : PermitKept a s :=
  ⟨hab.permit.trans hbs.permit, hab.tamper.trans hbs.tamper, hab.power.trans hbs.power, hab.role.trans hbs.role,
    hab.elapsed.trans hbs.elapsed⟩

theorem PermitKept.hasRole {a s : State} (h : PermitKept a s) (r : Nat) : hasRole a r = hasRole s r := by
  unfold Machine.hasRole
  rw [h.role]

theorem PermitKept.denyLevel {a s : State} (h : PermitKept a s) : denyLevel a = denyLevel s := by
  unfold Machine.denyLevel
  rw [h.tamper, h.permit, h.power, h.hasRole]

theorem PermitKept.grantBarred {a s : State} (h : PermitKept a s) : grantBarred a = grantBarred s := by
  unfold Machine.grantBarred cycle
  rw [h.denyLevel, h.permit, h.elapsed]

/-- A command that grants nothing leaves the latch as it was, and in deny under a deny level (R34). -/
theorem PermitKept.settle_latch {a s : State} (b : State) (h : PermitKept a s) :
    (settle b a).permit.latch = (s.permit.latch && !Machine.denyLevel s) := by
  rw [Machine.settle_latch, h.permit, h.denyLevel]

/-! ### Outcomes and the end of a sequence (R393, R409) -/

/-- An outcome that is no success sets event bit 2 (R409). -/
theorem outcome_acc (kind cred : Nat) (st : Status) (cmd : Nat) (inside : Bool) (s : State) :
    (outcome kind cred st cmd inside s).acc = { s.acc with
      lastKind := kind, lastCred := cred, lastStatus := st, lastCmd := cmd, keyInside := inside,
      evt := if st.good then s.acc.evt else s.acc.evt ||| onBit 10 2 } := by
  unfold outcome
  dsimp only
  split <;> rfl

theorem outcome_permitKept (kind cred : Nat) (st : Status) (cmd : Nat) (inside : Bool) (s : State) :
    PermitKept (outcome kind cred st cmd inside s) s := by
  unfold outcome
  dsimp only
  split <;> exact ⟨rfl, rfl, rfl, rfl, rfl⟩

theorem outcome_evt {kind cred cmd : Nat} {st : Status} {inside : Bool} {s : State} (h : st.good = false) :
    (outcome kind cred st cmd inside s).acc.evt.getLsbD 2 = true := by
  simp [outcome_acc, h, onBit]

theorem ovApply_keeps (k : Nat) (d : Bytes) (s : State) : ovApply k d s = { s with ov := (ovApply k d s).ov } := by
  unfold ovApply
  (repeat' split) <;> rfl

/-- The overrides that waited change the overrides alone (R43, R582). -/
theorem ovWaiting_foldl_keeps : ∀ (l : List (Nat × Bytes)) (s : State),
    l.foldl (fun s w => if w.1 = 0 then { s with ov := Overrides.none } else ovApply w.1 w.2 s) s
      = { s with ov := (l.foldl (fun s w => if w.1 = 0 then { s with ov := Overrides.none } else ovApply w.1 w.2 s) s).ov }
  | [], _ => rfl
  | w :: l, s => by
    rw [List.foldl_cons, ovWaiting_foldl_keeps l]
    split
    · rfl
    · rw [ovApply_keeps]

theorem ovFlush_keeps (s : State) : ovFlush s = { s with ov := (ovFlush s).ov } := by
  unfold ovFlush
  split
  · rfl
  · rw [ovWaiting_foldl_keeps]

theorem seqClose_keeps (s : State) :
    seqClose s = { s with acc := { s.acc with seqn := none }, ks := (seqClose s).ks, ov := (seqClose s).ov } := by
  unfold seqClose
  rw [ovFlush_keeps, seqKeysVoid_keeps]

@[simp] theorem seqClose_acc (s : State) : (seqClose s).acc = { s.acc with seqn := none } := by rw [seqClose_keeps]

theorem seqClose_permitKept (s : State) : PermitKept (seqClose s) s := by
  rw [seqClose_keeps]
  exact ⟨rfl, rfl, rfl, rfl, rfl⟩

/-- A sequence that neither learns nor runs backup, and whose refusal leads to none (R390), closes with its outcome. -/
theorem seqEnd_closes {s : State} {q : Seqn} {st : Status} {tied inside : Bool} (hseq : s.acc.seqn = some q) (h3 : q.kind ≠ 3)
    (h6 : q.kind ≠ 6) (hback : q.kind ≠ 2 ∨ st.good = true ∨ ∀ u, backupAllowed u st tied = false) :
    seqEnd st tied inside s = seqClose (outcome q.kind (q.cred.getD 255) st 0 inside s) := by
  unfold seqEnd
  simp only [hseq]
  rw [if_neg h6, if_neg h3]
  refine if_neg ?_
  rcases hback with h2 | hgood | hnot
  · simp [h2]
  · simp [hgood]
  · simp [hnot]

/-- A sequence of learning ends its routine too (R405). -/
theorem seqEnd_learning {s : State} {q : Seqn} {st : Status} {tied inside : Bool} (hseq : s.acc.seqn = some q)
    (h6 : q.kind = 6) : seqEnd st tied inside s = seqClose (rtEnd st []
      (outcome 6 (learnIndex s) st 0 false { s with acc.round := none, acc.seqn := none })) := by
  unfold seqEnd
  simp only [hseq]
  rw [if_pos h6]
  rfl

/-- NOT_READY never leads to backup (R390), so every sequence but backup closes with it. -/
theorem seqEnd_notReady {s : State} {q : Seqn} (hseq : s.acc.seqn = some q) (h3 : q.kind ≠ 3) :
    (seqEnd .notReady false false s).acc.seqn = none ∧ (seqEnd .notReady false false s).acc.lastStatus = .notReady
      ∧ (seqEnd .notReady false false s).acc.evt.getLsbD 2 = true ∧ PermitKept (seqEnd .notReady false false s) s := by
  have hbad : Status.good .notReady = false := rfl
  by_cases h6 : q.kind = 6
  · rw [seqEnd_learning hseq h6, seqClose_acc, rtEnd_keeps]
    refine ⟨rfl, by simp [outcome_acc], outcome_evt hbad, (seqClose_permitKept _).trans ?_⟩
    obtain ⟨hpermit, htamper, hpower, hrole, helapsed⟩ :=
      outcome_permitKept 6 (learnIndex s) .notReady 0 false { s with acc.round := none, acc.seqn := none }
    exact ⟨hpermit, htamper, hpower, hrole, helapsed⟩
  · rw [seqEnd_closes hseq h3 h6 (.inr (.inr fun u => by simp [backupAllowed])), seqClose_acc]
    exact ⟨rfl, by simp [outcome_acc], outcome_evt hbad, (seqClose_permitKept _).trans (outcome_permitKept ..)⟩

/-! ### The wake frame of a sequence (R196, R203, R385) -/

theorem s48_after48 (t : BitVec 48) {n : Nat} (h : n < 2 ^ 47) : s48 (after48 t n) t = n := by
  have hn : after48 t n - t = BitVec.ofNat 48 n := by unfold after48; bv_omega
  have hmod : (BitVec.ofNat 48 n).toNat = n := by
    rw [BitVec.toNat_ofNat]
    omega
  rw [s48, hn, BitVec.toInt_eq_toNat_of_lt (by omega), hmod]

/-- An LF action is prepared at most 3.5 ms ahead (R203). -/
theorem lead_le_of_isLf {e : Entry} (s : State) (h : e.isLf = true) : lead s e ≤ 3500000 := by
  unfold lead
  simp only [h, if_true]
  split
  · exact Nat.le_refl _
  · split <;> omega

/-- The free indices depend on the timetable alone. -/
theorem freeIndex_congr {a s : State} (page : Nat) (h : a.tt = s.tt) : freeIndex a page = freeIndex s page := by
  unfold freeIndex ttFree ttGet
  rw [h]

theorem freeIndex_isSome_of_tt {a s : State} (h : a.tt = s.tt) (hindex : (freeIndex s 0).isSome = true) :
    (freeIndex a 0).isSome = true := by
  rwa [freeIndex_congr 0 h]

/-- The run-time entry of a wake frame with NOW (R199, R385). -/
def wakeEntry (s : State) (ref : Nat) (frame : Bytes) : Entry :=
  let e := runtimeEntry 0 1 0 ref .access frame 0
  { e with due := nowDue s e, grid := nowDue s e }

theorem wakeEntry_in_time (s : State) (ref : Nat) (frame : Bytes) : ¬s48 (wakeEntry s ref frame).due (now48 s) < 10000 := by
  have hlead := lead_le_of_isLf (e := runtimeEntry 0 1 0 ref .access frame 0) s rfl
  change ¬s48 (after48 (now48 s) (10000 + lead s (runtimeEntry 0 1 0 ref .access frame 0))) (now48 s) < 10000
  rw [s48_after48 _ (by omega)]
  omega

/-- Never late, the wake frame stands in the timetable when an index is free (R198). -/
theorem accEntry_wake {s : State} {i : Nat} (exch code : Nat) (frame : Bytes) (hindex : freeIndex s 0 = some i) :
    accEntry 1 0 exch code frame none s = (none, (wakeEntry s (64 * exch + code) frame).due,
      ttPut i (some (wakeEntry s (64 * exch + code) frame)) s) := by
  unfold accEntry ttInsert
  simp only [Option.getD_none, hindex, Option.isNone_some]
  exact if_neg (wakeEntry_in_time s (64 * exch + code) frame)

/-- A change of the open sequence changes no other part of the access engine. -/
theorem seqMod_acc {s : State} {q : Seqn} (f : Seqn → Seqn) (hseq : s.acc.seqn = some q) :
    (seqMod f s).acc = { s.acc with seqn := some (f q) } := by
  unfold seqMod
  rw [hseq]
  rfl

/-- The sequence `q` waits for its wake frame: its draw and its exchange number alone may differ. -/
structure WakeSent (a s : State) (q : Seqn) : Prop where
  seqn : ∃ exch chal drawn, a.acc.seqn = some { q with exch := exch, stage := .wake, chal := chal, drawn := drawn }
  queue : a.acc.queue = s.acc.queue
  permit : PermitKept a s

/-- Only the queue of the state before and what its permit rests on matter. -/
theorem WakeSent.of_kept {a b s : State} {q : Seqn} (h : WakeSent a b q) (hqueue : b.acc.queue = s.acc.queue)
    (hkept : PermitKept b s) : WakeSent a s q :=
  ⟨h.seqn, h.queue.trans hqueue, h.permit.trans hkept⟩

/-- The open sequence takes its next exchange number and stands at the wake stage. -/
def wakeStage (s : State) : State := seqMod (fun q => { q with exch := (exchNext s).acc.exch, stage := .wake }) (exchNext s)

theorem wakeStage_sent {s : State} {q : Seqn} (hseq : s.acc.seqn = some q) : WakeSent (wakeStage s) s q := by
  have hacc := seqMod_acc (s := exchNext s) (fun q => { q with exch := (exchNext s).acc.exch, stage := .wake }) hseq
  unfold wakeStage
  refine ⟨⟨(exchNext s).acc.exch, q.chal, q.drawn, ?_⟩, ?_, rfl, rfl, rfl, rfl, rfl⟩
  · rw [hacc]
  · rw [hacc]
    rfl

/-- The wake frame goes out as its entry does; the entry is taken as a variable, for the kernel would compute its instants. -/
theorem wakeSend_of_accEntry {s : State} {q : Seqn} {x : Option Status × BitVec 48 × State} (frame : Bytes)
    (hseq : s.acc.seqn = some q) (hentry : accEntry 1 0 (exchNext s).acc.exch 1 frame none (wakeStage s) = x)
    (haccepted : x.1 = none) : wakeSend frame s = x.2.2 := by
  unfold wakeSend
  rw [hseq]
  extract_lets u y
  have hy : y = x := hentry
  clear_value y
  rw [hy, haccepted]

theorem wakeSend_sent {s : State} {q : Seqn} (frame : Bytes) (hseq : s.acc.seqn = some q) (hindex : (freeIndex s 0).isSome = true) :
    WakeSent (wakeSend frame s) s q := by
  obtain ⟨i, hi⟩ := Option.isSome_iff_exists.1 hindex
  have hentry := accEntry_wake (s := wakeStage s) (exchNext s).acc.exch 1 frame ((freeIndex_congr 0 rfl).trans hi)
  rw [wakeSend_of_accEntry frame hseq hentry rfl]
  obtain ⟨hseqn, hqueue, hpermit⟩ := wakeStage_sent hseq
  exact ⟨hseqn, hqueue, hpermit.permit, hpermit.tamper, hpermit.power, hpermit.role, hpermit.elapsed⟩

/-- The draw of C for the next key changes its two fields of the sequence alone (R381). -/
theorem chalDraw_acc {s : State} {q : Seqn} (hseq : s.acc.seqn = some q) :
    ∃ chal drawn, (chalDraw s).acc = { s.acc with seqn := some { q with chal := chal, drawn := drawn } } := by
  unfold chalDraw
  simp only [hseq]
  split
  · refine ⟨q.chal, q.drawn, ?_⟩
    rw [← hseq]
  · exact ⟨(drawPrivate s).1, true, seqMod_acc (s := (drawPrivate s).2) _ hseq⟩

theorem wakeSend_chalDraw_sent {s : State} {q : Seqn} (frame : Bytes) (hseq : s.acc.seqn = some q)
    (hindex : (freeIndex s 0).isSome = true) : WakeSent (wakeSend frame (chalDraw s)) s q := by
  obtain ⟨chal, drawn, hacc⟩ := chalDraw_acc hseq
  have hindex' : (freeIndex (chalDraw s) 0).isSome = true := freeIndex_isSome_of_tt (s := s) (by rw [chalDraw_keeps]) hindex
  have hkept : PermitKept (chalDraw s) s := by
    rw [chalDraw_keeps]
    exact ⟨rfl, rfl, rfl, rfl, rfl⟩
  obtain ⟨hseqn, hqueue, hpermit⟩ := wakeSend_sent frame (congrArg Acc.seqn hacc) hindex'
  exact ⟨hseqn, by rw [hqueue, hacc], hpermit.trans hkept⟩

/-! ### QUEUED_TRIGGER_START (R377, R385, R386) -/

/-- A trigger that waited is run by its kind, with the queue moved on. -/
theorem queuedTrigger_passive {s : State} {kind pin : Nat} {r : List (Nat × Nat)} (hqueue : s.acc.queue = (kind, pin) :: r)
    (hfree : accBusy s = false) (hkind : kind = 1 ∨ kind = 2) :
    queuedTrigger s = passiveOpen kind pin { s with acc.queue := r } := by
  have hpassive : (decide (kind = 1) || decide (kind = 2)) = true := by simpa using hkind
  unfold queuedTrigger triggerRun
  simp only [hqueue, hfree]
  exact if_pos hpassive

/-- The usable records depend on the settings in force, overrides included. -/
theorem recUsable_congr {a s : State} (r : Bytes) (hset : a.set = s.set) (hov : a.ov = s.ov) : recUsable a r = recUsable s r := by
  have hfitted : fitted a = fitted s := by funext trx band; unfold fitted; rw [hset]
  have hwindow : winPlan a = winPlan s := by funext i; unfold winPlan; rw [hset, hov]
  have htelegram : telBlock a = telBlock s := by funext i; unfold telBlock; rw [hset, hov]
  unfold recUsable
  rw [hset, hfitted, hwindow, htelegram]

/-- With its checks passed and an index free, a passive trigger opens its sequence at the wake stage. -/
theorem passiveOpen_sent {s : State} (kind : Nat) {pin : Nat} (hcheck : preCheck s = none)
    (hrec : recUsable s (pfRec s.acc.profile pin) = true) (hindex : (freeIndex s 0).isSome = true) :
    WakeSent (passiveOpen kind pin s) s (Seqn.fresh kind pin s.acc.exch) := by
  have hindex' : (freeIndex { s with acc.seqn := some (Seqn.fresh kind pin s.acc.exch) } 0).isSome = true :=
    freeIndex_isSome_of_tt (s := s) rfl hindex
  have hsent := wakeSend_chalDraw_sent (klFrame s.set.keylink (prFrame (pfRec s.acc.profile pin))) rfl hindex'
  unfold passiveOpen
  simp only [hcheck, hrec, Bool.not_true, Bool.false_eq_true, if_false]
  exact hsent.of_kept rfl ⟨rfl, rfl, rfl, rfl, rfl⟩

theorem queuedTrigger_sent {s : State} {kind pin : Nat} {r : List (Nat × Nat)} (hqueue : s.acc.queue = (kind, pin) :: r)
    (hfree : accBusy s = false) (hkind : kind = 1 ∨ kind = 2) (hcheck : preCheck s = none)
    (hrec : recUsable s (pfRec s.acc.profile pin) = true) (hindex : (freeIndex s 0).isSome = true) :
    WakeSent (queuedTrigger s) { s with acc.queue := r } (Seqn.fresh kind pin s.acc.exch) := by
  have hindex' : (freeIndex { s with acc.queue := r } 0).isSome = true := freeIndex_isSome_of_tt (s := s) rfl hindex
  have hrec' : recUsable { s with acc.queue := r } (pfRec s.acc.profile pin) = true :=
    (recUsable_congr (a := { s with acc.queue := r }) (s := s) _ rfl rfl).trans hrec
  rw [queuedTrigger_passive hqueue hfree hkind]
  exact passiveOpen_sent kind hcheck hrec' hindex'

/-- A trigger whose first check fails leaves its outcome alone, under the kind it would have had (R393). -/
theorem queuedTrigger_refused {s : State} {kind pin : Nat} {r : List (Nat × Nat)} {st : Status}
    (hqueue : s.acc.queue = (kind, pin) :: r) (hfree : accBusy s = false) (hkind : kind = 1 ∨ kind = 2 ∨ kind = 3)
    (hcheck : preCheck s = some st) : queuedTrigger s = outcome kind 255 st 0 false { s with acc.queue := r } := by
  have hcheck' : preCheck { s with acc.queue := r } = some st := hcheck
  rcases hkind with h1 | h2 | h3
  · rw [queuedTrigger_passive hqueue hfree (.inl h1)]
    simp only [passiveOpen, hcheck']
  · rw [queuedTrigger_passive hqueue hfree (.inr h2)]
    simp only [passiveOpen, hcheck']
  · subst h3
    unfold queuedTrigger triggerRun backupDirect
    simp only [hqueue, hfree, hcheck']
    rfl

/-- The first rows of R393 are refusals. -/
theorem preCheck_not_good {s : State} {st : Status} (h : preCheck s = some st) : st.good = false := by
  unfold preCheck at h
  (repeat' split at h) <;> cases h <;> rfl

theorem seqn_none_of_free {s : State} (h : accBusy s = false) : s.acc.seqn = none := by
  rw [accBusy, Bool.or_eq_false_iff] at h
  simpa using h.1

/-! ### WAKE_FRAME_REPEAT (R389) -/

theorem wakeFrameRepeat_sent {s : State} {q : Seqn} (hseq : s.acc.seqn = some q) (hstage : q.stage = .repeatGap)
    (hgap : q.msgAt = 0 ∨ q.msgAt + tMs 12 ≤ s.elapsed) (hids : q.ids = []) (hindex : (freeIndex s 0).isSome = true) :
    WakeSent (wakeFrameRepeat s) s { q with repeated := true } := by
  have hgo : (q.stage != .repeatGap || !(decide (q.msgAt = 0) || reached s (q.msgAt + tMs 12))) = false := by
    rcases hgap with h0 | h12
    · simp [hstage, h0]
    · simp [hstage, reached, h12]
  have hsent : wakeFrameRepeat s = wakeSend (klFrame s.set.keylink (prFrame (seqRec s q)))
      (chalDraw (seqMod (fun q => { q with repeated := true }) s)) := by
    unfold wakeFrameRepeat
    simp only [hseq, hgo, hids]
    rfl
  have hseq' : (seqMod (fun q => { q with repeated := true }) s).acc.seqn = some { q with repeated := true } :=
    congrArg (Option.map _) hseq
  rw [hsent]
  exact (wakeSend_chalDraw_sent _ hseq' (freeIndex_isSome_of_tt (s := s) rfl hindex)).of_kept rfl ⟨rfl, rfl, rfl, rfl, rfl⟩

/-! ### The grant (R394) -/

/-- The counters that a grant writes change the records, their events and the bookkeeping of their jobs alone. -/
def CountersWritten (u s : State) : Prop :=
  u = { s with nvm := u.nvm, diag := u.diag, evLog := u.evLog, job := u.job, flt := { s.flt with mem := u.flt.mem } }

theorem CountersWritten.trans {u v s : State} (huv : CountersWritten u v) (hvs : CountersWritten v s) : CountersWritten u s := by
  unfold CountersWritten at *
  rw [huv, hvs]

theorem CountersWritten.acc {u s : State} (h : CountersWritten u s) : u.acc = s.acc := by rw [h]

theorem CountersWritten.permitKept {u s : State} (h : CountersWritten u s) : PermitKept u s := by
  rw [h]
  exact ⟨rfl, rfl, rfl, rfl, rfl⟩

theorem ckptItem_countersWritten (r : Nat) (x : CkptItem) (s : State) : CountersWritten (ckptItem r x s) s := rfl

theorem accJob_countersWritten (s : State) : CountersWritten (accJob s) s := by
  unfold accJob
  split
  · exact (ckptItem_countersWritten ..).trans ((ckptItem_countersWritten ..).trans ((ckptItem_countersWritten ..).trans rfl))
  · rfl

theorem ctrRead_countersWritten (n : Nat) (s : State) : CountersWritten (ctrRead n s).2 s := by
  unfold ctrRead
  dsimp only
  split
  · rfl
  · split
    · rw [dtc_keeps]
      (repeat' split) <;> rfl
    · rfl

theorem ctrIncrement_countersWritten (n : Nat) (s : State) : CountersWritten (ctrIncrement n s).2 s := by
  have hread := ctrRead_countersWritten n s
  unfold ctrIncrement
  dsimp only
  split
  · rfl
  · (repeat' split) <;> exact CountersWritten.trans (v := (ctrRead n s).2) rfl hread

theorem credCount_countersWritten (c : Cred) (s : State) : CountersWritten (credCount c s).2 s := by
  have hcount := (ctrIncrement_countersWritten c.counter (accJob s)).trans (accJob_countersWritten s)
  unfold credCount
  split
  · rfl
  · dsimp only
    split <;> exact hcount

/-- A credential without a counter has none to increment (R394). -/
theorem credCount_uncounted {c : Cred} (s : State) (h : 127 < c.counter) : credCount c s = (.ok, s) := by
  unfold credCount
  exact if_pos h

/-- The number of the session that a grant opens: none in an open session (R394). -/
def sessionNumber (s : State) : Status × Option Nat × State :=
  if decisionsOff s then (.notReady, none, s)
  else if s.acc.sessOpen then (.ok, none, s)
  else
    let r := ctrIncrement (pfSessionMc s.acc.profile) (accJob s)
    match r.1 with
    | .ok v => (.ok, some v, r.2)
    | .lowEnergy => (.lowEnergy, none, r.2)
    | _ => (.locked, none, r.2)

theorem sessionNumber_countersWritten (s : State) : CountersWritten (sessionNumber s).2.2 s := by
  have hcount := (ctrIncrement_countersWritten (pfSessionMc s.acc.profile) (accJob s)).trans (accJob_countersWritten s)
  unfold sessionNumber
  split
  · rfl
  · split
    · rfl
    · dsimp only
      split <;> exact hcount

theorem sessionNumber_open {s : State} (hopen : s.acc.sessOpen = true) : (sessionNumber s).2.1 = none := by
  unfold sessionNumber
  rw [hopen]
  split <;> rfl

/-- A session opened takes its number and starts its tokens anew. -/
def sessionSet (number : Option Nat) (s : State) : State :=
  match number with
  | some v => { s with acc.session := v, acc.seq := 0 }
  | none => s

/-- The decision itself: the session stands, its hold time runs and the latch moves as far as no cause bars it. -/
def grantDecided (cred : Nat) (backup : Bool) (s : State) : State :=
  latchGrant (holdStart (decide_ true { s with
    acc.sessOpen := true, acc.grantCred := cred, acc.grantBackup := backup, acc.regrant := false, acc.denyLeft := 0 }))

/-- The instant from which a re-grant counts, before the session's first token (R82). -/
def grantIssued (s : State) : State := if s.acc.seq = 0 then { s with acc.issuedAt := s.elapsed } else s

/-- Made below V_PD, the grant waits for the re-grant (R81, R82). -/
def grantEligible (s : State) : State := if s.permit.pdBelow then { s with acc.eligible := true } else s

/-- The session's slots start unless they already run (R397). -/
def grantSlots (running : Bool) (s : State) : State := if running then s else slotStart s

/-- A grant whose counters are written. -/
def grantMade (cred : Nat) (backup : Bool) (s : State) : State :=
  evAcc 0 (grantSlots (s.acc.sessOpen && s.acc.slot.isSome) (grantEligible (grantIssued (grantDecided cred backup s))))

/-- A grant is its two counters and, when both are written, its decision. -/
theorem grant_eq (cred : Nat) (backup : Bool) (s : State) : grant cred backup s =
    if (sessionNumber s).1 != .ok then ((sessionNumber s).1, (sessionNumber s).2.2)
    else
      let c := credCount (credGet (sessionNumber s).2.2 cred) (sessionNumber s).2.2
      if c.1 != .ok then c else (.ok, grantMade cred backup (sessionSet (sessionNumber s).2.1 c.2)) := by
  rfl

/-- What a grant that ends OK has done: its counters are written and its decision is made. -/
theorem grant_ok {cred : Nat} {backup : Bool} {s : State} (h : (grant cred backup s).1 = .ok) :
    ∃ u, CountersWritten u s ∧ (grant cred backup s).2 = grantMade cred backup (sessionSet (sessionNumber s).2.1 u) := by
  rw [grant_eq] at h ⊢
  dsimp only at h ⊢
  split at h
  · next hbad => exact absurd h (by simpa using hbad)
  · next hnumber =>
    rw [if_neg hnumber]
    split at h
    · next hbad => exact absurd h (by simpa using hbad)
    · next hcount =>
      rw [if_neg hcount]
      exact ⟨_, (credCount_countersWritten ..).trans (sessionNumber_countersWritten s), rfl⟩

/-- In an open session a grant by a credential without a counter has nothing to write (R394). -/
theorem grant_open_ok {cred : Nat} (backup : Bool) {s : State} (hthermal : s.sup.thermOff = false) (hopen : s.acc.sessOpen = true)
    (hcounter : 127 < (credGet s cred).counter) : (grant cred backup s).1 = .ok := by
  have hnumber : sessionNumber s = (.ok, none, s) := by
    unfold sessionNumber decisionsOff
    rw [hthermal, hopen]
    rfl
  rw [grant_eq, hnumber]
  dsimp only
  rw [credCount_uncounted s hcounter]
  rfl

/-- Issue, eligibility and slots follow the decision and change these three fields alone. -/
theorem grantSlots_keeps (running : Bool) (s : State) : ∃ issuedAt eligible slot,
    grantSlots running (grantEligible (grantIssued s))
      = { s with acc.issuedAt := issuedAt, acc.eligible := eligible, acc.slot := slot } := by
  have hissued : ∃ issuedAt, grantIssued s = { s with acc.issuedAt := issuedAt } := by
    unfold grantIssued
    split <;> exact ⟨_, rfl⟩
  have heligible (u : State) : ∃ eligible, grantEligible u = { u with acc.eligible := eligible } := by
    unfold grantEligible
    split <;> exact ⟨_, rfl⟩
  have hslots (u : State) : ∃ slot, grantSlots running u = { u with acc.slot := slot } := by
    unfold grantSlots slotStart
    split <;> exact ⟨_, rfl⟩
  obtain ⟨issuedAt, hissued⟩ := hissued
  obtain ⟨eligible, heligible⟩ := heligible (grantIssued s)
  obtain ⟨slot, hslots⟩ := hslots (grantEligible (grantIssued s))
  refine ⟨issuedAt, eligible, slot, ?_⟩
  rw [hslots, heligible, hissued]

theorem grantDecided_acc (cred : Nat) (backup : Bool) (s : State) : (grantDecided cred backup s).acc = { s.acc with
    sessOpen := true, grantCred := cred, grantBackup := backup, regrant := false, denyLeft := 0,
    holdUntil := some (s.elapsed + tS (pfHold s.acc.profile)), decisions := s.acc.decisions + 1 } := by
  unfold grantDecided
  rw [latchGrant_keeps]
  rfl

theorem grantDecided_latch (cred : Nat) (backup : Bool) (s : State) :
    (grantDecided cred backup s).permit.latch = (s.permit.latch || !grantBarred s) :=
  latchGrant_latch _

theorem latchGrant_denyLevel (s : State) : denyLevel (latchGrant s) = denyLevel s := by
  unfold latchGrant
  split <;> rfl

/-- What the decision leaves of the access engine, the session's slots and the tokens' instants apart. -/
theorem grantMade_acc (cred : Nat) (backup : Bool) (s : State) : ∃ issuedAt eligible slot,
    (grantMade cred backup s).acc = { s.acc with
      sessOpen := true, grantCred := cred, grantBackup := backup, regrant := false, denyLeft := 0,
      holdUntil := some (s.elapsed + tS (pfHold s.acc.profile)), decisions := s.acc.decisions + 1,
      evt := s.acc.evt ||| onBit 10 0, issuedAt := issuedAt, eligible := eligible, slot := slot } := by
  obtain ⟨issuedAt, eligible, slot, h⟩ := grantSlots_keeps (s.acc.sessOpen && s.acc.slot.isSome) (grantDecided cred backup s)
  refine ⟨issuedAt, eligible, slot, ?_⟩
  unfold grantMade
  rw [h]
  change { (grantDecided cred backup s).acc with
    issuedAt := issuedAt, eligible := eligible, slot := slot, evt := (grantDecided cred backup s).acc.evt ||| onBit 10 0 } = _
  rw [grantDecided_acc]

/-- The latch moves as a grant moves it, and no deny level changes (R34, R35). -/
theorem grantMade_latch (cred : Nat) (backup : Bool) (s : State) :
    (grantMade cred backup s).permit.latch = (s.permit.latch || !grantBarred s)
      ∧ denyLevel (grantMade cred backup s) = denyLevel s := by
  obtain ⟨issuedAt, eligible, slot, h⟩ := grantSlots_keeps (s.acc.sessOpen && s.acc.slot.isSome) (grantDecided cred backup s)
  unfold grantMade
  rw [h]
  exact ⟨grantDecided_latch cred backup s, latchGrant_denyLevel _⟩

/-- The number changes the session and its sequence alone. -/
theorem sessionSet_keeps (number : Option Nat) (s : State) : ∃ seq,
    sessionSet number s = { s with acc.session := number.getD s.acc.session, acc.seq := seq } := by
  cases number with
  | none => exact ⟨s.acc.seq, rfl⟩
  | some v => exact ⟨0, rfl⟩

/-- A grant leaves the sequence that asked for it to its end. -/
theorem grantMade_seqn (cred : Nat) (backup : Bool) (number : Option Nat) (s : State) :
    (grantMade cred backup (sessionSet number s)).acc.seqn = s.acc.seqn := by
  obtain ⟨issuedAt, eligible, slot, hacc⟩ := grantMade_acc cred backup (sessionSet number s)
  obtain ⟨seq, hset⟩ := sessionSet_keeps number s
  rw [hacc, hset]

/-- At T_OFF no grant is made (R92). -/
theorem grant_decisionsOff {cred : Nat} {backup : Bool} {s : State} (hoff : decisionsOff s = true) :
    (grant cred backup s).1 = .notReady := by
  have hnumber : (sessionNumber s).1 = .notReady := by
    unfold sessionNumber
    rw [if_pos hoff]
  rw [grant_eq, hnumber]
  rfl

/-! ### FUSION (R373, R394) -/

/-- Without its grant, fusion reads nothing of the supply. -/
theorem fuse_seeVhold (mv : Nat) (s : State) (q : Seqn) : fuse (seeVhold mv s) q = fuse s q := rfl

theorem seeVhold_permitKept (mv : Nat) (s : State) : PermitKept (seeVhold mv s) s := ⟨rfl, rfl, rfl, rfl, rfl⟩

/-- A key refused with none left to serve ends the sequence (R389). -/
theorem keyRefused_ends {s : State} {q : Seqn} (st : Status) (inside : Bool) (hseq : s.acc.seqn = some q)
    (hserved : pfMaxKeys s.acc.profile ≤ q.served.length) : keyRefused st inside s = seqEnd st true inside s := by
  unfold keyRefused
  simp only [hseq]
  exact if_neg (by simp [hserved])

section Fusion

variable {s : State} {q : Seqn} (mv : Nat) (hseq : s.acc.seqn = some q) (hstage : q.stage = .fuse)

include hseq hstage

theorem fusion_decisionsOff (h3 : q.kind ≠ 3) (hthermal : s.sup.thermOff = true) :
    fusion mv s = seqEnd .notReady false false (seeVhold mv s) := by
  unfold fusion
  simp only [hseq]
  rw [if_neg (by simp [hstage, h3])]
  exact if_pos hthermal

/-- An entry whose column fails with no key left to serve ends with that status. -/
theorem fusion_entry_refused {st : Status} (hkind : q.kind = 1) (hthermal : s.sup.thermOff = false)
    (hfail : (fuse s q).fail = some st) (hserved : pfMaxKeys s.acc.profile ≤ q.served.length) :
    ∃ u, u.acc = s.acc ∧ PermitKept u s
      ∧ fusion mv s = seqClose (outcome 1 (q.cred.getD 255) st 0 (fuse s q).inside u) := by
  obtain ⟨u, hu, hacc, hkept⟩ : ∃ u, u = (if st == .disagree then evLoc 8 (seeVhold mv s) else seeVhold mv s)
      ∧ u.acc = s.acc ∧ PermitKept u s := by
    refine ⟨_, rfl, ?_⟩
    split <;> exact ⟨rfl, rfl, rfl, rfl, rfl, rfl⟩
  have hends (tied : Bool) : seqEnd st tied (fuse s q).inside u
      = seqClose (outcome 1 (q.cred.getD 255) st 0 (fuse s q).inside u) := by
    rw [seqEnd_closes (by rw [hacc, hseq]) (by simp [hkind]) (by simp [hkind]) (.inl (by simp [hkind])), hkind]
  refine ⟨u, hacc, hkept, ?_⟩
  unfold fusion
  simp only [hseq, fuse_seeVhold, hfail]
  rw [if_neg (by simp [hstage, hkind]), if_neg (by simp [decisionsOff, seeVhold, hthermal]), ← hu,
    keyRefused_ends st _ (by rw [hacc, hseq]) (by rwa [hacc]), hends, hends, ite_self]

/-- Columns that hold leave the VHOLD measurement, which an entry's or start's counters await (R104). -/
theorem fusion_waits (hkind : q.kind = 1 ∨ q.kind = 2) (hfail : (fuse s q).fail = none) (hthermal : s.sup.thermOff = false)
    (hmeasured : s.sup.measured = false) : fusion mv s = seeVhold mv s := by
  unfold fusion
  simp only [hseq, fuse_seeVhold, hfail]
  rw [if_neg (by rcases hkind with h | h <;> simp [hstage, h]), if_neg (by simp [decisionsOff, seeVhold, hthermal])]
  exact if_pos (by rcases hkind with h | h <;> simp [seeVhold, h, hmeasured])

/-- An entry's columns hold: its credential is counted and it ends (R394). -/
theorem fusion_entry (hkind : q.kind = 1) (hfail : (fuse s q).fail = none) (hthermal : s.sup.thermOff = false)
    (hmeasured : s.sup.measured = true) (hcounter : 127 < (credGet s (q.cred.getD 255)).counter) :
    fusion mv s = seqClose (outcome 1 (q.cred.getD 255) .ok 0 false (seeVhold mv s)) := by
  have hcount : credCount (credGet (seeVhold mv s) (q.cred.getD 255)) (seeVhold mv s) = (.ok, seeVhold mv s) :=
    credCount_uncounted _ hcounter
  unfold fusion
  simp only [hseq, fuse_seeVhold, hfail, hcount]
  rw [if_neg (by simp [hstage, hkind]), if_neg (by simp [decisionsOff, seeVhold, hthermal]),
    if_neg (by simp [seeVhold, hmeasured]), if_neg (by simp [hkind]), if_pos hkind,
    seqEnd_closes (s := seeVhold mv s) hseq (by simp [hkind]) (by simp [hkind]) (.inl (by simp [hkind])), hkind]

/-- A start's columns hold: it ends with the status of its grant. -/
theorem fusion_start (hkind : q.kind = 2) (hfail : (fuse s q).fail = none) (hthermal : s.sup.thermOff = false)
    (hmeasured : s.sup.measured = true) : fusion mv s = seqEnd (grant (q.cred.getD 255) false (seeVhold mv s)).1 false false
      (grant (q.cred.getD 255) false (seeVhold mv s)).2 := by
  unfold fusion
  simp only [hseq, fuse_seeVhold, hfail]
  rw [if_neg (by simp [hstage, hkind]), if_neg (by simp [decisionsOff, seeVhold, hthermal]),
    if_neg (by simp [seeVhold, hmeasured]), if_pos hkind]

end Fusion

/-- A start that is granted: the latch moves to permit under no deny level, the session is open with its hold time, and the outcome
is OK. -/
structure StartGranted (a s : State) (cred : Nat) : Prop where
  latch : a.permit.latch = true
  allowed : denyLevel a = false
  sessOpen : a.acc.sessOpen = true
  session : s.acc.sessOpen = true → a.acc.session = s.acc.session
  grantCred : a.acc.grantCred = cred
  grantBackup : a.acc.grantBackup = false
  evt : a.acc.evt.getLsbD 0 = true
  seqn : a.acc.seqn = none
  lastKind : a.acc.lastKind = 2
  lastStatus : a.acc.lastStatus = .ok
  holdUntil : a.acc.holdUntil = some (s.elapsed + tS (pfHold s.acc.profile))
  decisions : a.acc.decisions = s.acc.decisions + 1

theorem denyLevel_of_not_grantBarred {s : State} (h : grantBarred s = false) : denyLevel s = false := by
  rw [grantBarred, Bool.or_assoc, Bool.or_eq_false_iff] at h
  exact h.1

/-- The number of a session is set without a change of what the permit rests on. -/
theorem sessionSet_permitKept (number : Option Nat) (s : State) : PermitKept (sessionSet number s) s := by
  obtain ⟨seq, hset⟩ := sessionSet_keeps number s
  rw [hset]
  exact ⟨rfl, rfl, rfl, rfl, rfl⟩

/-- The end of a start whose grant is made. -/
def startEnd (cred : Nat) (s : State) : State := seqClose (outcome 2 cred .ok 0 false (grantMade cred false s))

theorem startEnd_acc (cred : Nat) (s : State) : ∃ issuedAt eligible slot,
    (startEnd cred s).acc = { s.acc with
      sessOpen := true, grantCred := cred, grantBackup := false, regrant := false, denyLeft := 0,
      holdUntil := some (s.elapsed + tS (pfHold s.acc.profile)), decisions := s.acc.decisions + 1,
      evt := s.acc.evt ||| onBit 10 0, issuedAt := issuedAt, eligible := eligible, slot := slot,
      lastKind := 2, lastCred := cred, lastStatus := .ok, lastCmd := 0, keyInside := false, seqn := none } := by
  obtain ⟨issuedAt, eligible, slot, hacc⟩ := grantMade_acc cred false s
  refine ⟨issuedAt, eligible, slot, ?_⟩
  rw [startEnd, seqClose_acc, outcome_acc, hacc]
  rfl

/-- A grant that nothing bars moves the latch to permit, under no deny level (R34, R35). -/
theorem startEnd_latch (cred : Nat) {s : State} (hbarred : grantBarred s = false) :
    (startEnd cred s).permit.latch = true ∧ denyLevel (startEnd cred s) = false := by
  have hkept : PermitKept (startEnd cred s) (grantMade cred false s) := (seqClose_permitKept _).trans (outcome_permitKept ..)
  obtain ⟨hlatch, hdeny⟩ := grantMade_latch cred false s
  rw [hkept.permit, hlatch, hbarred, hkept.denyLevel, hdeny, denyLevel_of_not_grantBarred hbarred, Bool.not_false, Bool.or_true]
  exact ⟨rfl, rfl⟩

/-- A start that ends after its counters and the decision of its grant is granted. -/
theorem startEnd_granted {u s : State} (cred : Nat) (hwritten : CountersWritten u s) (hbarred : grantBarred s = false) :
    StartGranted (startEnd cred (sessionSet (sessionNumber s).2.1 u)) s cred := by
  have hkept : PermitKept (sessionSet (sessionNumber s).2.1 u) s := (sessionSet_permitKept _ u).trans hwritten.permitKept
  obtain ⟨hlatch, hallowed⟩ := startEnd_latch cred (hkept.grantBarred.trans hbarred)
  obtain ⟨issuedAt, eligible, slot, hacc⟩ := startEnd_acc cred (sessionSet (sessionNumber s).2.1 u)
  obtain ⟨seq, hset⟩ := sessionSet_keeps (sessionNumber s).2.1 u
  have hsession : (sessionSet (sessionNumber s).2.1 u).acc
      = { s.acc with session := (sessionNumber s).2.1.getD s.acc.session, seq := seq } := by rw [hset, ← hwritten.acc]
  rw [hsession, hkept.elapsed] at hacc
  constructor
  case latch => exact hlatch
  case allowed => exact hallowed
  case session => exact fun hopen => by rw [hacc, sessionNumber_open hopen]; rfl
  case evt => rw [hacc]; simp [onBit]
  all_goals rw [hacc]

/-- A start whose columns hold and whose counters are written is granted, if nothing bars the grant (R373, R394). -/
theorem fusion_start_granted {s : State} {q : Seqn} (mv : Nat) (hseq : s.acc.seqn = some q) (hstage : q.stage = .fuse)
    (hkind : q.kind = 2) (hfail : (fuse s q).fail = none) (hmeasured : s.sup.measured = true)
    (hgrant : (grant (q.cred.getD 255) false (seeVhold mv s)).1 = .ok) (hbarred : grantBarred s = false) :
    StartGranted (fusion mv s) s (q.cred.getD 255) := by
  have hthermal : s.sup.thermOff = false := by
    rw [Bool.eq_false_iff]
    intro hoff
    cases (grant_decisionsOff (s := seeVhold mv s) hoff).symm.trans hgrant
  obtain ⟨u, hwritten, hmade⟩ := grant_ok hgrant
  have hstart := startEnd_granted (q.cred.getD 255) hwritten ((seeVhold_permitKept mv s).grantBarred.trans hbarred)
  have hopen : (grant (q.cred.getD 255) false (seeVhold mv s)).2.acc.seqn = some q := by
    rw [hmade, grantMade_seqn, hwritten.acc]
    exact hseq
  rw [fusion_start mv hseq hstage hkind hfail hthermal hmeasured, hgrant,
    seqEnd_closes hopen (by simp [hkind]) (by simp [hkind]) (.inr (.inl rfl)), hkind, hmade]
  exact { hstart with }

/-- FUSION of a granted start leaves permit, the latch and both outputs alike (R34). -/
theorem StartGranted.settled {a s : State} {cred : Nat} (b : State) (h : StartGranted a s cred) :
    (settle b a).permit.latch = true ∧ (settle b a).permit.spA = true ∧ (settle b a).permit.spB = true := by
  rw [settle_latch, settle_spA, settle_spB, h.latch, h.allowed]
  exact ⟨rfl, rfl, rfl⟩

/-- Settles O17: each of the three commands is the end, the wake frame or the grant of its sequence. -/
theorem accessSequences : Obligations.AccessSequences := by
  unfold Obligations.AccessSequences
  refine ⟨?opens, ?refused, ?repeats, ?granted, ?entry, ?entryRefused, ?grantedOpen, ?tOff, ?waits⟩
  case opens =>
    intro s kind pin r hqueue hfree hkind hcheck hrec hindex
    obtain ⟨⟨exch, chal, drawn, hseqn⟩, hmoved, hpermit⟩ := queuedTrigger_sent hqueue hfree hkind hcheck hrec hindex
    refine ⟨_, rfl, ?_⟩
    rw [settle_acc, hseqn, hmoved, hpermit.settle_latch]
    exact ⟨rfl, rfl, rfl, rfl, rfl⟩
  case refused =>
    intro s kind pin r st hqueue hfree hkind hcheck
    refine ⟨_, congrArg (done s) (queuedTrigger_refused hqueue hfree hkind hcheck), ?_⟩
    rw [settle_acc]
    refine ⟨?_, ?_, ?_, ?_, ?_, outcome_evt (preCheck_not_good hcheck)⟩ <;> rw [outcome_acc]
    exact seqn_none_of_free hfree
  case repeats =>
    intro s q hseq hstage hgap hids hindex
    obtain ⟨⟨exch, chal, drawn, hseqn⟩, -, hpermit⟩ := wakeFrameRepeat_sent hseq hstage hgap hids hindex
    refine ⟨_, rfl, ?_⟩
    rw [settle_acc, hseqn, hpermit.settle_latch]
    exact ⟨rfl, rfl, rfl, rfl⟩
  case granted =>
    intro s mv q hseq hstage hkind hfail hmeasured hgrant hbarred
    have h := fusion_start_granted mv hseq hstage hkind hfail hmeasured hgrant hbarred
    obtain ⟨hlatch, hspA, hspB⟩ := h.settled s
    exact ⟨_, rfl, hlatch, hspA, hspB, h.sessOpen, h.grantCred, h.grantBackup, h.evt, h.seqn, h.lastKind, h.lastStatus,
      h.holdUntil, h.decisions⟩
  case entry =>
    intro s mv q hseq hstage hkind hfail hthermal hmeasured hcounter
    refine ⟨_, congrArg (done s) (fusion_entry mv hseq hstage hkind hfail hthermal hmeasured hcounter), ?_⟩
    rw [settle_acc, seqClose_acc, outcome_acc, PermitKept.settle_latch s
      ((seqClose_permitKept _).trans ((outcome_permitKept ..).trans (seeVhold_permitKept mv s)))]
    exact ⟨rfl, rfl, rfl, rfl, rfl⟩
  case entryRefused =>
    intro s mv q st hseq hstage hkind hthermal hfail hbad hserved
    obtain ⟨u, -, hkept, hends⟩ := fusion_entry_refused mv hseq hstage hkind hthermal hfail hserved
    refine ⟨_, congrArg (done s) hends, ?_⟩
    rw [settle_acc, seqClose_acc, PermitKept.settle_latch s ((seqClose_permitKept _).trans ((outcome_permitKept ..).trans hkept))]
    refine ⟨rfl, ?_, ?_, outcome_evt hbad, rfl⟩ <;> rw [outcome_acc]
  case grantedOpen =>
    intro s mv q hseq hstage hkind hfail hmeasured hthermal hopen hcounter hbarred
    have hgrant : (grant (q.cred.getD 255) false (seeVhold mv s)).1 = .ok := grant_open_ok false hthermal hopen hcounter
    have h := fusion_start_granted mv hseq hstage hkind hfail hmeasured hgrant hbarred
    obtain ⟨hlatch, hspA, hspB⟩ := h.settled s
    exact ⟨_, rfl, hlatch, hspA, hspB, h.sessOpen, h.session hopen, h.grantCred, h.seqn, h.lastKind, h.lastStatus, h.holdUntil⟩
  case tOff =>
    intro s mv q hseq hstage h3 hthermal
    obtain ⟨hseqn, hstatus, hevt, hkept⟩ := seqEnd_notReady (s := seeVhold mv s) hseq h3
    refine ⟨_, congrArg (done s) (fusion_decisionsOff mv hseq hstage h3 hthermal), hseqn, hstatus, hevt, ?_⟩
    exact (hkept.trans (seeVhold_permitKept mv s)).settle_latch s
  case waits =>
    exact fun s mv q hseq hstage hkind hfail hthermal hmeasured =>
      congrArg (done s) (fusion_waits mv hseq hstage hkind hfail hthermal hmeasured)

end Sys2Proof.Machine
end
